-- ==== Sys2Proof/Word.lean ====
section
/-! DEFINITION. The word types of the QX960 (spec/00_scope.md R5: little-endian, bit 0 least significant) and their plainest arithmetic. -/

namespace Sys2Proof

abbrev Byte := BitVec 8
abbrev W8 := BitVec 8
abbrev W16 := BitVec 16
abbrev W32 := BitVec 32
abbrev W48 := BitVec 48
abbrev W64 := BitVec 64
abbrev W96 := BitVec 96
abbrev W128 := BitVec 128

/-- A register field of an instruction word (R143). -/
abbrev F7 := BitVec 7

/-- A program counter: a byte offset in the code object (R138, R305: 48 bits). -/
abbrev Pc := BitVec 48

end Sys2Proof
end

