-- ==== Sys2Proof/Config.lean ====
section
/-! DEFINITION. What an implementation fixes (the map of machine addresses, the product fitted) and the free values: constants without a
body, applied to a counter of the state, of which nothing can be proved. -/

namespace Sys2Proof

/-- The free values (R4 and the other open values of the manual): the value of use number `n` by owner `d`. Nothing constrains it. Log entry 1. -/
opaque Config.freeWord (d n : Nat) : W64

/-- Is the product one of 128 GiB, with 8 GiB of GDDR7 a unit, rather than one of 192 GiB with 12 (R1, R252)? Every statement holds for both. -/
opaque Config.small : Bool

/-- The machine addresses kept for the GDDR7 of one partition unit. DESIGN CHOICE, log entry 3. -/
def Config.gddrPerUnit : Nat := 12 * 2 ^ 30

/-- The machine address of the GDDR7 of unit `u`. DESIGN CHOICE, log entry 3. -/
def Config.gddrBase (u : Nat) : Nat := u * Config.gddrPerUnit

/-- The bytes of one vault (R8, R11). -/
def Config.vaultBytes : Nat := 2 ^ 25

/-- The machine address of VAULT `n`; every vault stands above every GDDR7 device (R319). DESIGN CHOICE, log entry 3. -/
def Config.vaultBase (n : Nat) : Nat := 2 ^ 40 + n * Config.vaultBytes

/-- The vault that holds a machine address, if one does. -/
def Config.vaultOf (m : Nat) : Option Nat :=
  if 2 ^ 40 ≤ m ∧ m < 2 ^ 40 + 32 * Config.vaultBytes then some ((m - 2 ^ 40) / Config.vaultBytes) else none

/-- Does the machine address lie in the GDDR7 devices: in the 8 GiB, or 12 GiB, of its unit (R252)? -/
def Config.isGddr (m : Nat) : Bool := decide (m < 16 * Config.gddrPerUnit) && (decide (m % Config.gddrPerUnit < 2 ^ 33) || !Config.small)

/-- Does the machine address lie in device memory (GDDR7 or a vault)? -/
def Config.isDevice (m : Nat) : Bool := Config.isGddr m || (Config.vaultOf m).isSome

/-- The partition unit that homes a machine address of device memory (R252: two vaults and two devices a unit). -/
def Config.unitOf (m : Nat) : Option Nat :=
  match Config.vaultOf m with
  | some v => some (v / 2)
  | none => if Config.isGddr m then some (m / Config.gddrPerUnit) else none

/-- The device id of this device in the fabric: R323 exchanges ids at training and fixes none. Log entry 4. -/
opaque Config.deviceId : W16

/-- The SHAKE256 measurements of the boot ROM, the firmware and the fuse state (R343). Log entry 126. -/
opaque Config.measurement : Nat → BitVec 512

/-- The version this device supports of each of its five interfaces: version 1 alone (R299). -/
def Config.version : Nat := 1

end Sys2Proof
end

