-- ==== Sys2Proof/Machine/Tab.lean ====
section
/-! DEFINITION. Finite tables with a default value, in one canonical form (keys strictly rising, no entry equal to the default): the
shape of every memory, register file and sparse array of the machine. -/

namespace Sys2Proof.Machine

/-- A table: what it lists, by rising key; every other key holds the default that the reader names. -/
abbrev Tab (α : Type) := List (Nat × α)

/-- The value at a key; `d` for a key that is not listed. -/
def Tab.get {α : Type} (d : α) : Tab α → Nat → α
  | [], _ => d
  | (k, v) :: t, j => if k = j then v else Tab.get d t j

/-- The entry at a key, if one is listed. -/
def Tab.find {α : Type} : Tab α → Nat → Option α
  | [], _ => none
  | (k, v) :: t, j => if k = j then some v else Tab.find t j

/-- Without the entry at a key. -/
def Tab.del {α : Type} : Tab α → Nat → Tab α
  | [], _ => []
  | (k, v) :: t, j => if k = j then Tab.del t j else (k, v) :: Tab.del t j

/-- With an entry listed at a key, in its place. -/
def Tab.put {α : Type} : Tab α → Nat → α → Tab α
  | [], j, x => [(j, x)]
  | (k, v) :: t, j, x =>
    if k = j then (j, x) :: t else if j < k then (j, x) :: (k, v) :: t else (k, v) :: Tab.put t j x

/-- A write: the default value removes the entry, any other value lists it. -/
def Tab.set {α : Type} [DecidableEq α] (d : α) (t : Tab α) (j : Nat) (x : α) : Tab α :=
  if x = d then t.del j else t.put j x

/-- Change the entry at a key, where there is one. -/
def Tab.modify {α : Type} : Tab α → Nat → (α → α) → Tab α
  | [], _, _ => []
  | (k, v) :: t, j, f => if k = j then (k, f v) :: t else (k, v) :: Tab.modify t j f

/-- The entries with keys from lo to lo + n - 1. -/
def Tab.slice {α : Type} (t : Tab α) (lo n : Nat) : Tab α := t.filter (fun e => decide (lo ≤ e.1 ∧ e.1 < lo + n))

/-- Without the entries with keys from lo to lo + n - 1. -/
def Tab.clear {α : Type} (t : Tab α) (lo n : Nat) : Tab α := t.filter (fun e => !decide (lo ≤ e.1 ∧ e.1 < lo + n))

/-- Write the entries of a list, each moved by lo - base. -/
def Tab.blit {α : Type} [DecidableEq α] (d : α) (base lo : Nat) : List (Nat × α) → Tab α → Tab α
  | [], t => t
  | (k, v) :: es, t => Tab.blit d base lo es (Tab.set d t (k - base + lo) v)

/-- Keys above `n` and strictly rising. -/
def Tab.above {α : Type} : Nat → Tab α → Bool
  | _, [] => true
  | n, (k, _) :: t => decide (n < k) && Tab.above k t

/-- Keys strictly rising. -/
def Tab.sorted {α : Type} : Tab α → Bool
  | [] => true
  | (k, _) :: t => Tab.above k t

/-- The canonical form: keys strictly rising, no entry equal to the default. -/
def Tab.wf {α : Type} [DecidableEq α] (d : α) (t : Tab α) : Bool :=
  t.sorted && t.all (fun e => decide (e.2 ≠ d))

end Sys2Proof.Machine
end

