-- ==== Sys2Proof/Syntax.lean ====
section
/-! DEFINITION. The syntax of the machine: one constructor per row of spec/opcode_table.json. The first 299 are instruction words, whose
arguments are the fields of the encoding (R143) as they stand in the word; the last 92 are the steps without an encoding (events, packets
and register writes of spec/95_what_each_step_holds.md), whose arguments name the unit they concern and what the outside world brings. -/

namespace Sys2Proof

/-- A command stream: stream `n` of a partition's current context, or the management stream (R278, R251). -/
inductive StreamRef where
  | user (part stream : Nat)
  | mgmt
  deriving DecidableEq, Repr

/-- A register window: the VF window of a partition (R257) or the PF window (R258). -/
inductive WindowRef where
  | vf (part : Nat)
  | pf
  deriving DecidableEq, Repr

/-- The width of an outside access: 1, 2, 4 or 8 bytes. -/
inductive AccessSize where
  | b1 | b2 | b4 | b8
  deriving DecidableEq, Repr

/-- The read-modify-writes that a peer or the host asks of a line's atomics unit (R16, R203, R319); a compare-and-swap brings the value that it compares. -/
inductive AtomOp where
  | add | minS | maxS | minZ | maxZ | and | or | xor | swap | fadd
  | cas (compare : W64)
  deriving DecidableEq, Repr

/-- The size of an outside access and the data that it brings. -/
structure OutsideData where
  size  : AccessSize
  value : W64
  deriving DecidableEq, Repr

/-- What an outside access does. -/
inductive OutsideOp where
  | read
  | write
  | atomic (op : AtomOp)
  deriving DecidableEq, Repr

/-- What a request through a remote window does at its owner (R326): the operations of R203 among them, and those of `cld` and `cst` (R202). -/
inductive WindowOp where
  | read
  | write
  | atomic (op : AtomOp)
  | cload
  | cstore
  deriving DecidableEq, Repr

/-- The data that such a request brings, with the tag of a capability. -/
structure WindowData where
  value : W128
  tag   : Bool
  deriving DecidableEq, Repr

/-- The memories of a core that check themselves (R313). -/
inductive CoreMem where
  | team
  | cache
  | registers
  | accumulators
  | weights
  deriving DecidableEq, Repr

/-- Where the device finds an error by itself (R312, R313): in a GDDR7 sector; in the L2 slice or the vault that homes an address; in a memory of a core. -/
inductive MemPlace where
  | sector (addr : BitVec 52)
  | home (addr : BitVec 52)
  | core (core : Nat) (mem : CoreMem)
  deriving DecidableEq, Repr

/-- A barrier: hardware barrier `id` of a team (R209), or the level barrier of a level unit of a launch (R210). -/
inductive BarRef where
  | team (team : Nat) (id : Nat)
  | level (launch : Nat) (level : Nat) (unit : Nat)
  deriving DecidableEq, Repr

/-- The kinds of engine that the collector stops (R293, R303). -/
inductive EngineKind where
  | issueSlot | matrixArray | copyEngine | collective | boundsSequencer | channelStore | streamFrontEnd
  deriving DecidableEq, Repr

/-- The states of a TDI (R319). -/
inductive Tdi where
  | configUnlocked | configLocked | run | error
  deriving DecidableEq, Repr

/-- The steps of the machine: one constructor per row of the table. -/
inductive Instr where
  /-- VADD (R154): Per-lane 32-bit wrapping addition. -/
  | vadd (d : F7) (a : F7) (b : F7)
  /-- VSUB (R154): Per-lane 32-bit wrapping subtraction. -/
  | vsub (d : F7) (a : F7) (b : F7)
  /-- VMUL (R154): Per-lane low 32 bits of the product. -/
  | vmul (d : F7) (a : F7) (b : F7)
  /-- VMULH_S (R154): Per-lane high 32 bits of the signed product. -/
  | vmulhS (d : F7) (a : F7) (b : F7)
  /-- VMULH_Z (R154): Per-lane high 32 bits of the unsigned product. -/
  | vmulhZ (d : F7) (a : F7) (b : F7)
  /-- VMAD (R154): Per-lane multiply and add to vd, wrapping. -/
  | vmad (d : F7) (a : F7) (b : F7)
  /-- VMIN_S (R154): Per-lane signed minimum. -/
  | vminS (d : F7) (a : F7) (b : F7)
  /-- VMIN_Z (R154): Per-lane unsigned minimum. -/
  | vminZ (d : F7) (a : F7) (b : F7)
  /-- VMAX_S (R154): Per-lane signed maximum. -/
  | vmaxS (d : F7) (a : F7) (b : F7)
  /-- VMAX_Z (R154): Per-lane unsigned maximum. -/
  | vmaxZ (d : F7) (a : F7) (b : F7)
  /-- VADDS_S (R154): Per-lane signed saturating addition. -/
  | vaddsS (d : F7) (a : F7) (b : F7)
  /-- VADDS_Z (R154): Per-lane unsigned saturating addition. -/
  | vaddsZ (d : F7) (a : F7) (b : F7)
  /-- VSUBS_S (R154): Per-lane signed saturating subtraction. -/
  | vsubsS (d : F7) (a : F7) (b : F7)
  /-- VSUBS_Z (R154): Per-lane unsigned saturating subtraction. -/
  | vsubsZ (d : F7) (a : F7) (b : F7)
  /-- VDIV_S (R154): Per-lane signed division by the fixed division rule. -/
  | vdivS (d : F7) (a : F7) (b : F7)
  /-- VDIV_Z (R154): Per-lane unsigned division by the fixed division rule. -/
  | vdivZ (d : F7) (a : F7) (b : F7)
  /-- VREM_S (R154): Per-lane signed remainder. -/
  | vremS (d : F7) (a : F7) (b : F7)
  /-- VREM_Z (R154): Per-lane unsigned remainder. -/
  | vremZ (d : F7) (a : F7) (b : F7)
  /-- VAND (R158): Per-lane bitwise AND. -/
  | vand (d : F7) (a : F7) (b : F7)
  /-- VOR (R158): Per-lane bitwise OR. -/
  | vor (d : F7) (a : F7) (b : F7)
  /-- VXOR (R158): Per-lane bitwise XOR. -/
  | vxor (d : F7) (a : F7) (b : F7)
  /-- VANDN (R158): Per-lane va AND NOT vb. -/
  | vandn (d : F7) (a : F7) (b : F7)
  /-- VSEL (R159): Per-lane bitwise select using vd as mask. -/
  | vsel (d : F7) (a : F7) (b : F7)
  /-- VSHL (R158): Per-lane shift left, 0 when the amount is 32 or more. -/
  | vshl (d : F7) (a : F7) (b : F7)
  /-- VSHR_Z (R158): Per-lane logical shift right. -/
  | vshrZ (d : F7) (a : F7) (b : F7)
  /-- VSHR_S (R158): Per-lane arithmetic shift right. -/
  | vshrS (d : F7) (a : F7) (b : F7)
  /-- VROTL (R158): Per-lane rotate left by n mod 32. -/
  | vrotl (d : F7) (a : F7) (b : F7)
  /-- VPOPC (R156): Per-lane count of 1 bits. -/
  | vpopc (d : F7) (a : F7)
  /-- VCLZ (R156): Per-lane count of leading zero bits. -/
  | vclz (d : F7) (a : F7)
  /-- VBREV (R156): Per-lane bit reversal. -/
  | vbrev (d : F7) (a : F7)
  /-- VBFX_Z (R156): Per-lane unsigned bit-field extract. -/
  | vbfxZ (d : F7) (a : F7) (b : F7)
  /-- VBFX_S (R156): Per-lane sign-extending bit-field extract. -/
  | vbfxS (d : F7) (a : F7) (b : F7)
  /-- VBFI (R156): Per-lane bit-field insert into vd. -/
  | vbfi (d : F7) (a : F7) (b : F7)
  /-- VCMP_EQ (R157): Per-lane equality compare giving all ones or 0. -/
  | vcmpEq (d : F7) (a : F7) (b : F7)
  /-- VCMP_NE (R157): Per-lane inequality compare. -/
  | vcmpNe (d : F7) (a : F7) (b : F7)
  /-- VCMP_LT_S (R157): Per-lane signed less-than compare. -/
  | vcmpLtS (d : F7) (a : F7) (b : F7)
  /-- VCMP_LT_Z (R157): Per-lane unsigned less-than compare. -/
  | vcmpLtZ (d : F7) (a : F7) (b : F7)
  /-- VCMP_LE_S (R157): Per-lane signed less-or-equal compare. -/
  | vcmpLeS (d : F7) (a : F7) (b : F7)
  /-- VCMP_LE_Z (R157): Per-lane unsigned less-or-equal compare. -/
  | vcmpLeZ (d : F7) (a : F7) (b : F7)
  /-- VMOV (R159): Per-lane register copy. -/
  | vmov (d : F7) (a : F7)
  /-- VBCAST (R159): Broadcasts the low 32 bits of a scalar to every executing lane. -/
  | vbcast (d : F7) (a : F7)
  /-- VEXT (R159): Extracts the lane named by a scalar into a scalar register. -/
  | vext (d : F7) (a : F7) (b : F7)
  /-- VINS (R159): Inserts a scalar into the lane named by a scalar. -/
  | vins (d : F7) (a : F7) (b : F7)
  /-- SADD (R160): Scalar 64-bit wrapping addition. -/
  | sadd (d : F7) (a : F7) (b : F7)
  /-- SSUB (R160): Scalar 64-bit wrapping subtraction. -/
  | ssub (d : F7) (a : F7) (b : F7)
  /-- SMUL (R160): Scalar low 64 bits of the product. -/
  | smul (d : F7) (a : F7) (b : F7)
  /-- SMULH_S (R160): Scalar high 64 bits of the signed product. -/
  | smulhS (d : F7) (a : F7) (b : F7)
  /-- SMULH_Z (R160): Scalar high 64 bits of the unsigned product. -/
  | smulhZ (d : F7) (a : F7) (b : F7)
  /-- SMIN_S (R160): Scalar signed minimum. -/
  | sminS (d : F7) (a : F7) (b : F7)
  /-- SMIN_Z (R160): Scalar unsigned minimum. -/
  | sminZ (d : F7) (a : F7) (b : F7)
  /-- SMAX_S (R160): Scalar signed maximum. -/
  | smaxS (d : F7) (a : F7) (b : F7)
  /-- SMAX_Z (R160): Scalar unsigned maximum. -/
  | smaxZ (d : F7) (a : F7) (b : F7)
  /-- SDIV_S (R160): Scalar signed 64-bit division. -/
  | sdivS (d : F7) (a : F7) (b : F7)
  /-- SDIV_Z (R160): Scalar unsigned 64-bit division. -/
  | sdivZ (d : F7) (a : F7) (b : F7)
  /-- SREM_S (R160): Scalar signed 64-bit remainder. -/
  | sremS (d : F7) (a : F7) (b : F7)
  /-- SREM_Z (R160): Scalar unsigned 64-bit remainder. -/
  | sremZ (d : F7) (a : F7) (b : F7)
  /-- SAND (R160): Scalar bitwise AND. -/
  | sand (d : F7) (a : F7) (b : F7)
  /-- SOR (R160): Scalar bitwise OR. -/
  | sor (d : F7) (a : F7) (b : F7)
  /-- SXOR (R160): Scalar bitwise XOR. -/
  | sxor (d : F7) (a : F7) (b : F7)
  /-- SANDN (R160): Scalar AND NOT. -/
  | sandn (d : F7) (a : F7) (b : F7)
  /-- SSHL (R160): Scalar shift left. -/
  | sshl (d : F7) (a : F7) (b : F7)
  /-- SSHR_Z (R160): Scalar logical shift right. -/
  | sshrZ (d : F7) (a : F7) (b : F7)
  /-- SSHR_S (R160): Scalar arithmetic shift right. -/
  | sshrS (d : F7) (a : F7) (b : F7)
  /-- SPOPC (R160): Scalar count of 1 bits. -/
  | spopc (d : F7) (a : F7)
  /-- SCLZ (R160): Scalar count of leading zero bits. -/
  | sclz (d : F7) (a : F7)
  /-- SCMP_EQ (R160): Scalar equality compare. -/
  | scmpEq (d : F7) (a : F7) (b : F7)
  /-- SCMP_NE (R160): Scalar inequality compare. -/
  | scmpNe (d : F7) (a : F7) (b : F7)
  /-- SCMP_LT_S (R160): Scalar signed less-than compare. -/
  | scmpLtS (d : F7) (a : F7) (b : F7)
  /-- SCMP_LT_Z (R160): Scalar unsigned less-than compare. -/
  | scmpLtZ (d : F7) (a : F7) (b : F7)
  /-- SCMP_LE_S (R160): Scalar signed less-or-equal compare. -/
  | scmpLeS (d : F7) (a : F7) (b : F7)
  /-- SCMP_LE_Z (R160): Scalar unsigned less-or-equal compare. -/
  | scmpLeZ (d : F7) (a : F7) (b : F7)
  /-- SMOV (R160): Scalar register copy. -/
  | smov (d : F7) (a : F7)
  /-- SSEL (R160): Scalar bitwise select using sd as mask. -/
  | ssel (d : F7) (a : F7) (b : F7)
  /-- VADDI (R161): Per-lane addition of a sign-extended immediate. -/
  | vaddi (d : F7) (a : F7) (i : BitVec 10)
  /-- VMULI (R161): Per-lane multiplication by an immediate. -/
  | vmuli (d : F7) (a : F7) (i : BitVec 10)
  /-- VANDI (R161): Per-lane AND with an immediate. -/
  | vandi (d : F7) (a : F7) (i : BitVec 10)
  /-- VORI (R161): Per-lane OR with an immediate. -/
  | vori (d : F7) (a : F7) (i : BitVec 10)
  /-- VXORI (R161): Per-lane XOR with an immediate. -/
  | vxori (d : F7) (a : F7) (i : BitVec 10)
  /-- VSHLI (R161): Per-lane shift left by an immediate. -/
  | vshli (d : F7) (a : F7) (i : BitVec 10)
  /-- VSHRI_Z (R161): Per-lane logical shift right by an immediate. -/
  | vshriZ (d : F7) (a : F7) (i : BitVec 10)
  /-- VSHRI_S (R161): Per-lane arithmetic shift right by an immediate. -/
  | vshriS (d : F7) (a : F7) (i : BitVec 10)
  /-- VCMPI_EQ (R161): Per-lane equality compare with an immediate. -/
  | vcmpiEq (d : F7) (a : F7) (i : BitVec 10)
  /-- VCMPI_LT_S (R161): Per-lane signed less-than compare with an immediate. -/
  | vcmpiLtS (d : F7) (a : F7) (i : BitVec 10)
  /-- VCMPI_LT_Z (R161): Per-lane unsigned less-than compare with an immediate. -/
  | vcmpiLtZ (d : F7) (a : F7) (i : BitVec 10)
  /-- VMINI_S (R161): Per-lane signed minimum with an immediate. -/
  | vminiS (d : F7) (a : F7) (i : BitVec 10)
  /-- VMAXI_S (R161): Per-lane signed maximum with an immediate. -/
  | vmaxiS (d : F7) (a : F7) (i : BitVec 10)
  /-- SADDI (R161): Scalar addition of a sign-extended immediate. -/
  | saddi (d : F7) (a : F7) (i : BitVec 10)
  /-- SMULI (R161): Scalar multiplication by an immediate. -/
  | smuli (d : F7) (a : F7) (i : BitVec 10)
  /-- SANDI (R161): Scalar AND with an immediate. -/
  | sandi (d : F7) (a : F7) (i : BitVec 10)
  /-- SORI (R161): Scalar OR with an immediate. -/
  | sori (d : F7) (a : F7) (i : BitVec 10)
  /-- SXORI (R161): Scalar XOR with an immediate. -/
  | sxori (d : F7) (a : F7) (i : BitVec 10)
  /-- SSHLI (R161): Scalar shift left by an immediate. -/
  | sshli (d : F7) (a : F7) (i : BitVec 10)
  /-- SSHRI_Z (R161): Scalar logical shift right by an immediate. -/
  | sshriZ (d : F7) (a : F7) (i : BitVec 10)
  /-- SSHRI_S (R161): Scalar arithmetic shift right by an immediate. -/
  | sshriS (d : F7) (a : F7) (i : BitVec 10)
  /-- SCMPI_EQ (R161): Scalar equality compare with an immediate. -/
  | scmpiEq (d : F7) (a : F7) (i : BitVec 10)
  /-- SCMPI_LT_S (R161): Scalar signed less-than compare with an immediate. -/
  | scmpiLtS (d : F7) (a : F7) (i : BitVec 10)
  /-- SCMPI_LT_Z (R161): Scalar unsigned less-than compare with an immediate. -/
  | scmpiLtZ (d : F7) (a : F7) (i : BitVec 10)
  /-- SMINI_S (R161): Scalar signed minimum with an immediate. -/
  | sminiS (d : F7) (a : F7) (i : BitVec 10)
  /-- SMAXI_S (R161): Scalar signed maximum with an immediate. -/
  | smaxiS (d : F7) (a : F7) (i : BitVec 10)
  /-- VMOVI (R162): Writes a sign-extended 19-bit immediate to every executing lane. -/
  | vmovi (d : F7) (i : BitVec 19)
  /-- VMOVHI (R162): Writes the immediate into bits 31:13 of each lane, keeping the low 13 bits. -/
  | vmovhi (d : F7) (i : BitVec 19)
  /-- SMOVI (R162): Writes a sign-extended 19-bit immediate to a scalar. -/
  | smovi (d : F7) (i : BitVec 19)
  /-- SMOVHI (R162): Writes the sign-extended immediate above bit 19 of a scalar, keeping the low 19 bits. -/
  | smovhi (d : F7) (i : BitVec 19)
  /-- FADD (R179): Per-lane FP32 addition rounded in the current mode. -/
  | fadd (d : F7) (a : F7) (b : F7)
  /-- FSUB (R179): Per-lane FP32 subtraction. -/
  | fsub (d : F7) (a : F7) (b : F7)
  /-- FMUL (R179): Per-lane FP32 multiplication. -/
  | fmul (d : F7) (a : F7) (b : F7)
  /-- FFMA (R179): Per-lane FP32 fused multiply-add into vd. -/
  | ffma (d : F7) (a : F7) (b : F7)
  /-- FMIN (R181): Per-lane FP32 minimum with -0 below +0. -/
  | fmin (d : F7) (a : F7) (b : F7)
  /-- FMAX (R181): Per-lane FP32 maximum. -/
  | fmax (d : F7) (a : F7) (b : F7)
  /-- FABS (R181): Per-lane FP32 absolute value. -/
  | fabs (d : F7) (a : F7)
  /-- FNEG (R181): Per-lane FP32 negation. -/
  | fneg (d : F7) (a : F7)
  /-- FDIV (R179): Per-lane correctly rounded FP32 division. -/
  | fdiv (d : F7) (a : F7) (b : F7)
  /-- FSQRT (R179): Per-lane correctly rounded FP32 square root. -/
  | fsqrt (d : F7) (a : F7)
  /-- FRCP (R179): Per-lane correctly rounded FP32 reciprocal. -/
  | frcp (d : F7) (a : F7)
  /-- FCMP_EQ (R182): Per-lane FP32 equality compare. -/
  | fcmpEq (d : F7) (a : F7) (b : F7)
  /-- FCMP_LT (R182): Per-lane FP32 less-than compare. -/
  | fcmpLt (d : F7) (a : F7) (b : F7)
  /-- FCMP_LE (R182): Per-lane FP32 less-or-equal compare. -/
  | fcmpLe (d : F7) (a : F7) (b : F7)
  /-- FCMP_UN (R182): Per-lane unordered compare: true if either operand is NaN. -/
  | fcmpUn (d : F7) (a : F7) (b : F7)
  /-- FCLASS (R182): Per-lane one-hot FP32 class mask. -/
  | fclass (d : F7) (a : F7)
  /-- FSCALE (R183): Per-lane x times 2 to the power n, rounded once. -/
  | fscale (d : F7) (a : F7) (b : F7)
  /-- FFLOOR (R183): Per-lane floor to an integral FP32 value. -/
  | ffloor (d : F7) (a : F7)
  /-- FCEIL (R183): Per-lane ceiling to an integral FP32 value. -/
  | fceil (d : F7) (a : F7)
  /-- FTRUNC (R183): Per-lane truncation to an integral FP32 value. -/
  | ftrunc (d : F7) (a : F7)
  /-- FRINT (R183): Per-lane rounding to an integral value in the current mode. -/
  | frint (d : F7) (a : F7)
  /-- FADD_B2 (R184): Packed BF16 addition of two elements per lane. -/
  | faddB2 (d : F7) (a : F7) (b : F7)
  /-- FMUL_B2 (R184): Packed BF16 multiplication. -/
  | fmulB2 (d : F7) (a : F7) (b : F7)
  /-- FFMA_B2 (R184): Packed BF16 fused multiply-add. -/
  | ffmaB2 (d : F7) (a : F7) (b : F7)
  /-- FADD_H2 (R184): Packed FP16 addition. -/
  | faddH2 (d : F7) (a : F7) (b : F7)
  /-- FMUL_H2 (R184): Packed FP16 multiplication. -/
  | fmulH2 (d : F7) (a : F7) (b : F7)
  /-- FFMA_H2 (R184): Packed FP16 fused multiply-add. -/
  | ffmaH2 (d : F7) (a : F7) (b : F7)
  /-- FMAX_B2 (R184): Packed BF16 maximum. -/
  | fmaxB2 (d : F7) (a : F7) (b : F7)
  /-- FMIN_B2 (R184): Packed BF16 minimum. -/
  | fminB2 (d : F7) (a : F7) (b : F7)
  /-- CVT_F_S (R185): Per-lane int32 to FP32 conversion. -/
  | cvtFS (d : F7) (a : F7)
  /-- CVT_F_Z (R185): Per-lane unsigned 32-bit to FP32 conversion. -/
  | cvtFZ (d : F7) (a : F7)
  /-- CVT_S_F (R185): Per-lane FP32 to saturated int32 conversion. -/
  | cvtSF (d : F7) (a : F7)
  /-- CVT_Z_F (R185): Per-lane FP32 to saturated unsigned 32-bit conversion. -/
  | cvtZF (d : F7) (a : F7)
  /-- CVT_B2_F (R186): Packs two FP32 values into two BF16 halves. -/
  | cvtB2F (d : F7) (a : F7) (b : F7)
  /-- CVT_H2_F (R186): Packs two FP32 values into two FP16 halves. -/
  | cvtH2F (d : F7) (a : F7) (b : F7)
  /-- CVT_F_B2 (R186): Widens the selected BF16 half to FP32. -/
  | cvtFB2 (d : F7) (a : F7) (n : F7)
  /-- CVT_F_H2 (R186): Widens the selected FP16 half to FP32. -/
  | cvtFH2 (d : F7) (a : F7) (n : F7)
  /-- CVT_N_F (R187): Encodes FP32 into a narrow format named by a format word. -/
  | cvtNF (d : F7) (a : F7) (b : F7)
  /-- CVT_F_N (R187): Decodes a narrow code exactly to FP32. -/
  | cvtFN (d : F7) (a : F7) (b : F7)
  /-- VPACK4 (R187): Inserts an 8-bit or 4-bit code into a byte or nibble of vd. -/
  | vpack4 (d : F7) (a : F7) (n : F7)
  /-- VUNPK4 (R187): Extracts an 8-bit or 4-bit code from a byte or nibble. -/
  | vunpk4 (d : F7) (a : F7) (n : F7)
  /-- FEXP2 (R188): Per-lane 2 to the x, correctly rounded in RNE. -/
  | fexp2 (d : F7) (a : F7)
  /-- FLOG2 (R188): Per-lane base-2 logarithm. -/
  | flog2 (d : F7) (a : F7)
  /-- FRSQRT (R188): Per-lane reciprocal square root. -/
  | frsqrt (d : F7) (a : F7)
  /-- FSINPI (R188): Per-lane sin(pi x). -/
  | fsinpi (d : F7) (a : F7)
  /-- FCOSPI (R188): Per-lane cos(pi x). -/
  | fcospi (d : F7) (a : F7)
  /-- FTANH (R188): Per-lane hyperbolic tangent. -/
  | ftanh (d : F7) (a : F7)
  /-- FSIGM (R188): Per-lane logistic sigmoid. -/
  | fsigm (d : F7) (a : F7)
  /-- VSHFL_IDX (R190): Shuffle from a per-lane source index. -/
  | vshflIdx (d : F7) (a : F7) (b : F7)
  /-- VSHFL_UP (R190): Shuffle from lane l minus a scalar. -/
  | vshflUp (d : F7) (a : F7) (b : F7)
  /-- VSHFL_DN (R190): Shuffle from lane l plus a scalar. -/
  | vshflDn (d : F7) (a : F7) (b : F7)
  /-- VSHFL_XOR (R190): Shuffle from lane l XOR a scalar. -/
  | vshflXor (d : F7) (a : F7) (b : F7)
  /-- VRED_ADD (R191): Wrapping sum over the executing lanes, broadcast. -/
  | vredAdd (d : F7) (a : F7)
  /-- VRED_MIN_S (R191): Signed minimum reduction. -/
  | vredMinS (d : F7) (a : F7)
  /-- VRED_MAX_S (R191): Signed maximum reduction. -/
  | vredMaxS (d : F7) (a : F7)
  /-- VRED_MIN_Z (R191): Unsigned minimum reduction. -/
  | vredMinZ (d : F7) (a : F7)
  /-- VRED_MAX_Z (R191): Unsigned maximum reduction. -/
  | vredMaxZ (d : F7) (a : F7)
  /-- VRED_AND (R191): AND reduction. -/
  | vredAnd (d : F7) (a : F7)
  /-- VRED_OR (R191): OR reduction. -/
  | vredOr (d : F7) (a : F7)
  /-- VRED_XOR (R191): XOR reduction. -/
  | vredXor (d : F7) (a : F7)
  /-- VRED_FADD (R191): FP32 sum over a fixed six-level binary96 tree, rounded in RNE. -/
  | vredFadd (d : F7) (a : F7)
  /-- VRED_FMIN (R191): FP32 minimum reduction. -/
  | vredFmin (d : F7) (a : F7)
  /-- VRED_FMAX (R191): FP32 maximum reduction. -/
  | vredFmax (d : F7) (a : F7)
  /-- VARGMIN_S (R192): Least signed value and its lowest lane index. -/
  | vargminS (d : F7) (a : F7)
  /-- VARGMIN_Z (R192): Least unsigned value and its lowest lane index. -/
  | vargminZ (d : F7) (a : F7)
  /-- VARGMAX_S (R192): Greatest signed value and its lowest lane index. -/
  | vargmaxS (d : F7) (a : F7)
  /-- VARGMAX_Z (R192): Greatest unsigned value and its lowest lane index. -/
  | vargmaxZ (d : F7) (a : F7)
  /-- VSCAN_ADD (R193): Inclusive wrapping prefix sum over lanes. -/
  | vscanAdd (d : F7) (a : F7)
  /-- VSCAN_FADD (R193): Inclusive FP32 prefix sum, each step rounded in RNE. -/
  | vscanFadd (d : F7) (a : F7)
  /-- VBALLOT (R194): Scalar mask of executing lanes with nonzero value. -/
  | vballot (d : F7) (a : F7)
  /-- VANY (R194): All ones if any executing lane is nonzero. -/
  | vany (d : F7) (a : F7)
  /-- VALL (R194): All ones if every executing lane is nonzero. -/
  | vall (d : F7) (a : F7)
  /-- SMOVSR (R195): Reads a scalar special register into a scalar. -/
  | smovsr (d : F7) (n : F7)
  /-- VMOVSR (R195): Reads a special register into each executing lane. -/
  | vmovsr (d : F7) (n : F7)
  /-- BNZ (R164): Per-lane branch when the vector condition is nonzero. -/
  | bnz (a : F7) (p : BitVec 4) (o : BitVec 14)
  /-- BZ (R164): Per-lane branch when the vector condition is zero. -/
  | bz (a : F7) (p : BitVec 4) (o : BitVec 14)
  /-- BSNZ (R166): Group-uniform branch when a scalar is nonzero. -/
  | bsnz (a : F7) (p : BitVec 4) (o : BitVec 14)
  /-- BSZ (R166): Group-uniform branch when a scalar is zero. -/
  | bsz (a : F7) (p : BitVec 4) (o : BitVec 14)
  /-- BRA (R165): Unconditional branch of every executing lane. -/
  | bra (p : BitVec 4) (o : BitVec 14)
  /-- CALLI (R167): Direct call pushing next(p) on each lane's return stack, spilling by R53. -/
  | calli (p : BitVec 4) (o : BitVec 14)
  /-- CALLV (R169): Per-lane indirect call through a capability, splitting by target. -/
  | callv (d : F7) (a : F7)
  /-- CALLS (R169): Indirect call to a group-uniform offset through a capability. -/
  | calls (d : F7) (a : F7)
  /-- RET (R173): Pops each lane's return address, reloading from c31 at depth 5 or more. -/
  | ret
  /-- EXIT (R40): Ends the executing lanes after earlier memory-class work, retiring the group with its last lane. -/
  | exit
  /-- JMPV (R169): Per-lane indirect jump through a capability without a return. -/
  | jmpv (d : F7) (a : F7)
  /-- RJSET (R50): Sets MEMBER bits of executing lanes from a vector condition. -/
  | rjset (d : F7) (a : F7)
  /-- RJSETM (R50): Sets MEMBER bits of executing lanes from a scalar mask. -/
  | rjsetm (d : F7) (a : F7)
  /-- RJENTER (R50): Adds the executing lanes to a rejoin set. -/
  | rjenter (d : F7)
  /-- RJQUIT (R50): Removes the executing lanes from a rejoin set and checks for release. -/
  | rjquit (d : F7)
  /-- RJWAIT (R50): Parks executing members on a rejoin set; releases all when every member waits. -/
  | rjwait (d : F7)
  /-- RJGET (R50): Reads MEMBER or WAITING of a set into a scalar. -/
  | rjget (d : F7) (a : F7) (n : F7)
  /-- YIELD (R177): Passes over the yielding entry at the next selection. -/
  | yield
  /-- SETPRIO (R174): Sets the block priority of the executing lanes. -/
  | setprio (n : F7)
  /-- WBASE (R176): Sets the group's vector window base. -/
  | wbase (n : F7)
  /-- NOP (R172): No effect beyond issue and stall count. -/
  | nop
  /-- BRK (R168): Parks the executing lanes in BRK and reports BREAKPOINT by the stop mode. -/
  | brk (n : F7)
  /-- TRAP (R175): Raises USER_TRAP with a code for the S handler. -/
  | trap (n : F7)
  /-- FRND (R171): Sets the group's rounding control. -/
  | frnd (n : F7)
  /-- VLD_B_Z (R199): Vector load of a zero-extended byte per lane. -/
  | vldBZ (d : F7) (a : F7) (c : BitVec 5) (i : BitVec 6)
  /-- VLD_B_S (R199): Vector load of a sign-extended byte per lane. -/
  | vldBS (d : F7) (a : F7) (c : BitVec 5) (i : BitVec 6)
  /-- VLD_H_Z (R199): Vector load of a zero-extended half per lane. -/
  | vldHZ (d : F7) (a : F7) (c : BitVec 5) (i : BitVec 6)
  /-- VLD_H_S (R199): Vector load of a sign-extended half per lane. -/
  | vldHS (d : F7) (a : F7) (c : BitVec 5) (i : BitVec 6)
  /-- VLD_W (R199): Vector load of a word per lane. -/
  | vldW (d : F7) (a : F7) (c : BitVec 5) (i : BitVec 6)
  /-- VLD_D (R199): Vector load of 8 bytes per lane into a register pair. -/
  | vldD (d : F7) (a : F7) (c : BitVec 5) (i : BitVec 6)
  /-- VLD_Q (R199): Vector load of 16 bytes per lane into a register quad. -/
  | vldQ (d : F7) (a : F7) (c : BitVec 5) (i : BitVec 6)
  /-- VLDBC (R199): One word load at a scalar offset, broadcast to every executing lane. -/
  | vldbc (d : F7) (a : F7) (c : BitVec 5) (i : BitVec 6)
  /-- VST_B (R200): Vector store of a byte per lane. -/
  | vstB (d : F7) (a : F7) (c : BitVec 5) (i : BitVec 6)
  /-- VST_H (R200): Vector store of a half per lane. -/
  | vstH (d : F7) (a : F7) (c : BitVec 5) (i : BitVec 6)
  /-- VST_W (R200): Vector store of a word per lane. -/
  | vstW (d : F7) (a : F7) (c : BitVec 5) (i : BitVec 6)
  /-- VST_D (R200): Vector store of 8 bytes per lane from a pair. -/
  | vstD (d : F7) (a : F7) (c : BitVec 5) (i : BitVec 6)
  /-- VST_Q (R200): Vector store of 16 bytes per lane from a quad. -/
  | vstQ (d : F7) (a : F7) (c : BitVec 5) (i : BitVec 6)
  /-- SLD_D (R201): Scalar load of 8 bytes. -/
  | sldD (d : F7) (a : F7) (c : BitVec 5) (i : BitVec 6)
  /-- SLD_W_S (R201): Scalar load of a sign-extended word. -/
  | sldWS (d : F7) (a : F7) (c : BitVec 5) (i : BitVec 6)
  /-- SLD_W_Z (R201): Scalar load of a zero-extended word. -/
  | sldWZ (d : F7) (a : F7) (c : BitVec 5) (i : BitVec 6)
  /-- SST_D (R201): Scalar store of 8 bytes. -/
  | sstD (d : F7) (a : F7) (c : BitVec 5) (i : BitVec 6)
  /-- SST_W (R201): Scalar store of a word. -/
  | sstW (d : F7) (a : F7) (c : BitVec 5) (i : BitVec 6)
  /-- CLD (R202): Loads a capability and its granule tag. -/
  | cld (d : F7) (a : F7) (c : BitVec 5) (i : BitVec 6)
  /-- CST (R202): Stores a capability with its tag into a granule. -/
  | cst (d : F7) (a : F7) (c : BitVec 5) (i : BitVec 6)
  /-- AADD (R203): Per-lane atomic 32-bit add returning the old value. -/
  | aadd (d : F7) (a : F7) (c : BitVec 5) (b : BitVec 5)
  /-- AMIN_S (R203): Per-lane atomic signed minimum. -/
  | aminS (d : F7) (a : F7) (c : BitVec 5) (b : BitVec 5)
  /-- AMAX_S (R203): Per-lane atomic signed maximum. -/
  | amaxS (d : F7) (a : F7) (c : BitVec 5) (b : BitVec 5)
  /-- AMIN_Z (R203): Per-lane atomic unsigned minimum. -/
  | aminZ (d : F7) (a : F7) (c : BitVec 5) (b : BitVec 5)
  /-- AMAX_Z (R203): Per-lane atomic unsigned maximum. -/
  | amaxZ (d : F7) (a : F7) (c : BitVec 5) (b : BitVec 5)
  /-- AAND (R203): Per-lane atomic AND. -/
  | aand (d : F7) (a : F7) (c : BitVec 5) (b : BitVec 5)
  /-- AOR (R203): Per-lane atomic OR. -/
  | aor (d : F7) (a : F7) (c : BitVec 5) (b : BitVec 5)
  /-- AXOR (R203): Per-lane atomic XOR. -/
  | axor (d : F7) (a : F7) (c : BitVec 5) (b : BitVec 5)
  /-- AXCHG (R203): Per-lane atomic exchange. -/
  | axchg (d : F7) (a : F7) (c : BitVec 5) (b : BitVec 5)
  /-- ACAS (R203): Per-lane atomic compare-and-swap. -/
  | acas (d : F7) (a : F7) (c : BitVec 5) (b : BitVec 5)
  /-- AFADD (R203): Per-lane atomic FP32 add in RNE. -/
  | afadd (d : F7) (a : F7) (c : BitVec 5) (b : BitVec 5)
  /-- SAADD (R203): Group atomic 64-bit add. -/
  | saadd (d : F7) (a : F7) (c : BitVec 5) (b : BitVec 5)
  /-- SACAS (R203): Group atomic 64-bit compare-and-swap. -/
  | sacas (d : F7) (a : F7) (c : BitVec 5) (b : BitVec 5)
  /-- FPUB (R137): Publishes waited flows, rounds and tsum writes at a scope. -/
  | fpub (n : F7)
  /-- FSYS (R137): Waits for HOSTIO, WINDOW and host or remote flow writes to complete, then publishes. -/
  | fsys (n : F7)
  /-- TBINIT (R208): Initialises a team barrier object. -/
  | tbinit (a : F7) (b : F7)
  /-- TBARRIVE (R208): Atomically arrives at a barrier object, flipping the phase when pending reaches 0. -/
  | tbarrive (d : F7) (a : F7) (b : F7)
  /-- TBWAIT (R208): Loads a barrier object and repeats at the same word until the phase changes. -/
  | tbwait (a : F7) (b : F7)
  /-- TBTEST (R208): Tests whether a barrier object's phase has changed. -/
  | tbtest (d : F7) (a : F7) (b : F7)
  /-- TEAMBAR (R209): Arrives at a hardware team barrier; the last arrival publishes and releases. -/
  | teambar (n : F7)
  /-- LVLBAR (R210): Arrives at a level barrier; the last arrival publishes at the level scope and releases. -/
  | lvlbar (n : F7)
  /-- SEND (R124): Writes a vector into the next free channel slot, parking if none is free. -/
  | send (d : F7) (a : F7)
  /-- RECV (R124): Takes the oldest full channel slot, parking if none is full. -/
  | recv (d : F7) (a : F7)
  /-- QSTAT (R124): Reads the full and free slot counts of a channel. -/
  | qstat (d : F7) (a : F7)
  /-- TMWAIT (R213): Parks the executing lanes until TIMEBASE reaches a deadline. -/
  | tmwait (a : F7)
  /-- SVC (R125): Sends a service request over Pewter and parks the lanes for the reply. -/
  | svc (d : F7) (a : F7) (n : F7)
  /-- ICINV (R78): Invalidates instruction caches of the cores that a scope names. -/
  | icinv (n : F7)
  /-- BCLAIM (R113): Walks and reserves a whole transfer path, taking every fault, and makes the claim HELD. -/
  | bclaim (d : F7) (a : F7) (b : F7)
  /-- BFLOW (R216): Starts a two-dimensional flow on a claim, re-walking a DORMANT claim first. -/
  | bflow (d : F7) (a : F7) (b : F7)
  /-- BSEAL (R123): Closes the group's outstanding flows and rounds into a numbered batch. -/
  | bseal (d : F7)
  /-- BWAIT (R123): Waits for batches to end and orders their writes for the group. -/
  | bwait (a : F7)
  /-- BRELEASE (R218): Waits for a claim's flows, then frees it. -/
  | brelease (a : F7)
  /-- BSTAT (R218): Reads a claim's state word. -/
  | bstat (d : F7) (a : F7)
  /-- COLL (R219): Contributes to the next collective round on a COLL claim. -/
  | coll (d : F7) (a : F7) (b : F7)
  /-- RPRIO (R220): Sets a tensor's residency priority. -/
  | rprio (a : F7) (b : F7)
  /-- RDEMOTE (R220): Queues a demotion of a tensor's unit to FAR. -/
  | rdemote (a : F7)
  /-- RPROMOTE (R220): Queues a promotion of a tensor's unit into a vault. -/
  | rpromote (a : F7) (b : F7)
  /-- RQUERY (R220): Reads where a tensor lies and its residency status. -/
  | rquery (d : F7) (a : F7)
  /-- TSET (R221): Loads a tensor identifier entry from a team-memory descriptor. -/
  | tset (a : F7) (b : F7)
  /-- TGET (R223): Reads one field of a tensor identifier entry. -/
  | tget (d : F7) (a : F7) (n : F7)
  /-- GSET (R224): Checks and writes a gang register. -/
  | gset (d : F7) (a : F7)
  /-- MMX (R227): Matrix product accumulated into the accumulator store via a gang rendezvous. -/
  | mmx (d : F7) (a : F7) (b : F7)
  /-- MMXZ (R227): Matrix product into accumulators starting from zero. -/
  | mmxz (d : F7) (a : F7) (b : F7)
  /-- ACCRD (R231): Reads accumulators rounded to FP32. -/
  | accrd (d : F7) (a : F7) (b : F7)
  /-- ACCADD (R231): Adds FP32 lane values into accumulators in RNE. -/
  | accadd (d : F7) (a : F7) (b : F7)
  /-- ACCCLR (R231): Clears accumulator rows to +0. -/
  | accclr (a : F7) (b : F7)
  /-- TSUM (R233): Walks and then rewrites a tensor's summary plane as an engine operation. -/
  | tsum (d : F7) (a : F7)
  /-- CDERIVE (R234): Derives a narrower capability with a subset of rights. -/
  | cderive (d : F7) (a : F7) (b : F7)
  /-- CMOV (R235): Copies a capability with its tag. -/
  | cmov (d : F7) (a : F7)
  /-- CBASE (R235): Reads a capability's BASE. -/
  | cbase (d : F7) (a : F7)
  /-- CLEN (R235): Reads a capability's LENGTH. -/
  | clen (d : F7) (a : F7)
  /-- CRIGHTS (R235): Reads a capability's rights bits. -/
  | crights (d : F7) (a : F7)
  /-- CKIND (R235): Reads a capability's KIND. -/
  | ckind (d : F7) (a : F7)
  /-- CVALID (R235): Tests a capability's tag. -/
  | cvalid (d : F7) (a : F7)
  /-- CCLEAR (R235): Clears a capability register to untagged zero. -/
  | cclear (d : F7)
  /-- BMODE (R99): Parks the bounds-role groups and, when all are ready, hands the tile domain to the BSQ. -/
  | bmode (a : F7) (b : F7)
  /-- BFILL (R104): Records a tile fill in bounds mode, or stores an element otherwise. -/
  | bfill (a : F7) (b : F7)
  /-- BSPLIT (R104): Ends the tile UNDECIDED in bounds mode. -/
  | bsplit
  /-- BABANDON (R104): Ends the tile ABANDONED in bounds mode. -/
  | babandon
  /-- BLO (R104): Takes the low bound of an interval. -/
  | blo (d : F7) (a : F7)
  /-- BHI (R104): Takes the high bound of an interval. -/
  | bhi (d : F7) (a : F7)
  /-- BHULL (R104): Forms the hull of two intervals. -/
  | bhull (d : F7) (a : F7) (b : F7)
  /-- BWIDEN (R104): Widens an interval by a scalar amount. -/
  | bwiden (d : F7) (a : F7) (b : F7)
  /-- TLD (R104): Loads a decoded tensor element, or a summary interval in bounds mode. -/
  | tld (d : F7) (a : F7) (b : F7)
  /-- TST (R104): Stores a converted tensor element. -/
  | tst (d : F7) (a : F7) (b : F7)
  /-- MARK (R237): Advances a partition progress counter. -/
  | mark (n : F7)
  /-- RTI (R239): Ends the handler activation and parks its lanes. -/
  | rti
  /-- HCALL (R239): Sends a request to H and parks for the reply. -/
  | hcall (n : F7)
  /-- MFSR (R240): Reads a system register. -/
  | mfsr (d : F7) (n : F7)
  /-- MTSR (R240): Writes a system register. -/
  | mtsr (n : F7) (b : F7)
  /-- OTINV (R241): Revokes covering claims, waits for their flows, and makes object pages absent. -/
  | otinv (a : F7) (b : F7)
  /-- OTSWAP (R242): Migrates object pages to a new extent, copying their bytes and tags. -/
  | otswap (a : F7) (b : F7)
  /-- KEYREV (R243): Revokes a key slot, its claims and its cached lines. -/
  | keyrev (a : F7)
  /-- CTXSTOP (R244): Pre-empts a partition's context through its collector. -/
  | ctxstop (a : F7)
  /-- CTXRESUME (R244): Resumes a stopped or halted context, or switches to a named context block. -/
  | ctxresume (a : F7)
  /-- CTXKILL (R244): Discards a partition's context. -/
  | ctxkill (a : F7)
  /-- FRPUSH (R245): Adds a save frame to a partition's free list. -/
  | frpush (a : F7)
  /-- HALT (R245): Stops the executing group until a partition reset. -/
  | halt
  /-- VARIABLE_LATENCY_RESULT (R141): A variable-latency result, load value or deferred word's effect returns and the scoreboard clears its destination. -/
  | variableLatencyResult (group : Nat) (entry : Nat)
  /-- OPERAND_LOG_REPLAY (R38): A group retries its operand-log head after RESOLVE or a table operation, performing entries in order. -/
  | operandLogReplay (group : Nat)
  /-- ORPHANED_SET (R57): The device detects a group whose lanes can no longer be released and raises the hard fault. -/
  | orphanedSet (group : Nat)
  /-- FLOW_END (R122): An accepted flow ends and its token is written, letting waiting operations proceed. -/
  | flowEnd (op : Nat)
  /-- TSUM_END (R233): A tsum operation ends and writes its token. -/
  | tsumEnd (op : Nat)
  /-- RENDEZVOUS (R228): The cluster latch completes a gang rendezvous and enqueues the operation on every member core. -/
  | rendezvous (cluster : Nat) (gang : W64)
  /-- MATRIX_OPERATION_END (R230): A matrix-array operation finishes its accumulators and writes the member's token. -/
  | matrixOperationEnd (op : Nat)
  /-- GANG_ORPHANED (R229): The launch watchdog expires for a member waiting at the latch. -/
  | gangOrphaned (group : Nat)
  /-- BARRIER_TIMEOUT (R211): A barrier phase has not completed W aclk after its first arrival. -/
  | barrierTimeout (bar : BarRef)
  /-- WATCHDOG (R211): A lane has stayed parked in send or recv for W aclk. -/
  | watchdog (group : Nat)
  /-- TMWAIT_EXPIRY (R213): The timebase reaches a tmwait deadline and the parked lanes are released. -/
  | tmwaitExpiry (group : Nat)
  /-- SVC_REPLY (R125): The supervisor's reply to a service request writes each lane's vd and releases the lanes. -/
  | svcReply (group : Nat) (vals : List W32)
  /-- HCALL_REPLY (R239): H's reply writes s62 and s63 and releases the lanes. -/
  | hcallReply (group : Nat) (s62 s63 : W64)
  /-- BOUNDS_EVALUATION (R106): The BSQ evaluates the next tiles of one depth on intervals and records their outcomes. -/
  | boundsEvaluation (group : Nat)
  /-- TILE_ISSUE_LIMIT (R106): A bounds-mode lane still running after 4,096 group issues becomes ABANDONED. -/
  | tileIssueLimit (group : Nat)
  /-- SETTLED_DISPATCH (R108): A block of a SETTLED tile runs with branches following the path record. -/
  | settledDispatch (group : Nat)
  /-- ELEMENT_DISPATCH (R108): A block of an ABANDONED or LIMIT tile runs element by element. -/
  | elementDispatch (group : Nat)
  /-- FILL (R109): A recorded fill of a RETIRED tile is performed as a store, waiting on absent pages. -/
  | fill (group : Nat)
  /-- ROUND_START (R127): A collective round starts at its start tick. -/
  | roundStart (round : Nat)
  /-- ROUND_DONE (R127): The root decides a round DONE; destinations and tokens are written. -/
  | roundDone (round : Nat) (remote : List (Nat × List W32))
  /-- TIMEOUT (R128): A round's TIMEOUT passes without a contribution and the round ends WITHDRAWN. -/
  | timeout (round : Nat)
  /-- RESIDENCY_MOVE (R76): The residency manager performs a queued promotion or demotion as a migration. -/
  | residencyMove (part : Nat) (extents : List Nat)
  /-- SOFTFAULT (R271): A SOFTFAULT record is posted to the service queue once there is room. -/
  | softfault (part : Nat)
  /-- HOTNESS (R277): A saturated hotness counter posts its HOTNESS record once there is room. -/
  | hotness (part : Nat)
  /-- RESOLVE (R272): A store to RESOLVE starts retries of every deferred group of the partition. -/
  | resolve (part : Nat)
  /-- HOTCLR (R277): A store of a TOKEN to HOTCLR clears a matching hotness counter. -/
  | hotclr (part : Nat) (token : W32)
  /-- LAUNCH (R282): User packet that checks, places and starts a launch. -/
  | launch (part stream : Nat)
  /-- TLAUNCH (R282): User packet that launches once the timebase reaches a value. -/
  | tlaunch (part stream : Nat)
  /-- TLAUNCH_TICK (R282): The timebase reaches a TLAUNCH value and placement may begin. -/
  | tlaunchTick (part stream : Nat)
  /-- PLACEMENT (R290): The SFE places a ready launch whole once resources allow. -/
  | placement (part : Nat) (cores : List Nat)
  /-- LAUNCH_RETIREMENT (R43): A launch retires after its teams, flows and atomics end, publishing at PACKAGE and completing its packet. -/
  | launchRetirement (launch : Nat)
  /-- SEMWAIT (R282): User packet that repeats a semaphore load until the value is reached. -/
  | semwait (part stream : Nat)
  /-- SEMWAIT_LOAD (R282): A repeated semaphore load of a current SEMWAIT. -/
  | semwaitLoad (part stream : Nat)
  /-- SEMSIGNAL (R282): User packet that stores or atomically adds to a semaphore. -/
  | semsignal (part stream : Nat)
  /-- FLUSH (R282): User packet that waits for earlier host and remote traffic and publishes at SYSTEM. -/
  | flush (part stream : Nat)
  /-- CAPWRITE (R282): User packet that checks a capability and stores it tagged. -/
  | capwrite (part stream : Nat)
  /-- CTXSTOP_PACKET (R251): Management packet mirroring ctxstop. -/
  | ctxstopPacket
  /-- CTXRESUME_PACKET (R251): Management packet mirroring ctxresume. -/
  | ctxresumePacket
  /-- CTXKILL_PACKET (R251): Management packet mirroring ctxkill. -/
  | ctxkillPacket
  /-- OTINV_PACKET (R251): Management packet mirroring otinv. -/
  | otinvPacket
  /-- OTSWAP_PACKET (R251): Management packet mirroring otswap. -/
  | otswapPacket
  /-- KEYREV_PACKET (R251): Management packet mirroring keyrev. -/
  | keyrevPacket
  /-- FRAMES (R283): Management packet adding a list of save frames in order. -/
  | frames
  /-- CREATE (R284): PARTCFG operation creating a partition of aligned units. -/
  | create
  /-- DESTROY (R284): PARTCFG operation destroying a partition, resetting it. -/
  | destroy
  /-- KEYLOAD (R284): PARTCFG operation loading a key slot and raising its generation. -/
  | keyload
  /-- KEYFREE (R284): PARTCFG operation unassigning a key slot. -/
  | keyfree
  /-- DOORBELL (R279): A store to a stream's TAIL makes new packets available to its SFE. -/
  | doorbell (stream : StreamRef) (tail : W64)
  /-- ENABLE_SET (R278): Setting ENABLE resumes packet execution at HEAD. -/
  | enableSet (stream : StreamRef)
  /-- ENABLE_CLEAR (R278): Clearing ENABLE stops the SFE from starting further packets. -/
  | enableClear (stream : StreamRef)
  /-- ERROR_CLEAR (R279): Writing 1 to ERROR lets a stopped SFE execute again. -/
  | errorClear (stream : StreamRef)
  /-- REGISTER_WRITE (R257): A write to a register with no behaviour of its own. -/
  | registerWrite (win : WindowRef) (offset : W16) (size : AccessSize) (value : W64)
  /-- ENGINE_STOP (R293): An engine stops at its unit, saves into frames and acknowledges the collector; the last ends the stop or halt. -/
  | engineStop (part engine : Nat) (kind : EngineKind)
  /-- ACTIVATION (R307): A delivered fault event starts a handler activation with its records written. -/
  | activation (part : Nat)
  /-- SNAPSHOT_ROLLBACK (R310): The device discards a failed SNAPSHOT launch, restores its pages and places it again. -/
  | snapshotRollback (launch : Nat)
  /-- HOST_ACCESS (R320): A host CXL.mem read or write to the VF's HDM range, or an AtomicOp there (R319); of partition 16, H's access through the PF (R260). -/
  | hostAccess (part : Nat) (op : OutsideOp) (addr : BitVec 52) (width : AccessSize) (data : W64)
  /-- HOST_SNOOP (R320): A host snoop recalls a host line held on the device. -/
  | hostSnoop (addr : BitVec 52) (write : Bool) (data : W64)
  /-- PEER_ACCESS (R324): A coherent access from a peer device of the coherence domain. -/
  | peerAccess (dev : W16) (part : Nat) (op : OutsideOp) (addr : BitVec 52) (data : OutsideData)
  /-- WINDOW_REQUEST (R326): A remote-window request arrives at the owner and is checked against the entry. -/
  | windowRequest (part : Nat) (index : W16) (gen : W32) (dev : W16) (offset : BitVec 40) (op : WindowOp) (width : AccessSize) (data : WindowData)
  /-- ATOMICOP_COMPLETION (R332): A host AtomicOp completes with success, UR or CA and updates the connection record. -/
  | atomicopCompletion (group : Nat) (ok : Bool)
  /-- SERVICE_REPLY (R333): The host agent's Pewter reply to a SERVICE-mode atomic writes old values. -/
  | serviceReply (group : Nat)
  /-- HOST_WRITE_REJECTED (R197): The host rejects a posted HOSTIO write and a machine-check record is written. -/
  | hostWriteRejected (part : Nat)
  /-- TDI_LEAVES_RUN (R321): The TDI leaves RUN, ending the secure state and severing host claims. -/
  | tdiLeavesRun (part : Nat) (error : Bool)
  /-- SPDM_SESSION_END (R321): The SPDM session ends, ending the secure state. -/
  | spdmSessionEnd (part : Nat)
  /-- HEARTBEAT_TIMEOUT (R321): No heartbeat arrives within the negotiated period. -/
  | heartbeatTimeout (part : Nat)
  /-- FLR (R322): A function-level reset of a VF resets its partition; of partition 16, that of the PF (R319). -/
  | flr (part : Nat)
  /-- PORT_TRAINING (R323): An Otvex port trains, authenticates, derives keys and negotiates versions. -/
  | portTraining (port : Nat) (dev : W16) (versions : W64) (auth : Bool)
  /-- FLIT (R323): An Otvex flit is received, checked and accepted or retransmission requested. -/
  | flit (port : Nat) (good : Bool)
  /-- LINK_LOSS (R328): No trained port reaches a partner; claims are severed and accesses fail. -/
  | linkLoss (part : Nat) (dev : W16)
  /-- TIMEBASE_FLIT (R330): A timebase flit is received and the count is steered toward the root. -/
  | timebaseFlit (port : Nat) (root : W16) (hops : Nat) (estimate : W64) (locked : Bool)
  /-- TIMEBASE_UNLOCKED (R330): No timebase flit for 1 ms clears TBLOCK and writes a machine-check record. -/
  | timebaseUnlocked
  /-- WINCTL (R327): A store of an index to WINCTL starts revocation of a window entry: this device's own, or a peer device's, whose window it is. -/
  | winctl (part : Nat) (index : W16) (owner : Option W16)
  /-- WINDOW_REVOCATION_DONE (R327): After covering flows end, the entry's GEN rises, OPEN clears and STATUS becomes DONE. -/
  | windowRevocationDone (part : Nat)
  /-- RELEASE (R336): DBGCMD operation returning named BRK lanes to RUN. -/
  | release (part : Nat) (team : W32) (group : W16) (lanes : W64)
  /-- STEP (R336): DBGCMD operation letting named BRK lanes issue one word each. -/
  | step (part : Nat) (team : W32) (group : W16) (lanes : W64)
  /-- SAMPCTL (R342): A write to SAMPCTL turns sampling on or off, seeding the LFSR. -/
  | sampctl (part : Nat) (value : W64)
  /-- SAMPLE (R342): A sampling interval expires and BLAME, ISSUED or STALLED records are written. -/
  | sample (part : Nat)
  /-- POWER_ON (R343): Power-on or cold reset runs the bring-up sequence. -/
  | powerOn (failed : Option (Fin 7 × W8))
  /-- TARGET_Q0 (R347): A PWRCTL TARGET write requesting Q0. -/
  | targetQ0
  /-- TARGET_Q1 (R347): A PWRCTL TARGET write requesting Q1. -/
  | targetQ1
  /-- TARGET_Q2 (R347): A PWRCTL TARGET write requesting Q2. -/
  | targetQ2
  /-- TARGET_Q3 (R347): A PWRCTL TARGET write requesting Q3. -/
  | targetQ3
  /-- TARGET_Q4 (R347): A PWRCTL TARGET write requesting Q4. -/
  | targetQ4
  /-- POWER_STATE_CHANGE_DONE (R347): CURRENT reaches TARGET and STATUS returns to IDLE. -/
  | powerStateChangeDone
  /-- THERMAL_TRIP (R348): TEMP reaches 105 degrees C and the device forces Q2. -/
  | thermalTrip (temp : W8)
  /-- THERMTRIP_CLEAR (R348): Writing 1 to THERMTRIP clears it when TEMP is at most 95 degrees C. -/
  | thermtripClear (temp : W8)
  /-- TDISP_REQUEST (R321): A host TDISP request moves a partition's TDI between CONFIG_UNLOCKED, CONFIG_LOCKED and RUN. -/
  | tdispRequest (part : Nat) (state : Tdi)
  /-- SPDM_REQUEST (R321): An SPDM request from the host establishes a secure session or delivers a heartbeat. -/
  | spdmRequest (part : Nat) (establish : Bool)
  /-- HOST_LINK_RETRAINING (R332): The host PCIe/CXL link retrains, resetting every AtomicOp record of its connections to UNKNOWN. -/
  | hostLinkRetraining
  /-- PORT_DOWN (R328): One Otvex port loses its link while other ports may still reach the partner, severing claims that reserved that port. -/
  | portDown (port : Nat)
  /-- SCRUB (R312): A device scrub finds a latent uncorrectable or correctable GDDR7 error, pinning the sector and writing a machine-check record. -/
  | scrub (place : MemPlace) (uncorrectable : Bool)
  /-- POWER_REMOVAL (R346): The board removes power, whether after PWRDN_ACK in Q4 or otherwise, so that all state except the repair store is lost. -/
  | powerRemoval
  deriving DecidableEq, Repr

end Sys2Proof
end

