-- ==== Sys2Proof/Machine/State.lean ====
section
/-! DEFINITION. The state of the machine as plain data: everything the spec gives the QX960, and the model's own fields (marked MODEL), with
the reset state. Reset values are those of the tables of spec/; a value the model names instead is in log entry 5. -/

namespace Sys2Proof.Machine

/-- Memory: (address, byte) pairs by rising address; an unlisted address reads 0 (log entry 6). -/
abbrev Memory := List Host.Cell

/-- The canonical form: addresses strictly rising, and no entry equal to what an unlisted address reads as, 0. -/
abbrev Memory.wf (m : Memory) : Bool := Tab.wf 0 m

/-- A capability: 128 bits and the hidden tag (R60). -/
structure Cap where
  bits : W128
  tag  : Bool
  deriving DecidableEq, Repr

/-- The untagged capability of zero bits. -/
def Cap.null : Cap := ⟨0, false⟩

/-- Where a byte lies: device memory or host memory by machine address, a peer's memory, or a team's own stores (R59, R67, R68). -/
inductive Loc where
  | dev  (addr : Nat)
  | host (addr : Nat)
  | peer (dev index offset : Nat)
  | team (team offset : Nat)
  | wbuf (team offset : Nat)
  deriving DecidableEq, Repr

/-- The tags of an interval register (R101). -/
inductive ITag where
  | s | z | f
  deriving DecidableEq, Repr

/-- The hi shadow, the hidden tag and the maybe-NaN flag of one lane of a vector register in bounds mode (R101). -/
structure Shadow where
  hi  : W32
  tag : ITag
  nan : Bool
  deriving DecidableEq, Repr

/-- The states of a lane record (R305). -/
inductive LaneState where
  | run | waitSet | waitBar | exit | defer | brk | park | waitLvl
  deriving DecidableEq, Repr

/-- What a lane in PARK waits for (R57, R305). -/
inductive Park where
  | no
  | tmwait (deadline : W64)
  | svc (vd : Nat) (n : Nat) (args : List W32)
  | hcall (n : Nat) (args : List W64)
  | bmode
  | gang
  | send (q : Nat)
  | recv (q : Nat)
  | service
  | rti
  deriving DecidableEq, Repr

/-- A fill recorded for a tile (R104): tensor, outer indices, the converted code. -/
structure FillRec where
  tid  : Nat
  i2   : Nat
  i3   : Nat
  code : W32
  deriving DecidableEq, Repr

/-- How a bounds-mode lane's tile has ended (R106): `quarter` is an UNDECIDED end, before R107 decides between UNDECIDED and LIMIT. -/
inductive TileEnd where
  | retired | settled | quarter | abandoned
  deriving DecidableEq, Repr

/-- What a dispatch lane stands for (R100): a tile in bounds mode, an element in settled and element mode, with its path record (R105). -/
structure TileLane where
  tile   : Nat
  row    : Nat
  col    : Nat
  h      : Nat
  w      : Nat
  depth  : Nat
  path   : W64
  ndec   : Nat
  nbr    : Nat
  fills  : List FillRec
  work   : Bool
  ended  : Option TileEnd
  deriving DecidableEq, Repr

/-- One lane (R31, R46, R53, R305). The frontier of a group is its lanes in RUN, grouped by PC; every lane of an entry holds the entry's
priority and age (R31, R32). -/
structure Lane where
  state    : LaneState
  pc       : Pc
  prio     : Nat
  age      : Nat
  id       : Nat
  depth    : Nat
  stack    : List Pc
  park     : Park
  since    : Nat
  stepping : Bool
  stepped  : Bool
  tile     : Option TileLane
  deriving DecidableEq, Repr

/-- The register files of a group (R26, R27, R145): vector registers by 64 * allocated register + lane; scalar, capability and gang
registers by number; the window base as the allocated register that `v0` names. -/
structure Regs where
  v  : Tab W32
  s  : Tab W64
  c  : Tab Cap
  g  : Tab W64
  wb : Nat
  deriving DecidableEq, Repr

/-- A rejoin set: MEMBER and WAITING (R46). -/
structure JSet where
  member  : W64
  waiting : W64
  deriving DecidableEq, Repr

/-- The name of a register as the scoreboard and R142 compare it. -/
inductive RegName where
  | v (alloc : Nat)
  | s (n : Nat)
  | c (n : Nat)
  | g (n : Nat)
  deriving DecidableEq, Repr

/-- What ends a scoreboard entry (R140): a result's return, an engine operation's token, the operand log, a reply. -/
inductive PendWhy where
  | result
  | op (uid : Nat)
  | log
  | reply
  deriving DecidableEq, Repr

/-- A scoreboard entry: the register waits, for the word at `pc`. -/
structure Pend where
  reg : RegName
  why : PendWhy
  pc  : Pc
  deriving DecidableEq, Repr

/-- A fixed-latency destination still open, with the aclk left (R142). -/
structure Recent where
  reg  : RegName
  left : Nat
  deriving DecidableEq, Repr

/-- An operand-log entry (R37): the word, its PC and lanes, the registers as they stood when it issued, and the registers that it writes too early by R142,
undefined after it. -/
structure LogEntry where
  word : Instr
  pc   : Pc
  mask : W64
  regs : Regs
  rm   : Nat
  late : List RegName
  deriving DecidableEq, Repr

/-- A fault as its records describe it (R303, R304). -/
structure FaultRec where
  cause  : W8
  fmask  : W64
  lane   : Nat
  obj    : W32
  off    : Nat
  extra  : W64
  time   : W64
  engine : Nat
  team   : W32
  group  : W16
  wait   : Bool
  deriving DecidableEq, Repr

/-- An atomic through a HOSTIO capability that waits for the host (R204, R332, R333): its word, PC, lanes and registers, the AtomicOp pair,
whether it has gone over Pewter, whether its request is a lone one, the lanes refused, and the place of each access by its lane. -/
structure HostReq where
  word    : Instr
  pc      : Pc
  mask    : W64
  regs    : Regs
  rm      : Nat
  replay  : Bool
  pair    : Option Nat
  service : Bool
  lone    : Bool
  refused : W64
  slot    : Nat
  accs    : List (Nat × Loc)
  deriving DecidableEq, Repr

/-- A dispatch of the bounds pass that a group runs (R100): 1 bounds evaluation, 2 settled, 3 element; what it must restore. Operations numbered
below `mark` were issued before it. -/
structure Dispatch where
  mode   : Nat
  tile   : Nat
  block  : Nat
  issues : Nat
  mark   : Nat
  regs   : Regs
  js     : Tab JSet
  rm     : Nat
  lanes  : List Lane
  deriving DecidableEq, Repr

/-- The privilege levels (R249). -/
inductive Level where
  | u | s | h
  deriving DecidableEq, Repr

/-- An octet that a group has fetched (R275, R77): its code object, its offset, its 32 bytes, and whether the entries that it was fetched under let it execute. -/
structure Octet where
  obj   : Nat
  addr  : Nat
  bytes : List Byte
  exec  : Bool
  deriving DecidableEq, Repr

/-- A group (R20 to R41). `last` is when it last issued, `issued` that word's PC and lowest lane; `octets` are the octets that it holds, the latest first, at
most two, `fetchHeld` says that a fetch has met an absent or migrating page (R275); `fetched` (MODEL) are the words of its frontier that stand in those octets, kept
while its partition samples (R342); `arrayFault` says that its fault is one of an operation on its core's matrix array (R302). -/
structure Group where
  part     : Nat
  launch   : Nat
  team     : Nat
  gid      : Nat
  level    : Level
  width    : Nat
  role     : Nat
  budget   : Nat
  core     : Nat
  slot     : Nat
  octet    : Nat
  born     : Nat
  last     : Option Nat
  issued   : Pc × Nat
  octets   : List Octet
  fetchHeld : Bool
  fetched  : List (Pc × Instr)
  regs     : Regs
  shadow   : Tab Shadow
  js       : Tab JSet
  rm       : Nat
  lanes    : List Lane
  stall    : Nat
  recent   : List Recent
  pend     : List Pend
  log      : List LogEntry
  retry    : Bool
  softOn   : Option (Nat × Nat)
  memHold  : Option Pc
  yielded  : Option Pc
  batch    : Nat
  waited   : Nat
  openOps  : List Nat
  sealed   : List (Nat × List Nat)
  tokens   : List (Nat × Nat)
  tsumRead : List Nat
  cycles   : Nat
  fault    : Option FaultRec
  arrayFault : Bool
  halted   : Bool
  bmode    : Option (W64 × W64)
  dispatch : Option Dispatch
  host     : Option HostReq
  atomDone : W64
  deriving DecidableEq, Repr

/-- What a translation gives (R266, R267): the place, the key slot, the placement, EXEC, X, PIN, HOSTCOH, and the owner of a peer object. -/
structure Trans where
  loc     : Loc
  slot    : Nat
  place   : Nat
  exec    : Bool
  xbit    : Bool
  pin     : Bool
  hostcoh : Bool
  peer    : Option Nat
  deriving DecidableEq, Repr

/-- Part of a claimed window (R113): its first object offset, its length, and the translation of its first byte. -/
structure Span where
  off : Nat
  len : Nat
  tr  : Trans
  deriving DecidableEq, Repr

/-- A claim register (R115, R116), with its recorded capabilities and translations (`cmap` those of a COLL object itself), the ports it crosses and those at which it
has node-buffer shares (R114), whether it crosses the host interface (R112), the remote windows it uses (R325), and for route COLL the header that it walked (R126). -/
structure Claim where
  state : Nat
  cause : Nat
  route : Nat
  src   : Cap
  dst   : Cap
  smap  : List Span
  dmap  : List Span
  cmap  : List Span
  host  : Bool
  ports : List Nat
  nodes : List Nat
  wins  : List (Nat × Nat)
  header : BitVec 512
  deriving DecidableEq, Repr

/-- The FREE claim. -/
def Claim.free : Claim := ⟨0, 0, 0, Cap.null, Cap.null, [], [], [], false, [], [], [], 0⟩

/-- A barrier: phase, arrived groups in order of arrival, and when each of them arrived, by its team's watch (R209 to R211). -/
structure Barrier where
  phase   : Bool
  arrived : List Nat
  times   : List Nat
  deriving DecidableEq, Repr

/-- When the first group of the phase arrived. -/
def Barrier.first (b : Barrier) : Nat := b.times.headD 0

/-- The barrier at phase 0 with no arrivals (R27). -/
def Barrier.zero : Barrier := ⟨false, [], []⟩

/-- A tile of the queue of a pass (R106, R107, R111): outcome 0 while undecided, else the code of R111. -/
structure Tile where
  row     : Nat
  col     : Nat
  h       : Nat
  w       : Nat
  depth   : Nat
  outcome : Nat
  path    : W64
  ndec    : Nat
  fills   : List FillRec
  done    : Nat
  deriving DecidableEq, Repr

/-- A bounds pass of a team (R99, R106): entry, origins, the queue, the tiles under evaluation by lane, the groups ready. -/
structure Pass where
  entry  : Pc
  rowOrg : W32
  colOrg : W32
  queue  : List Tile
  next   : Nat
  batch  : List Nat
  groups : List Nat
  written : Nat
  deriving DecidableEq, Repr

/-- A byte in the commit buffer of a held-effects team (R44): its place, the key slot its object names, the byte, the tag that its granule takes. -/
structure Held where
  loc  : Loc
  slot : Nat
  byte : Byte
  tag  : Bool
  deriving DecidableEq, Repr

/-- A team (R20, R27, R42, R67 to R69). `held` is its commit buffer (R44); `accBad` are its accumulators of undefined value (R232). -/
structure Team where
  part    : Nat
  launch  : Nat
  tid     : Nat
  level   : Level
  core    : Nat
  tmBytes : Nat
  wbBytes : Nat
  accRows : Nat
  tmem    : Memory
  ttags   : Tab Bool
  wbuf    : Memory
  acc     : Tab W96
  accBad  : Tab Bool
  claims  : Tab Claim
  bars    : Tab Barrier
  pass    : Option Pass
  held    : List Held
  retired : Bool
  stopped : Bool
  tookRecv : Bool
  failed  : Nat
  watch   : Nat
  deriving DecidableEq, Repr

/-- Lanes parked on a channel, in the order in which they parked: group, lanes, the register that a `recv` writes (allocated number), the
register that a `send` brings. -/
structure ChanWait where
  group : Nat
  mask  : W64
  vd    : Nat
  reg   : List W32
  deriving DecidableEq, Repr

/-- A channel of a launch (R124): teams, slot count, full slots oldest first, parked senders and receivers. -/
structure Chan where
  src     : Nat
  dst     : Nat
  slots   : Nat
  fifo    : List (List W32)
  senders : List ChanWait
  takers  : List ChanWait
  deriving DecidableEq, Repr

/-- The copy of a page of a SNAP object that a running SNAPSHOT launch has taken (R309): its machine address (of host memory, if `host`) and size, its object's key
slot, the bytes and tags that the slot could read before the first write, the sectors then marked uncorrectable, and the save frames of the copy. -/
structure SnapPage where
  base   : Nat
  size   : Nat
  host   : Bool
  slot   : Nat
  cells  : Memory
  tags   : Tab Bool
  marks  : List Nat
  frames : List Nat
  deriving DecidableEq, Repr

/-- A launch that has been placed (R28, R43, R286): the context that it belongs to, its record and run state. `replays` counts the times it has
been replayed after a failure (R310); `age` orders packets (R290). -/
structure Launch where
  part     : Nat
  ctx      : Nat
  stream   : Nat
  ring     : W64
  tag      : W16
  record   : BitVec 2304
  complete : Bool
  type     : W8
  lvlBars  : Tab Barrier
  chans    : Tab Chan
  snaps    : List SnapPage
  replays  : Nat
  age      : Nat
  failing  : W8
  deriving DecidableEq, Repr

/-- A launch that a front end has checked and not yet placed (R290). -/
structure Ready where
  stream : Nat
  ring   : W64
  tag    : W16
  record : BitVec 2304
  complete : Bool
  type   : W8
  tick   : W64
  replays : Nat
  age    : Nat
  deriving DecidableEq, Repr

/-- A tensor identifier table entry (R71, R221): the descriptor and the tags of DATA, SCALES and SUMMARY. -/
structure TEntry where
  desc : BitVec 1024
  dtag : Bool
  stag : Bool
  utag : Bool
  deriving DecidableEq, Repr

/-- A stream descriptor (R278). `step` is the position inside the current packet (0 none, 1 a launch waiting or running, 2 a TLAUNCH before its
tick, 3 a SEMWAIT); `due` are completion records that wait for room in the completion ring (R279), by their quadwords 0 and 1; `past` are the teams of its
launches that have retired since its last FLUSH (R282). -/
structure Stream where
  ringBase : BitVec 52
  ringLog2 : BitVec 7
  prio     : BitVec 3
  enable   : Bool
  error    : Bool
  reason   : W8
  busy     : Bool
  tail     : W64
  head     : W64
  compBase : BitVec 52
  compLog2 : BitVec 5
  compProd : W64
  compCons : W64
  step     : Nat
  due      : List (W64 × W64)
  past     : List Nat
  deriving DecidableEq, Repr

/-- The stream descriptor at reset: every field 0 (R278). -/
def Stream.zero : Stream := ⟨0, 0, 0, false, false, 0, false, 0, 0, 0, 0, 0, 0, 0, [], []⟩

/-- The fields of the translation block that the walk uses (R264). -/
structure Translation where
  otBase    : Nat
  otCount   : Nat
  s2Base    : Nat
  s2Count   : Nat
  sqBase    : Nat
  sqSize    : Nat
  hotThresh : Nat
  deriving DecidableEq, Repr

/-- The context states (R292). -/
inductive CtxState where
  | empty | running | stopping | stopped | halted
  deriving DecidableEq, Repr

/-- A context (R259, R292, R240, R340), by the machine address of its block. `chain` are its save frames in order, each with its KIND (R294):
SAVEROOT is the first of them and NFRAMES their number. `part` is the partition in which it last ran. -/
structure Context where
  part     : Nat
  state    : CtxState
  cause    : W8
  halting  : Bool
  tb       : Translation
  stallchk : W64
  atommode : W64
  stopmode : W64
  cxlo     : W64
  cxhi     : W64
  cxdly    : W64
  pmsel    : Tab W64
  pmc      : Tab W64
  prog     : Tab W64
  streams  : Tab Stream
  tids     : Tab TEntry
  chain    : List (Nat × Nat)
  acks     : List (Nat × EngineKind)
  first    : Option FaultRec
  ready    : List Ready
  deriving DecidableEq, Repr

/-- A record the service queue is to receive (R270): the quadwords 0 to 2. -/
structure SvcRec where
  q0 : W64
  q1 : W64
  q2 : W64
  deriving DecidableEq, Repr

/-- A move that the residency manager is to make (R76, R220): the tensor, the vault it goes to (none: FAR), whether it is under way, whether it is the manager's own
and no program's request, and the units that could not be demoted to make room for it. -/
structure Residency where
  tid     : Nat
  vault   : Option Nat
  started : Bool
  own     : Bool
  tried   : List Nat
  deriving DecidableEq, Repr

/-- A hotness counter (R276, R277). -/
structure HotCtr where
  block : Nat
  req   : W32
  count : Nat
  gen   : Nat
  sat   : Bool
  stamp : Nat
  deriving DecidableEq, Repr

/-- A fault event on its way to a handler (R307): the code, and the bytes that its activation writes. -/
structure Event where
  code  : W8
  bytes : List Byte
  deriving DecidableEq, Repr

/-- No tables. -/
def Translation.zero : Translation := ⟨0, 0, 0, 0, 0, 0, 0⟩

/-- A partition (R253, R257): configuration, VF registers, free frames, security state. `tb`: the translation block of the context that it runs, or ran last (R253,
R264). `cut`: the secure state has ended, and the host's requests complete with UR (R321). `starved` (MODEL): the notice of R295 has been posted since a frame was last added. -/
structure Part where
  units    : Nat
  hpart    : Bool
  ports    : List Nat
  bwshare  : W16
  shared   : Bool
  frames   : List Nat
  ctx      : Option Nat
  tb       : Translation
  events   : List Event
  wintab   : W64
  winStat  : Nat
  winIdx   : Nat
  dbgStat  : Nat
  dbgLanes : W64
  trBase   : BitVec 52
  trLog2   : BitVec 5
  trLost   : W32
  trProd   : W64
  trCons   : W64
  sampctl  : W64
  lfsr     : W16
  sampNext : Nat
  pktver   : W16
  lrver    : W16
  tdi      : Tdi
  spdm     : Bool
  cut      : Bool
  atomrec  : Tab Nat
  softOut  : List (Nat × Nat)
  softQ    : List SvcRec
  hotQ     : List SvcRec
  resid    : List Residency
  declined : List Nat
  promoted : List Nat
  hot      : Tab HotCtr
  resetting : Bool
  starved  : Bool
  deriving DecidableEq, Repr

/-- A key slot (R261): its partition, generation, whether it is revoked, its 512-bit key. -/
structure KeySlot where
  part    : Option Nat
  gen     : Nat
  revoked : Bool
  key     : BitVec 512
  deriving DecidableEq, Repr

/-- What the ECC metadata records of a 32-byte sector (R261, R197, R312): slot and generation of its last write (none: the device key), the
uncorrectable mark, the correctable errors of the cells that hold it since cold reset, and those of the L2 slice that homes it (R313). -/
structure Sector where
  slot : Option (Nat × Nat)
  unc  : Bool
  errs : Nat
  l2Errs : Nat
  deriving DecidableEq, Repr

/-- A sector that nothing has marked. -/
def Sector.clean : Sector := ⟨none, false, 0, 0⟩

/-- The COUNT of a machine-check record that names the sector (R313). -/
def Sector.count (x : Sector) : W64 := BitVec.ofNat 64 (min (x.errs + x.l2Errs) 0xFFFF)

/-- An Otvex Link port (R323, R328, R330). -/
structure Port where
  up    : Bool
  dev   : W16
  ver   : Nat
  fails : Nat
  deriving DecidableEq, Repr

/-- An operation accepted by a copy engine (R121, R233): a flow of a claim, or a `tsum` of a tensor entry. `srcs` are the places of its
source bytes, `snap` what they held when it was accepted, `seen` the writes to them since, by index (R132); `dsts` the places of its destination
bytes with their key slots. -/
structure CopyOp where
  core   : Nat
  part   : Nat
  launch : Nat
  team   : Nat
  group  : Nat
  sd     : Nat
  claim  : Option Nat
  srcs   : List Loc
  snap   : List Byte
  seen   : List (Nat × Byte)
  dsts   : List (Loc × Nat)
  entry  : Option TEntry
  deriving DecidableEq, Repr

/-- The bytes of a window that an engine reads: their places, what they held at acceptance, the writes to them since, by index (R132). -/
structure ReadSet where
  locs : List Loc
  snap : List Byte
  seen : List (Nat × Byte)
  deriving DecidableEq, Repr

/-- A matrix operation (R226 to R230), queued on a core for one member: its specification, the entries of A and B with the windows of their
data and scales, the operation of its row band's first member, from which A is broadcast, and the accumulators that another group's accumulator instruction has
met (R232). -/
structure MatOp where
  core   : Nat
  part   : Nat
  launch : Nat
  group  : Nat
  team   : Nat
  zero   : Bool
  spec   : List W64
  aEnt   : TEntry
  bEnt   : TEntry
  aData  : ReadSet
  aScale : ReadSet
  bData  : ReadSet
  bScale : ReadSet
  band   : Nat
  sd     : Nat
  mask   : W64
  pc     : Pc
  spoil  : List Nat
  deriving DecidableEq, Repr

/-- A member waiting at the rendezvous latch (R228), with the entries of A and B that it read, and what its engine reads since it issued (R132): B, and of the first
member of a row band A. -/
structure Waiter where
  cluster : Nat
  gang    : W64
  group   : Nat
  zero    : Bool
  spec    : List W64
  aEnt    : TEntry
  bEnt    : TEntry
  aData   : ReadSet
  aScale  : ReadSet
  bData   : ReadSet
  bScale  : ReadSet
  sd      : Nat
  mask    : W64
  pc      : Pc
  since   : Nat
  deriving DecidableEq, Repr

/-- A collective round (R126 to R128): the header fields that name it, when it starts; `ended`: it has ended WITHDRAWN, and a late contribution to it does too. -/
structure Round where
  root    : W16
  collid  : Nat
  number  : Nat
  header  : BitVec 512
  start   : W64
  begun   : Bool
  ended   : Bool
  deriving DecidableEq, Repr

/-- A collective contribution made here: its round, the token's register, its index, its source bytes as a flow holds them, its destination, whether it has left
its port (R128). -/
structure Contrib where
  op    : Nat
  round : Nat
  part  : Nat
  launch : Nat
  core  : Nat
  group : Nat
  team  : Nat
  claim : Nat
  sd    : Nat
  index : Nat
  srcs  : List Loc
  snap  : List Byte
  seen  : List (Nat × Byte)
  dsts  : List (Loc × Nat)
  sent  : Bool
  deriving DecidableEq, Repr

/-- An engine write that stands outside T for some observer (R133): its place, the byte it holds (while its operation runs, the bytes that it may
come to hold), who issued it, whether it has been made. `pubs` are its publications, each with its level (scope + 1; 0 for what `bwait` orders) and its place in T;
`conn`: the write travels on a connection, and `shown` is the place in T from which it stands at its target (R136); `met` and
`last` are the places in T of the first and the latest ordinary write to the byte since the operation issued; `dead` is the place from which the
byte is undefined for everyone until it is written again (R118, R318). -/
structure Unpub where
  loc   : Loc
  bytes : List Byte
  op    : Nat
  part  : Nat
  core  : Nat
  team  : Nat
  group : Nat
  ended : Bool
  pubs  : List (Nat × Nat)
  conn  : Bool
  shown : Option Nat
  met   : Option Nat
  last  : Nat
  dead  : Option Nat
  deriving DecidableEq, Repr

/-- A write on a connection that has not reached its target (R136): the partition, the device at the other end (none: the host), the group that
issued it with its team, core and the number of the write, whether it is a flow's (whose bytes are not known while it runs), whether its context has been killed
since (R318), and its bytes: places, key slots, values. -/
structure Posted where
  part   : Nat
  dev    : Option Nat
  group  : Nat
  team   : Nat
  core   : Nat
  op     : Nat
  engine : Bool
  stale  : Bool
  writes : List (Loc × Nat × Byte)
  deriving DecidableEq, Repr

/-- Whose a management operation is: an instruction of a group, the management packet at a position of its stream, the residency manager's move
of a tensor, or the host's own (a reset, a window revocation). -/
inductive Owner where
  | group (uid : Nat)
  | packet (pos : W64)
  | resid (tid : Nat)
  | host
  deriving DecidableEq, Repr

/-- A management operation under way on a partition (R238, R118, R322, R327): whose it is, its kind and operands, the engine operations whose end it
waits for. -/
structure MgmtOp where
  part  : Nat
  kind  : Nat
  sa    : W64
  sb    : W64
  sc    : W64
  owner : Owner
  waits : List Nat
  deriving DecidableEq, Repr

/-- A packet of the management stream that has started (R280): its position, its quadwords, whether it has completed. -/
structure Packet where
  pos   : W64
  words : List W64
  done  : Bool
  deriving DecidableEq, Repr

/-- An instruction-cache line: the octet as a core fetched it (R77). -/
structure ILine where
  core  : Nat
  addr  : Nat
  bytes : List Byte
  deriving DecidableEq, Repr

/-- An object-cache entry (R267) of a cluster: the offsets of an object that it covers, and the translation of the first. -/
structure OLine where
  cluster : Nat
  obj     : Nat
  base    : Nat
  size    : Nat
  tr      : Trans
  deriving DecidableEq, Repr

/-- The PF registers (R258, R313, R344, R345), with the packets of the management stream under way (R280), and what the device follows for its
timebase (R330): when the last timebase flit came, the root, its distance, the port towards it; the measurement registers that SPDM reports (R343). -/
structure Pf where
  bootStep   : Nat
  ready      : Bool
  failed     : Bool
  failStep   : Nat
  failUnit   : W8
  temp       : W8
  thermtrip  : Bool
  pwrStatus  : Nat
  current    : Nat
  target     : Nat
  tblock     : Bool
  mcBase     : BitVec 52
  mcLog2     : BitVec 5
  mcLost     : W32
  mcProd     : W64
  mcCons     : W64
  pktver     : W16
  lrver      : W16
  mgmt       : Stream
  pkts       : List Packet
  tbLast     : Nat
  tbRoot     : W16
  tbHops     : Nat
  tbPort     : Option Nat
  measured   : List (BitVec 512)
  deriving DecidableEq, Repr

/-- What belongs to a context that is not its partition's current one (R292, R296): its teams and groups, those of its guest's supervisor among them (R249), matrix
operations and latch, its soft-fault records, the residency manager's requests, and the events that wait for its handler. -/
structure Saved where
  teams    : Tab Team
  groups   : Tab Group
  mats     : Tab MatOp
  latch    : List Waiter
  softOut  : List (Nat × Nat)
  softQ    : List SvcRec
  resid    : List Residency
  declined : List Nat
  promoted : List Nat
  events   : List Event
  deriving DecidableEq, Repr

/-- MODEL. A service team as the partition's configuration has it start (R249): the team with its level, core and memory, and its groups. -/
structure Seed where
  team   : Team
  groups : List Group
  deriving DecidableEq, Repr

/-- MODEL. Whose turn it is: an event, or a group by its number. -/
inductive Turn where
  | event (i : Instr)
  | group (uid : Nat)
  deriving DecidableEq, Repr

/-- MODEL. The word being issued: its group, PC, lanes, the word itself; for a replay of the operand log, the recorded registers and rounding
control. -/
structure Cur where
  group  : Nat
  pc     : Pc
  mask   : W64
  word   : Instr
  replay : Option (Regs × Nat)
  deriving DecidableEq, Repr

/-- The machine. `lives` (MODEL) counts the contexts that have stood at a block address and are gone, so that each owns free values of its own. `seeds` (MODEL) are the service teams
that each partition's configuration names (log entry 8). `owned` are the 128-byte lines homed here that a peer holds in M or O, with the peer (R328). `hooks` (MODEL) are the stores to RESOLVE (none) and HOTCLR (its TOKEN) of partitions that have not had their turn.
`waiting` are the host and peer requests held in Q2 and Q3, oldest first, each as its event (R347). `upset` are the units of cores that fail next, set from outside: lane units whose check by
their shadow units fails (R96), by core and lane; the tree roots of a matrix array (64), and the stores of an operand, by 64 plus their SOURCE of R313 (R230); `answer` is what the last read from outside returned, `capAnswer` what the
last `cld` of a peer did. -/
structure State where
  mem      : Memory
  mtags    : Tab Bool
  hostMem  : Memory
  peerMem  : Tab Memory
  peerTags : Tab (Tab Bool)
  sectors  : Tab Sector
  pins     : List (Nat × Bool)
  keys     : Tab KeySlot
  ports    : Tab Port
  domain   : List W16
  pf       : Pf
  timebase : W64
  aclk     : Nat
  frac     : Nat
  parts    : Tab Part
  ctxs     : Tab Context
  launches : Tab Launch
  teams    : Tab Team
  groups   : Tab Group
  saved    : Tab Saved
  owned    : Tab W16
  copies   : Tab CopyOp
  mats     : Tab MatOp
  latch    : List Waiter
  rounds   : Tab Round
  contribs : List Contrib
  roundNo  : Tab Nat
  unpub    : List Unpub
  posted   : List Posted
  place    : Nat
  mgmtOps  : List MgmtOp
  icache   : List ILine
  ocache   : List OLine
  nextUid  : Nat
  free     : Tab Nat
  lives    : Tab Nat
  seeds    : Tab (List Seed)
  agenda   : List Turn
  hooks    : List (Nat × Option W32)
  waiting  : List Instr
  upset    : List (Nat × Nat)
  answer   : Option W64
  capAnswer : Option Cap
  cur      : Option Cur
  deriving DecidableEq, Repr

/-- Why the machine itself stops. No word of the table stops it: an instruction's fault is a next state (R300). -/
inductive Fault where
  /-- A step touches a machine address outside the 52-bit machine address space of R264. Safe: the model stops. -/
  | noSuchAddress (addr : Nat)
  deriving DecidableEq, Repr

/-- Why a step has no meaning. -/
inductive Refusal where
  /-- The instruction has no meaning yet. Safe. -/
  | notModelled (mnemonic : String)
  /-- `exec` is asked to run a word while no group issues one. Safe: `step` never asks it. -/
  | noIssuer
  deriving DecidableEq, Repr

/-- The PF registers at reset (R258, R313, R344, R345); TEMP has no reset value: 0 (log entry 5). -/
def Pf.reset : Pf :=
  ⟨0, false, false, 0, 0, 0, false, 0, 0, 0, false, 0, 0, 0, 0, 0, 0, 0, Stream.zero, [], 0, Config.deviceId, 0, none, []⟩

/-- The machine at power-on, before bring-up (R343): no partition, no context, memory with nothing listed. -/
def State.reset : State where
  mem := []
  mtags := []
  hostMem := []
  peerMem := []
  peerTags := []
  sectors := []
  pins := []
  keys := []
  ports := []
  domain := []
  pf := Pf.reset
  timebase := 0
  aclk := 0
  frac := 0
  parts := []
  ctxs := []
  launches := []
  teams := []
  groups := []
  saved := []
  owned := []
  copies := []
  mats := []
  latch := []
  rounds := []
  contribs := []
  roundNo := []
  unpub := []
  posted := []
  place := 0
  mgmtOps := []
  icache := []
  ocache := []
  nextUid := 1
  free := []
  lives := []
  seeds := []
  agenda := []
  hooks := []
  waiting := []
  upset := []
  answer := none
  capAnswer := none
  cur := none

end Sys2Proof.Machine
end

