-- ==== Sys2Proof/Machine/Bits.lean ====
section
/-! DEFINITION. Bit fields, sign extension, byte order and masks (spec/00_scope.md R5). -/

namespace Sys2Proof.Machine

/-- All ones or zero: the result of a compare (R157). -/
def ones {w : Nat} (b : Bool) : BitVec w := if b then BitVec.allOnes w else 0

/-- Bits [lo + n - 1 : lo] of a word, as a number. -/
def field {w : Nat} (x : BitVec w) (lo n : Nat) : Nat := (x.extractLsb' lo n).toNat

/-- Bit l of a lane mask. -/
def bit (m : W64) (l : Nat) : Bool := m.getLsbD l

/-- The mask with bit l alone. -/
def oneBit (l : Nat) : W64 := BitVec.ofNat 64 (2 ^ l)

/-- The mask of the lanes below n. -/
def lowMask (n : Nat) : W64 := BitVec.ofNat 64 (2 ^ n - 1)

/-- Write a field of a number: bits [lo + n - 1 : lo]. -/
def setField {w : Nat} (x : BitVec w) (lo n v : Nat) : BitVec w :=
  let m : BitVec w := BitVec.ofNat w ((2 ^ n - 1) * 2 ^ lo)
  (x &&& ~~~m) ||| (BitVec.ofNat w ((v % 2 ^ n) * 2 ^ lo))

/-- The n bytes of a number, little-endian: byte 0 first (R5). -/
def toBytes : Nat → Nat → List Byte
  | 0, _ => []
  | n + 1, x => BitVec.ofNat 8 x :: toBytes n (x / 256)

/-- The number whose bytes these are, byte 0 first (R5). -/
def ofBytes : List Byte → Nat
  | [] => 0
  | b :: bs => b.toNat + 256 * ofBytes bs

/-- The lanes of a mask below n, ascending. -/
def lanesOf (m : W64) : Nat → List Nat
  | 0 => []
  | n + 1 => lanesOf m n ++ (if bit m n then [n] else [])

/-- The lowest lane of a mask. -/
def lowestLane (m : W64) : Option Nat := (lanesOf m 64).head?

/-- How many bits of a mask are 1, below n. -/
def popcount {w : Nat} (x : BitVec w) : Nat → Nat
  | 0 => 0
  | n + 1 => popcount x n + (if x.getLsbD n then 1 else 0)

/-- The mask of the lanes l < n with p l. -/
def maskOf (p : Nat → Bool) : Nat → W64
  | 0 => 0
  | n + 1 => maskOf p n ||| (if p n then oneBit n else 0)

/-- next(p) of R163: word 0 of an octet is never issued. -/
def nextPc (p : Pc) : Pc := if p.toNat % 32 = 28 then p + 8 else p + 4

/-- Does the PC name word 0 of an octet? -/
def isWord0 (p : Pc) : Bool := decide (p.toNat % 32 = 0)

/-- Capability fields (R60). -/
def Cap.obj (c : Cap) : Nat := field c.bits 96 32
def Cap.rights (c : Cap) : W8 := c.bits.extractLsb' 88 8
def Cap.kind (c : Cap) : Nat := field c.bits 84 4
def Cap.rsv (c : Cap) : Nat := field c.bits 80 4
def Cap.base (c : Cap) : Nat := field c.bits 40 40
def Cap.length (c : Cap) : Nat := field c.bits 0 40

/-- The bits of a capability from its fields (R60). -/
def capBits (obj rights kind base length : Nat) : W128 :=
  BitVec.ofNat 128 (obj % 2 ^ 32 * 2 ^ 96 + rights % 256 * 2 ^ 88 + kind % 16 * 2 ^ 84 + base % 2 ^ 40 * 2 ^ 40 + length % 2 ^ 40)

/-- The rights bits of R60 as they stand in [95:88]. -/
def rR : Nat := 1
def rW : Nat := 2
def rX : Nat := 4
def rA : Nat := 8
def rC : Nat := 16
def rS : Nat := 32
def rL : Nat := 64
def rG : Nat := 128

/-- Has the capability every one of these rights? -/
def Cap.has (c : Cap) (r : Nat) : Bool := decide (c.rights.toNat &&& r = r)

/-- The kinds of R60. -/
def kMem : Nat := 0
def kCode : Nat := 1
def kTeam : Nat := 2
def kWbuf : Nat := 3
def kColl : Nat := 4
def kHostio : Nat := 5
def kWindow : Nat := 6

/-- The rights each kind permits (R63). -/
def kindRights (k : Nat) : Nat :=
  if k = kMem then rR + rW + rA + rC + rS + rL + rG
  else if k = kCode then rR + rX
  else if k = kTeam then rR + rW + rA + rC + rS + rL
  else if k = kWbuf then rR + rW + rC
  else if k = kColl then rW + rC
  else if k = kHostio then rR + rW + rA + rC
  else if k = kWindow then rR + rW + rC + rG
  else 0

/-- A place n bytes further. -/
def Loc.add : Loc → Nat → Loc
  | .dev a, n => .dev (a + n)
  | .host a, n => .host (a + n)
  | .peer d i o, n => .peer d i (o + n)
  | .team t o, n => .team t (o + n)
  | .wbuf t o, n => .wbuf t (o + n)

end Sys2Proof.Machine
end

