-- ==== Sys2Proof/Machine/Lanes.lean ====
section
/-! DEFINITION. Groups, lanes and the frontier (spec/02_execution_model.md R31 to R34): access to the tables of groups, teams, launches,
contexts and partitions, the lanes of a group, its registers, and the entries that its running lanes form. -/

namespace Sys2Proof.Machine

/-! ### The tables of the machine -/

def State.group? (s : State) (u : Nat) : Option Group := Tab.find s.groups u
def State.team? (s : State) (u : Nat) : Option Team := Tab.find s.teams u
def State.launch? (s : State) (u : Nat) : Option Launch := Tab.find s.launches u
def State.part? (s : State) (p : Nat) : Option Part := Tab.find s.parts p
def State.ctx? (s : State) (a : Nat) : Option Context := Tab.find s.ctxs a

def State.putGroup (s : State) (u : Nat) (g : Group) : State := { s with groups := Tab.put s.groups u g }
def State.putTeam (s : State) (u : Nat) (t : Team) : State := { s with teams := Tab.put s.teams u t }
def State.putLaunch (s : State) (u : Nat) (l : Launch) : State := { s with launches := Tab.put s.launches u l }
def State.putPart (s : State) (p : Nat) (x : Part) : State := { s with parts := Tab.put s.parts p x }
def State.putCtx (s : State) (a : Nat) (c : Context) : State := { s with ctxs := Tab.put s.ctxs a c }

/-- Change a group, where there is one. -/
def State.onGroup (s : State) (u : Nat) (f : Group → Group) : State := { s with groups := Tab.modify s.groups u f }
def State.onTeam (s : State) (u : Nat) (f : Team → Team) : State := { s with teams := Tab.modify s.teams u f }
def State.onLaunch (s : State) (u : Nat) (f : Launch → Launch) : State := { s with launches := Tab.modify s.launches u f }
def State.onPart (s : State) (p : Nat) (f : Part → Part) : State := { s with parts := Tab.modify s.parts p f }
def State.onCtx (s : State) (a : Nat) (f : Context → Context) : State := { s with ctxs := Tab.modify s.ctxs a f }

/-- A team of a running context or of one that is stopped. -/
def State.anyTeam (s : State) (u : Nat) : Option Team := (s.team? u).orElse (fun _ => s.saved.findSome? (fun e => Tab.find e.2.teams u))

/-- Change a team of a running context or of one that is stopped. -/
def State.onAnyTeam (s : State) (u : Nat) (f : Team → Team) : State :=
  { s.onTeam u f with saved := s.saved.map (fun e => (e.1, { e.2 with teams := Tab.modify e.2.teams u f })) }

/-- The address of the current context's block of a partition. -/
def State.ctxOf (s : State) (p : Nat) : Option Nat := (s.part? p).bind (·.ctx)

/-- The current context of a partition. -/
def State.context? (s : State) (p : Nat) : Option Context := (s.ctxOf p).bind s.ctx?

/-- Change the current context of a partition. -/
def State.onContext (s : State) (p : Nat) (f : Context → Context) : State :=
  match s.ctxOf p with
  | none => s
  | some a => s.onCtx a f

/-- Who owns the free values of the context whose block stands at an address: each context that comes to stand there is an owner of its own (R4). -/
def State.ctxDom (s : State) (a : Nat) : Nat := 32 + a + 2 ^ 52 * Tab.get 0 s.lives a

/-- Who owns the free values of a partition's current context, or without one of its service team (R4). -/
def State.dom (s : State) (p : Nat) : Nat :=
  match s.ctxOf p with
  | none => 1 + p
  | some a => s.ctxDom a

/-- Who owns the free values of a team of a level: its context, of an H team its partition (R4). -/
def State.domAt (s : State) (l : Level) (p : Nat) : Nat := if l = .h then 1 + p else s.dom p

def State.domOf (s : State) (g : Group) : Nat := s.domAt g.level g.part

/-- The owner of the free values that are no context's. -/
def domDevice : Nat := 0

/-- The next free value of an owner, and the state that has used it. -/
def State.fresh (s : State) (d : Nat) : W64 × State :=
  (Config.freeWord d (Tab.get 0 s.free d), { s with free := Tab.set 0 s.free d (Tab.get 0 s.free d + 1) })

/-- A new number for a group, team, launch or operation. -/
def State.newUid (s : State) : Nat × State := (s.nextUid, { s with nextUid := s.nextUid + 1 })

/-! ### Registers (R26, R27, R145) -/

/-- The key of lane l of allocated register r. -/
def vkey (r l : Nat) : Nat := 64 * r + l

def Regs.rv (x : Regs) (r l : Nat) : W32 := Tab.get 0 x.v (vkey (x.wb + r) l)
def Regs.rs (x : Regs) (r : Nat) : W64 := Tab.get 0 x.s r
def Regs.rc (x : Regs) (r : Nat) : Cap := Tab.get Cap.null x.c r
def Regs.rg (x : Regs) (r : Nat) : W64 := Tab.get 0 x.g r

def Regs.wv (x : Regs) (r l : Nat) (y : W32) : Regs := { x with v := Tab.set 0 x.v (vkey (x.wb + r) l) y }
def Regs.ws (x : Regs) (r : Nat) (y : W64) : Regs := { x with s := Tab.set 0 x.s r y }
def Regs.wc (x : Regs) (r : Nat) (y : Cap) : Regs := { x with c := Tab.set Cap.null x.c r y }
def Regs.wg (x : Regs) (r : Nat) (y : W64) : Regs := { x with g := Tab.set 0 x.g r y }

/-- Write lanes of a vector register, ascending: for each of the lanes, its value (R153). -/
def Regs.wvs (x : Regs) (r : Nat) (f : Nat → W32) : List Nat → Regs
  | [] => x
  | l :: ls => Regs.wvs (x.wv r l (f l)) r f ls

/-- The registers of a group at its start (R27). -/
def Regs.zero : Regs := ⟨[], [], [], [], 0⟩

/-! ### Lanes -/

/-- A lane that runs from an entry at a priority (R27). -/
def Lane.start (pc : Pc) (prio : Nat) : Lane := ⟨.run, pc, prio, 0, 0, 0, [], .no, 0, false, false, none⟩

/-- A lane that stands outside a dispatch. -/
def Lane.exited : Lane := ⟨.exit, 0, 0, 0, 0, 0, [], .no, 0, false, false, none⟩

/-- Change the lanes of a mask; n is the number of the first lane of the list. -/
def mapMask (m : W64) (f : Nat → Lane → Lane) : Nat → List Lane → List Lane
  | _, [] => []
  | n, x :: xs => (if bit m n then f n x else x) :: mapMask m f (n + 1) xs

def Group.onLanes (g : Group) (m : W64) (f : Nat → Lane → Lane) : Group := { g with lanes := mapMask m f 0 g.lanes }

/-- Lane l of a group (an exited lane at or beyond the width). -/
def Group.lane (g : Group) (l : Nat) : Lane := g.lanes.getD l Lane.exited

/-- The lanes of a group with a property. -/
def Group.lanesWith (g : Group) (p : Lane → Bool) : W64 := maskOf (fun l => l < g.width && p (g.lane l)) 64

/-- The live lanes: not in EXIT (R40). -/
def Group.live (g : Group) : W64 := g.lanesWith (fun x => decide (x.state ≠ .exit))

/-- The lanes in a state. -/
def Group.inState (g : Group) (st : LaneState) : W64 := g.lanesWith (fun x => decide (x.state = st))

/-- A group has retired when its last lane has exited (R41). In a dispatch it runs on: the lanes that it is to restore wait at `bmode` (R99). -/
def Group.retired (g : Group) : Bool := decide (g.live = 0) && g.dispatch.isNone

/-- Executing lanes go on to next(p) (R163). -/
def Group.advance (g : Group) (m : W64) (p : Pc) : Group := g.onLanes m (fun _ x => { x with pc := nextPc p })

/-- The execution mode (R100): 0 outside a pass, 1 bounds, 2 settled, 3 element. -/
def Group.mode (g : Group) : Nat := (g.dispatch.map (·.mode)).getD 0

/-- The allocation that vector operands are checked against: doubled in a bounds-pass dispatch (R26, R176). -/
def Group.alloc (g : Group) : Nat := if g.dispatch.isSome then 2 * g.budget else g.budget

/-- The executing lanes in ascending order. -/
def Group.exec (g : Group) (m : W64) : List Nat := lanesOf m g.width

/-! ### The frontier (R31, R32) -/

/-- An entry of the frontier. -/
structure Entry where
  pc   : Pc
  prio : Nat
  mask : W64
  age  : Nat
  deriving DecidableEq, Repr

/-- The greatest priority and age among the running lanes at a PC. -/
def mergeAt (p : Pc) : List Lane → Nat × Nat
  | [] => (0, 0)
  | x :: xs =>
    let r := mergeAt p xs
    if x.state = .run ∧ x.pc = p then (max x.prio r.1, max x.age r.2) else r

/-- Running lanes at one PC take the entry's priority and age (R31). -/
def reform (all : List Lane) : List Lane → List Lane
  | [] => []
  | x :: xs =>
    (if x.state = .run then { x with prio := (mergeAt x.pc all).1, age := (mergeAt x.pc all).2 } else x) :: reform all xs

/-- The distinct PCs of the running lanes. -/
def runPcs : List Lane → List Pc
  | [] => []
  | x :: xs =>
    let r := runPcs xs
    if x.state = .run ∧ ¬ x.pc ∈ r then x.pc :: r else r

/-- The frontier of a group: one entry per distinct PC among its running lanes (R31). -/
def Group.frontier (g : Group) : List Entry :=
  (runPcs g.lanes).map fun p =>
    { pc := p, prio := (mergeAt p g.lanes).1, age := (mergeAt p g.lanes).2,
      mask := g.lanesWith (fun x => decide (x.state = .run ∧ x.pc = p)) }

/-- Is the first entry the better choice: the greater key, ties to the lower PC? -/
def better (key : Entry → Nat) (a b : Entry) : Bool :=
  decide (key b < key a) || (decide (key a = key b) && decide (a.pc.toNat < b.pc.toNat))

/-- The best entry of a list under a key. -/
def bestEntry (key : Entry → Nat) : List Entry → Option Entry
  | [] => none
  | e :: es =>
    match bestEntry key es with
    | none => some e
    | some b => some (if better key e b then e else b)

/-- R32: among the ready entries, the oldest if one has waited 64 issues, else the one of highest priority; ties to the lowest PC. -/
def selectEntry (ready : List Entry) : Option Entry :=
  if ready.any (fun e => decide (64 ≤ e.age)) then bestEntry (·.age) (ready.filter (fun e => decide (64 ≤ e.age)))
  else bestEntry (·.prio) ready

/-- R32: the issuing entry's age becomes 0, the age of every other entry rises by 1. -/
def Group.ageIssue (g : Group) (m : W64) : Group :=
  let older := mapMask (~~~m) (fun _ x => if x.state = .run then { x with age := x.age + 1 } else x) 0 g.lanes
  { g with lanes := mapMask m (fun _ x => { x with age := 0 }) 0 older }

end Sys2Proof.Machine
end

