-- ==== Sys2Proof/Machine/Boot.lean ====
section
/-! DEFINITION. A machine in which one group is about to issue a given word: what bring-up, PARTCFG, the context block and a launch leave
(spec/18_streams_launch_preemption.md R286 to R292, spec/02_execution_model.md R27, spec/04_memory_capabilities_tensors.md R65), laid over
another state. It stands for the load of a program from outside; State.reset holds no program (log entry 7). -/

namespace Sys2Proof.Machine

/-- Bytes into a memory from an address on. -/
def putBytes : List Byte → Nat → Memory → Memory
  | [], _, m => m
  | b :: bs, a, m => putBytes bs (a + 1) (Tab.set 0 m a b)

/-- A little-endian number of n bytes into a memory. -/
def putNat (m : Memory) (a n v : Nat) : Memory := putBytes (toBytes n v) a m

/-- A partition of one unit with no streams active. -/
def Part.base : Part :=
  { units := 1, hpart := false, ports := [], bwshare := 0, shared := false, frames := [], ctx := none, tb := Translation.zero, events := [],
    wintab := 0, winStat := 0, winIdx := 0, dbgStat := 0, dbgLanes := 0, trBase := 0, trLog2 := 0, trLost := 0, trProd := 0, trCons := 0,
    sampctl := 0, lfsr := 0, sampNext := 0, pktver := 0, lrver := 0, tdi := .configUnlocked, spdm := false, cut := false, atomrec := [], softOut := [],
    softQ := [], hotQ := [], resid := [], declined := [], promoted := [], hot := [], resetting := false, starved := false }

/-- A context that has just started (R292): running, nothing in its tables. -/
def Context.base (tb : Translation) : Context :=
  { part := 0, state := .running, cause := 0, halting := false, tb := tb, stallchk := 0, atommode := 0, stopmode := 0, cxlo := 0, cxhi := 0, cxdly := 0,
    pmsel := [], pmc := [], prog := [], streams := [], tids := [], chain := [], acks := [],
    first := none, ready := [] }

/-- A team at its start (R27, R69). -/
def Team.base : Team :=
  { part := 0, launch := 0, tid := 0, level := .u, core := 0, tmBytes := 0, wbBytes := 0, accRows := 0, tmem := [], ttags := [],
    wbuf := [], acc := [], accBad := [], claims := [], bars := [], pass := none, held := [], retired := false, stopped := false, tookRecv := false, failed := 0, watch := 0 }

/-- A group at its start (R27). -/
def Group.base : Group :=
  { part := 0, launch := 0, team := 0, gid := 0, level := .u, width := 8, role := 3, budget := 32, core := 0, slot := 0, octet := 0, born := 0,
    last := none, issued := (0, 0), octets := [], fetchHeld := false, fetched := [], regs := Regs.zero, shadow := [], js := [], rm := 0, lanes := [], stall := 0, recent := [], pend := [], log := [], retry := false,
    softOn := none, memHold := none, yielded := none, batch := 0, waited := 0, openOps := [], sealed := [], tokens := [], tsumRead := [], cycles := 0, fault := none, arrayFault := false,
    halted := false, bmode := none, dispatch := none, host := none, atomDone := 0 }

/-- The numbers that the laid-over machine uses for its launch, team and group. -/
def bootLaunch : Nat := 1
def bootTeam : Nat := 2
def bootGroup : Nat := 3

/-- Where its tables and its code stand: the context block, the stage-2 table, the object table, a page list, the code. -/
def bootCtx : Nat := 0x40000
def bootS2 : Nat := 0x10000
def bootTable : Nat := 0x20000
def bootList : Nat := 0x28000
def bootCode : Nat := 0x30000

/-- A launch that runs. -/
def Launch.base : Launch :=
  { part := 0, ctx := bootCtx, stream := 0, ring := 0, tag := 0, record := 0, complete := false, type := 1, lvlBars := [], chans := [], snaps := [], replays := 0, age := 0,
    failing := 0 }

/-- Its translation block: a stage-2 block of 2 MiB at 0 and an object table of two entries, object 1 being the code. -/
def bootTb : Translation := ⟨bootTable, 2, bootS2, 32, 0, 16, 0⟩

/-- Object 1: VALID, EXEC, placed FAR, pages of 64 KiB, key slot 0, 64 KiB long. -/
def bootEntry : Nat := 1 + 8 + 1 * 2 ^ 18 + 0x10000 * 2 ^ 48 + bootList * 2 ^ 128

/-- The memory: the tables, the control word of the octet, and the instruction's bytes after it. -/
def bootMem (m : Memory) (bytes : List Byte) : Memory :=
  putBytes bytes (bootCode + 4)
    (putNat (putNat (putNat (putNat m bootS2 8 5) (bootTable + 32) 32 bootEntry) bootList 8 (5 + bootCode)) bootCode 4 0xF1111111)

/-- The capabilities of the group (R65): no argument, no weight buffer, the code, the team memory, an empty stack. -/
def bootCaps : Tab Cap :=
  [(27, ⟨capBits 0 0 kMem 0 0, true⟩), (28, ⟨capBits 0 (rR + rW + rC) kWbuf 0 0, true⟩), (29, ⟨capBits 1 (rR + rX) kCode 0 0x10000, true⟩),
   (30, ⟨capBits 0 (rR + rW + rA + rC + rS + rL) kTeam 0 1024, true⟩), (31, ⟨capBits 0 (rR + rW + rS + rL) kMem 0 0, true⟩)]

/-- Its launch record: three levels, one GENERAL group of width 8 with 128 registers, 1 KiB of team memory, entry 4. -/
def bootRecord : BitVec 2304 := BitVec.ofNat 2304 (4 + 2 ^ 48 + 3 * 2 ^ 84 + 2 ^ 142 + 0xC0010004 * 2 ^ 192)

/-- Lay a group that is about to issue the instruction in these bytes over a state. -/
def State.bootWith (s : State) (bytes : List Byte) : State :=
  { s with
    mem := bootMem s.mem bytes
    pf := { s.pf with ready := true, bootStep := 6, current := 0 }
    keys := Tab.put s.keys 0 ⟨some 0, 1, false, 0⟩
    sectors := (List.range 3).map (fun i => (bootCode / 32 + i, { Sector.clean with slot := some (0, 1) }))
    icache := []
    ocache := []
    mgmtOps := []
    parts := Tab.put s.parts 0 { Part.base with ctx := some bootCtx, tdi := .run, spdm := true, pktver := 1, lrver := 1 }
    ctxs := Tab.put s.ctxs bootCtx (Context.base bootTb)
    launches := Tab.put s.launches bootLaunch { Launch.base with record := bootRecord }
    teams := Tab.put s.teams bootTeam { Team.base with launch := bootLaunch, core := 1, tmBytes := 1024 }
    groups := Tab.put s.groups bootGroup
      { Group.base with launch := bootLaunch, team := bootTeam, core := 1, budget := 128, lanes := List.replicate 8 (Lane.start 4 0),
                        regs := { Regs.zero with c := bootCaps } }
    nextUid := max s.nextUid 4
    agenda := .group bootGroup :: s.agenda
    cur := none }

end Sys2Proof.Machine
end

