-- ==== Sys2Proof/Machine/Operands.lean ====
section
/-! DEFINITION. The operands of every instruction word and what the issue rules ask of it: register kinds, ranges, pairs, runs and literals
(spec/09_encoding_and_assembly.md R144, R145), fixed latency (R141), memory class (R36), lanes that a deferred word holds (R351), waiting for
an empty log (R351, R238), level (R238), and abandoning in bounds mode (R103). -/

namespace Sys2Proof.Machine

/-- The register kinds of R145, and literals. -/
inductive Kind where
  | v | s | c | j | k | g | q | lit
  deriving DecidableEq, Repr

/-- An operand: its kind, its field value, how many registers it names, the multiple that its number must be, whether a literal is in its
stated range, and whether the word reads and writes it. -/
structure Opnd where
  kind  : Kind
  num   : Nat
  run   : Nat
  align : Nat
  ok    : Bool
  reads : Bool
  wrote : Bool
  deriving DecidableEq, Repr

def opR (x : Kind) (n : Nat) : Opnd := ⟨x, n, 1, 1, true, true, false⟩
def opW (x : Kind) (n : Nat) : Opnd := ⟨x, n, 1, 1, true, false, true⟩
def opX (x : Kind) (n : Nat) : Opnd := ⟨x, n, 1, 1, true, true, true⟩
def opRs (x : Kind) (n run align : Nat) : Opnd := ⟨x, n, run, align, true, true, false⟩
def opWs (x : Kind) (n run align : Nat) : Opnd := ⟨x, n, run, align, true, false, true⟩
/-- An operand that the scoreboard does not compare: a rejoin set, a claim register, a channel. -/
def opN (x : Kind) (n : Nat) : Opnd := ⟨x, n, 1, 1, true, false, false⟩
def opL (ok : Bool) : Opnd := ⟨.lit, 0, 0, 1, ok, false, false⟩

/-- Is the special register readable by `smovsr`: a scalar one (R146)? -/
def scalarSr (i : Nat) : Bool := decide (i ≤ 22) && !([0, 4, 5, 6, 12].contains i)

/-- The numbers that a kind ranges over (R145): the first one beyond. -/
def Kind.bound : Kind → Nat
  | .v => 128
  | .s => 64
  | .c => 32
  | .j => 16
  | .k => 16
  | .g => 4
  | .q => 80
  | .lit => 0

/-- R145: is the operand within its kind's range, aligned as a pair or quad, its literal in range? -/
def Opnd.good (o : Opnd) : Bool :=
  match o.kind with
  | .lit => o.ok
  | .q => decide (64 ≤ o.num ∧ o.num < 80)
  | x => decide (o.num + o.run ≤ x.bound ∧ o.num % o.align = 0)

/-- What the issue rules ask of a word. -/
structure Shape where
  ops   : List Opnd := []
  lat   : Nat := 0
  own   : Bool := false
  mem   : Bool := false
  park  : Bool := false
  empty : Bool := false
  level : Nat := 0
  aband : Bool := false
  deriving DecidableEq, Repr

/-! Shapes that the meanings of classes 0xC to 0xE use by name. -/

def shQstat (d : F7) (a : F7) : Shape := { ops := [opW .s d.toNat, opN .q a.toNat], mem := true, aband := true }
def shTmwait (a : F7) : Shape := { ops := [opR .s a.toNat], mem := true, park := true, aband := true }
def shSvc (d : F7) (a : F7) (n : F7) : Shape := { ops := [opW .v d.toNat, opR .v a.toNat, opL (decide (n.toNat ≤ 127))], own := true, mem := true, park := true, aband := true }
def shIcinv (n : F7) : Shape := { ops := [opL (decide (n.toNat ≤ 6))], mem := true, aband := true }
def shBclaim (d : F7) (a : F7) (b : F7) : Shape := { ops := [opN .k d.toNat, opR .c a.toNat, opR .c b.toNat], mem := true, aband := true }
def shBflow (d : F7) (a : F7) (b : F7) : Shape := { ops := [opW .s d.toNat, opN .k a.toNat, opRs .s b.toNat 4 1], own := true, mem := true, aband := true }
def shBseal (d : F7) : Shape := { ops := [opW .s d.toNat], mem := true, aband := true }
def shBwait (a : F7) : Shape := { ops := [opR .s a.toNat], mem := true, aband := true }
def shBrelease (a : F7) : Shape := { ops := [opN .k a.toNat], mem := true, aband := true }
def shBstat (d : F7) (a : F7) : Shape := { ops := [opW .s d.toNat, opN .k a.toNat], mem := true, aband := true }
def shColl (d : F7) (a : F7) (b : F7) : Shape := { ops := [opW .s d.toNat, opN .k a.toNat, opRs .s b.toNat 4 1], own := true, mem := true, aband := true }
def shRprio (a : F7) (b : F7) : Shape := { ops := [opR .s a.toNat, opR .s b.toNat], mem := true, aband := true }
def shRdemote (a : F7) : Shape := { ops := [opR .s a.toNat], mem := true, aband := true }
def shRpromote (a : F7) (b : F7) : Shape := { ops := [opR .s a.toNat, opR .s b.toNat], mem := true, aband := true }
def shRquery (d : F7) (a : F7) : Shape := { ops := [opW .s d.toNat, opR .s a.toNat], mem := true, aband := true }
def shTset (a : F7) (b : F7) : Shape := { ops := [opR .s a.toNat, opR .s b.toNat], mem := true, aband := true }
def shTget (d : F7) (a : F7) (n : F7) : Shape := { ops := [opW .s d.toNat, opR .s a.toNat, opL (decide (n.toNat ≤ 9))], empty := true }
def shGset (d : F7) (a : F7) : Shape := { ops := [opW .g d.toNat, opR .s a.toNat], lat := 2, aband := true }
def shMmx (d : F7) (a : F7) (b : F7) : Shape := { ops := [opW .s d.toNat, opR .g a.toNat, opRs .s b.toNat 4 1], own := true, mem := true, park := true, aband := true }
def shMmxz (d : F7) (a : F7) (b : F7) : Shape := { ops := [opW .s d.toNat, opR .g a.toNat, opRs .s b.toNat 4 1], own := true, mem := true, park := true, aband := true }
def shAccrd (d : F7) (a : F7) (b : F7) : Shape := { ops := [opW .v d.toNat, opR .s a.toNat, opR .s b.toNat] }
def shAccadd (d : F7) (a : F7) (b : F7) : Shape := { ops := [opR .v d.toNat, opR .s a.toNat, opR .s b.toNat], aband := true }
def shAccclr (a : F7) (b : F7) : Shape := { ops := [opR .s a.toNat, opR .s b.toNat], aband := true }
def shTsum (d : F7) (a : F7) : Shape := { ops := [opW .s d.toNat, opR .s a.toNat], own := true, mem := true, aband := true }
def shCderive (d : F7) (a : F7) (b : F7) : Shape := { ops := [opW .c d.toNat, opR .c a.toNat, opRs .s b.toNat 3 1], lat := 2 }
def shCmov (d : F7) (a : F7) : Shape := { ops := [opW .c d.toNat, opR .c a.toNat], lat := 2, aband := true }
def shCbase (d : F7) (a : F7) : Shape := { ops := [opW .s d.toNat, opR .c a.toNat], lat := 2 }
def shClen (d : F7) (a : F7) : Shape := { ops := [opW .s d.toNat, opR .c a.toNat], lat := 2 }
def shCrights (d : F7) (a : F7) : Shape := { ops := [opW .s d.toNat, opR .c a.toNat], lat := 2 }
def shCkind (d : F7) (a : F7) : Shape := { ops := [opW .s d.toNat, opR .c a.toNat], lat := 2 }
def shCvalid (d : F7) (a : F7) : Shape := { ops := [opW .s d.toNat, opR .c a.toNat], lat := 2 }
def shCclear (d : F7) : Shape := { ops := [opW .c d.toNat], lat := 2, aband := true }
def shBmode (a : F7) (b : F7) : Shape := { ops := [opR .s a.toNat, opR .s b.toNat], empty := true, aband := true }
def shBfill (a : F7) (b : F7) : Shape := { ops := [opR .s a.toNat, opR .v b.toNat], mem := true }
def shBsplit : Shape := {}
def shBabandon : Shape := {}
def shBlo (d : F7) (a : F7) : Shape := { ops := [opW .v d.toNat, opR .v a.toNat] }
def shBhi (d : F7) (a : F7) : Shape := { ops := [opW .v d.toNat, opR .v a.toNat] }
def shBhull (d : F7) (a : F7) (b : F7) : Shape := { ops := [opW .v d.toNat, opR .v a.toNat, opR .v b.toNat] }
def shBwiden (d : F7) (a : F7) (b : F7) : Shape := { ops := [opW .v d.toNat, opR .v a.toNat, opR .s b.toNat] }
def shTld (d : F7) (a : F7) (b : F7) : Shape := { ops := [opW .v d.toNat, opR .s a.toNat, opRs .v b.toNat 2 1], mem := true }
def shTst (d : F7) (a : F7) (b : F7) : Shape := { ops := [opR .v d.toNat, opR .s a.toNat, opRs .v b.toNat 2 1], mem := true }
def shMark (n : F7) : Shape := { ops := [opL (decide (n.toNat ≤ 7))] }
def shRti : Shape := { empty := true, level := 1, aband := true }
def shHcall (n : F7) : Shape :=
  { ops := [opL (decide (n.toNat ≤ 127)), opRs .s 56 6 1, opWs .s 62 2 1], own := true, empty := true, level := 1, aband := true }
def shMfsr (d : F7) (n : F7) : Shape := { ops := [opW .s d.toNat, opL (decide (n.toNat ≤ 127))], empty := true, level := (if n.toNat < 32 then 1 else 2), aband := true }
def shMtsr (n : F7) (b : F7) : Shape := { ops := [opL (decide (n.toNat ≤ 127)), opR .s b.toNat], empty := true, level := (if n.toNat < 32 then 1 else 2), aband := true }
def shOtinv (a : F7) (b : F7) : Shape := { ops := [opR .s a.toNat, opR .s b.toNat], empty := true, level := 2, aband := true }
def shOtswap (a : F7) (b : F7) : Shape := { ops := [opR .s a.toNat, opRs .s b.toNat 2 1], empty := true, level := 2, aband := true }
def shKeyrev (a : F7) : Shape := { ops := [opR .s a.toNat], empty := true, level := 2, aband := true }
def shCtxstop (a : F7) : Shape := { ops := [opR .s a.toNat], empty := true, level := 2, aband := true }
def shCtxresume (a : F7) : Shape := { ops := [opR .s a.toNat], empty := true, level := 1, aband := true }
def shCtxkill (a : F7) : Shape := { ops := [opR .s a.toNat], empty := true, level := 2, aband := true }
def shFrpush (a : F7) : Shape := { ops := [opR .s a.toNat], empty := true, level := 2, aband := true }
def shHalt : Shape := { empty := true, level := 2, aband := true }

/-- The shape of an instruction. A latency of 0 stands for none or variable (R141); `own` marks a destination that an engine or a reply
writes; a step without an encoding has no operands. -/
def shape : Instr → Shape
  | .vadd d a b => { ops := [opW .v d.toNat, opR .v a.toNat, opR .v b.toNat], lat := 2 }
  | .vsub d a b => { ops := [opW .v d.toNat, opR .v a.toNat, opR .v b.toNat], lat := 2 }
  | .vmul d a b => { ops := [opW .v d.toNat, opR .v a.toNat, opR .v b.toNat], lat := 4 }
  | .vmulhS d a b => { ops := [opW .v d.toNat, opR .v a.toNat, opR .v b.toNat], lat := 4 }
  | .vmulhZ d a b => { ops := [opW .v d.toNat, opR .v a.toNat, opR .v b.toNat], lat := 4 }
  | .vmad d a b => { ops := [opX .v d.toNat, opR .v a.toNat, opR .v b.toNat], lat := 4 }
  | .vminS d a b => { ops := [opW .v d.toNat, opR .v a.toNat, opR .v b.toNat], lat := 2 }
  | .vminZ d a b => { ops := [opW .v d.toNat, opR .v a.toNat, opR .v b.toNat], lat := 2 }
  | .vmaxS d a b => { ops := [opW .v d.toNat, opR .v a.toNat, opR .v b.toNat], lat := 2 }
  | .vmaxZ d a b => { ops := [opW .v d.toNat, opR .v a.toNat, opR .v b.toNat], lat := 2 }
  | .vaddsS d a b => { ops := [opW .v d.toNat, opR .v a.toNat, opR .v b.toNat], lat := 2 }
  | .vaddsZ d a b => { ops := [opW .v d.toNat, opR .v a.toNat, opR .v b.toNat], lat := 2 }
  | .vsubsS d a b => { ops := [opW .v d.toNat, opR .v a.toNat, opR .v b.toNat], lat := 2 }
  | .vsubsZ d a b => { ops := [opW .v d.toNat, opR .v a.toNat, opR .v b.toNat], lat := 2 }
  | .vdivS d a b => { ops := [opW .v d.toNat, opR .v a.toNat, opR .v b.toNat] }
  | .vdivZ d a b => { ops := [opW .v d.toNat, opR .v a.toNat, opR .v b.toNat] }
  | .vremS d a b => { ops := [opW .v d.toNat, opR .v a.toNat, opR .v b.toNat] }
  | .vremZ d a b => { ops := [opW .v d.toNat, opR .v a.toNat, opR .v b.toNat] }
  | .vand d a b => { ops := [opW .v d.toNat, opR .v a.toNat, opR .v b.toNat], lat := 2 }
  | .vor d a b => { ops := [opW .v d.toNat, opR .v a.toNat, opR .v b.toNat], lat := 2 }
  | .vxor d a b => { ops := [opW .v d.toNat, opR .v a.toNat, opR .v b.toNat], lat := 2 }
  | .vandn d a b => { ops := [opW .v d.toNat, opR .v a.toNat, opR .v b.toNat], lat := 2 }
  | .vsel d a b => { ops := [opX .v d.toNat, opR .v a.toNat, opR .v b.toNat], lat := 2 }
  | .vshl d a b => { ops := [opW .v d.toNat, opR .v a.toNat, opR .v b.toNat], lat := 2 }
  | .vshrZ d a b => { ops := [opW .v d.toNat, opR .v a.toNat, opR .v b.toNat], lat := 2 }
  | .vshrS d a b => { ops := [opW .v d.toNat, opR .v a.toNat, opR .v b.toNat], lat := 2 }
  | .vrotl d a b => { ops := [opW .v d.toNat, opR .v a.toNat, opR .v b.toNat], lat := 2 }
  | .vpopc d a => { ops := [opW .v d.toNat, opR .v a.toNat], lat := 2 }
  | .vclz d a => { ops := [opW .v d.toNat, opR .v a.toNat], lat := 2 }
  | .vbrev d a => { ops := [opW .v d.toNat, opR .v a.toNat], lat := 2 }
  | .vbfxZ d a b => { ops := [opW .v d.toNat, opR .v a.toNat, opR .v b.toNat], lat := 2 }
  | .vbfxS d a b => { ops := [opW .v d.toNat, opR .v a.toNat, opR .v b.toNat], lat := 2 }
  | .vbfi d a b => { ops := [opX .v d.toNat, opR .v a.toNat, opR .v b.toNat], lat := 2 }
  | .vcmpEq d a b => { ops := [opW .v d.toNat, opR .v a.toNat, opR .v b.toNat], lat := 2 }
  | .vcmpNe d a b => { ops := [opW .v d.toNat, opR .v a.toNat, opR .v b.toNat], lat := 2 }
  | .vcmpLtS d a b => { ops := [opW .v d.toNat, opR .v a.toNat, opR .v b.toNat], lat := 2 }
  | .vcmpLtZ d a b => { ops := [opW .v d.toNat, opR .v a.toNat, opR .v b.toNat], lat := 2 }
  | .vcmpLeS d a b => { ops := [opW .v d.toNat, opR .v a.toNat, opR .v b.toNat], lat := 2 }
  | .vcmpLeZ d a b => { ops := [opW .v d.toNat, opR .v a.toNat, opR .v b.toNat], lat := 2 }
  | .vmov d a => { ops := [opW .v d.toNat, opR .v a.toNat], lat := 2 }
  | .vbcast d a => { ops := [opW .v d.toNat, opR .s a.toNat], lat := 2 }
  | .vext d a b => { ops := [opW .s d.toNat, opR .v a.toNat, opR .s b.toNat], lat := 2, aband := true }
  | .vins d a b => { ops := [opW .v d.toNat, opR .s a.toNat, opR .s b.toNat], lat := 2, aband := true }
  | .sadd d a b => { ops := [opW .s d.toNat, opR .s a.toNat, opR .s b.toNat], lat := 2 }
  | .ssub d a b => { ops := [opW .s d.toNat, opR .s a.toNat, opR .s b.toNat], lat := 2 }
  | .smul d a b => { ops := [opW .s d.toNat, opR .s a.toNat, opR .s b.toNat], lat := 4 }
  | .smulhS d a b => { ops := [opW .s d.toNat, opR .s a.toNat, opR .s b.toNat], lat := 4 }
  | .smulhZ d a b => { ops := [opW .s d.toNat, opR .s a.toNat, opR .s b.toNat], lat := 4 }
  | .sminS d a b => { ops := [opW .s d.toNat, opR .s a.toNat, opR .s b.toNat], lat := 2 }
  | .sminZ d a b => { ops := [opW .s d.toNat, opR .s a.toNat, opR .s b.toNat], lat := 2 }
  | .smaxS d a b => { ops := [opW .s d.toNat, opR .s a.toNat, opR .s b.toNat], lat := 2 }
  | .smaxZ d a b => { ops := [opW .s d.toNat, opR .s a.toNat, opR .s b.toNat], lat := 2 }
  | .sdivS d a b => { ops := [opW .s d.toNat, opR .s a.toNat, opR .s b.toNat] }
  | .sdivZ d a b => { ops := [opW .s d.toNat, opR .s a.toNat, opR .s b.toNat] }
  | .sremS d a b => { ops := [opW .s d.toNat, opR .s a.toNat, opR .s b.toNat] }
  | .sremZ d a b => { ops := [opW .s d.toNat, opR .s a.toNat, opR .s b.toNat] }
  | .sand d a b => { ops := [opW .s d.toNat, opR .s a.toNat, opR .s b.toNat], lat := 2 }
  | .sor d a b => { ops := [opW .s d.toNat, opR .s a.toNat, opR .s b.toNat], lat := 2 }
  | .sxor d a b => { ops := [opW .s d.toNat, opR .s a.toNat, opR .s b.toNat], lat := 2 }
  | .sandn d a b => { ops := [opW .s d.toNat, opR .s a.toNat, opR .s b.toNat], lat := 2 }
  | .sshl d a b => { ops := [opW .s d.toNat, opR .s a.toNat, opR .s b.toNat], lat := 2 }
  | .sshrZ d a b => { ops := [opW .s d.toNat, opR .s a.toNat, opR .s b.toNat], lat := 2 }
  | .sshrS d a b => { ops := [opW .s d.toNat, opR .s a.toNat, opR .s b.toNat], lat := 2 }
  | .spopc d a => { ops := [opW .s d.toNat, opR .s a.toNat], lat := 2 }
  | .sclz d a => { ops := [opW .s d.toNat, opR .s a.toNat], lat := 2 }
  | .scmpEq d a b => { ops := [opW .s d.toNat, opR .s a.toNat, opR .s b.toNat], lat := 2 }
  | .scmpNe d a b => { ops := [opW .s d.toNat, opR .s a.toNat, opR .s b.toNat], lat := 2 }
  | .scmpLtS d a b => { ops := [opW .s d.toNat, opR .s a.toNat, opR .s b.toNat], lat := 2 }
  | .scmpLtZ d a b => { ops := [opW .s d.toNat, opR .s a.toNat, opR .s b.toNat], lat := 2 }
  | .scmpLeS d a b => { ops := [opW .s d.toNat, opR .s a.toNat, opR .s b.toNat], lat := 2 }
  | .scmpLeZ d a b => { ops := [opW .s d.toNat, opR .s a.toNat, opR .s b.toNat], lat := 2 }
  | .smov d a => { ops := [opW .s d.toNat, opR .s a.toNat], lat := 2 }
  | .ssel d a b => { ops := [opX .s d.toNat, opR .s a.toNat, opR .s b.toNat], lat := 2 }
  | .vaddi d a _ => { ops := [opW .v d.toNat, opR .v a.toNat], lat := 2 }
  | .vmuli d a _ => { ops := [opW .v d.toNat, opR .v a.toNat], lat := 4 }
  | .vandi d a _ => { ops := [opW .v d.toNat, opR .v a.toNat], lat := 2 }
  | .vori d a _ => { ops := [opW .v d.toNat, opR .v a.toNat], lat := 2 }
  | .vxori d a _ => { ops := [opW .v d.toNat, opR .v a.toNat], lat := 2 }
  | .vshli d a i => { ops := [opW .v d.toNat, opR .v a.toNat, opL (decide (0 ≤ i.toInt ∧ i.toInt ≤ 31))], lat := 2 }
  | .vshriZ d a i => { ops := [opW .v d.toNat, opR .v a.toNat, opL (decide (0 ≤ i.toInt ∧ i.toInt ≤ 31))], lat := 2 }
  | .vshriS d a i => { ops := [opW .v d.toNat, opR .v a.toNat, opL (decide (0 ≤ i.toInt ∧ i.toInt ≤ 31))], lat := 2 }
  | .vcmpiEq d a _ => { ops := [opW .v d.toNat, opR .v a.toNat], lat := 2 }
  | .vcmpiLtS d a _ => { ops := [opW .v d.toNat, opR .v a.toNat], lat := 2 }
  | .vcmpiLtZ d a _ => { ops := [opW .v d.toNat, opR .v a.toNat], lat := 2 }
  | .vminiS d a _ => { ops := [opW .v d.toNat, opR .v a.toNat], lat := 2 }
  | .vmaxiS d a _ => { ops := [opW .v d.toNat, opR .v a.toNat], lat := 2 }
  | .saddi d a _ => { ops := [opW .s d.toNat, opR .s a.toNat], lat := 2 }
  | .smuli d a _ => { ops := [opW .s d.toNat, opR .s a.toNat], lat := 4 }
  | .sandi d a _ => { ops := [opW .s d.toNat, opR .s a.toNat], lat := 2 }
  | .sori d a _ => { ops := [opW .s d.toNat, opR .s a.toNat], lat := 2 }
  | .sxori d a _ => { ops := [opW .s d.toNat, opR .s a.toNat], lat := 2 }
  | .sshli d a i => { ops := [opW .s d.toNat, opR .s a.toNat, opL (decide (0 ≤ i.toInt ∧ i.toInt ≤ 63))], lat := 2 }
  | .sshriZ d a i => { ops := [opW .s d.toNat, opR .s a.toNat, opL (decide (0 ≤ i.toInt ∧ i.toInt ≤ 63))], lat := 2 }
  | .sshriS d a i => { ops := [opW .s d.toNat, opR .s a.toNat, opL (decide (0 ≤ i.toInt ∧ i.toInt ≤ 63))], lat := 2 }
  | .scmpiEq d a _ => { ops := [opW .s d.toNat, opR .s a.toNat], lat := 2 }
  | .scmpiLtS d a _ => { ops := [opW .s d.toNat, opR .s a.toNat], lat := 2 }
  | .scmpiLtZ d a _ => { ops := [opW .s d.toNat, opR .s a.toNat], lat := 2 }
  | .sminiS d a _ => { ops := [opW .s d.toNat, opR .s a.toNat], lat := 2 }
  | .smaxiS d a _ => { ops := [opW .s d.toNat, opR .s a.toNat], lat := 2 }
  | .vmovi d _ => { ops := [opW .v d.toNat], lat := 2 }
  | .vmovhi d _ => { ops := [opX .v d.toNat], lat := 2 }
  | .smovi d _ => { ops := [opW .s d.toNat], lat := 2 }
  | .smovhi d _ => { ops := [opX .s d.toNat], lat := 2 }
  | .fadd d a b => { ops := [opW .v d.toNat, opR .v a.toNat, opR .v b.toNat], lat := 4 }
  | .fsub d a b => { ops := [opW .v d.toNat, opR .v a.toNat, opR .v b.toNat], lat := 4 }
  | .fmul d a b => { ops := [opW .v d.toNat, opR .v a.toNat, opR .v b.toNat], lat := 4 }
  | .ffma d a b => { ops := [opX .v d.toNat, opR .v a.toNat, opR .v b.toNat], lat := 4 }
  | .fmin d a b => { ops := [opW .v d.toNat, opR .v a.toNat, opR .v b.toNat], lat := 4 }
  | .fmax d a b => { ops := [opW .v d.toNat, opR .v a.toNat, opR .v b.toNat], lat := 4 }
  | .fabs d a => { ops := [opW .v d.toNat, opR .v a.toNat], lat := 4 }
  | .fneg d a => { ops := [opW .v d.toNat, opR .v a.toNat], lat := 4 }
  | .fdiv d a b => { ops := [opW .v d.toNat, opR .v a.toNat, opR .v b.toNat] }
  | .fsqrt d a => { ops := [opW .v d.toNat, opR .v a.toNat] }
  | .frcp d a => { ops := [opW .v d.toNat, opR .v a.toNat] }
  | .fcmpEq d a b => { ops := [opW .v d.toNat, opR .v a.toNat, opR .v b.toNat], lat := 4 }
  | .fcmpLt d a b => { ops := [opW .v d.toNat, opR .v a.toNat, opR .v b.toNat], lat := 4 }
  | .fcmpLe d a b => { ops := [opW .v d.toNat, opR .v a.toNat, opR .v b.toNat], lat := 4 }
  | .fcmpUn d a b => { ops := [opW .v d.toNat, opR .v a.toNat, opR .v b.toNat], lat := 4 }
  | .fclass d a => { ops := [opW .v d.toNat, opR .v a.toNat], lat := 4 }
  | .fscale d a b => { ops := [opW .v d.toNat, opR .v a.toNat, opR .v b.toNat], lat := 4 }
  | .ffloor d a => { ops := [opW .v d.toNat, opR .v a.toNat], lat := 4 }
  | .fceil d a => { ops := [opW .v d.toNat, opR .v a.toNat], lat := 4 }
  | .ftrunc d a => { ops := [opW .v d.toNat, opR .v a.toNat], lat := 4 }
  | .frint d a => { ops := [opW .v d.toNat, opR .v a.toNat], lat := 4 }
  | .faddB2 d a b => { ops := [opW .v d.toNat, opR .v a.toNat, opR .v b.toNat], lat := 4 }
  | .fmulB2 d a b => { ops := [opW .v d.toNat, opR .v a.toNat, opR .v b.toNat], lat := 4 }
  | .ffmaB2 d a b => { ops := [opX .v d.toNat, opR .v a.toNat, opR .v b.toNat], lat := 4 }
  | .faddH2 d a b => { ops := [opW .v d.toNat, opR .v a.toNat, opR .v b.toNat], lat := 4 }
  | .fmulH2 d a b => { ops := [opW .v d.toNat, opR .v a.toNat, opR .v b.toNat], lat := 4 }
  | .ffmaH2 d a b => { ops := [opX .v d.toNat, opR .v a.toNat, opR .v b.toNat], lat := 4 }
  | .fmaxB2 d a b => { ops := [opW .v d.toNat, opR .v a.toNat, opR .v b.toNat], lat := 4 }
  | .fminB2 d a b => { ops := [opW .v d.toNat, opR .v a.toNat, opR .v b.toNat], lat := 4 }
  | .cvtFS d a => { ops := [opW .v d.toNat, opR .v a.toNat], lat := 4 }
  | .cvtFZ d a => { ops := [opW .v d.toNat, opR .v a.toNat], lat := 4 }
  | .cvtSF d a => { ops := [opW .v d.toNat, opR .v a.toNat], lat := 4 }
  | .cvtZF d a => { ops := [opW .v d.toNat, opR .v a.toNat], lat := 4 }
  | .cvtB2F d a b => { ops := [opW .v d.toNat, opR .v a.toNat, opR .v b.toNat], lat := 4 }
  | .cvtH2F d a b => { ops := [opW .v d.toNat, opR .v a.toNat, opR .v b.toNat], lat := 4 }
  | .cvtFB2 d a n => { ops := [opW .v d.toNat, opR .v a.toNat, opL (decide (n.toNat ≤ 1))], lat := 4 }
  | .cvtFH2 d a n => { ops := [opW .v d.toNat, opR .v a.toNat, opL (decide (n.toNat ≤ 1))], lat := 4 }
  | .cvtNF d a b => { ops := [opW .v d.toNat, opR .v a.toNat, opR .s b.toNat], lat := 4 }
  | .cvtFN d a b => { ops := [opW .v d.toNat, opR .v a.toNat, opR .s b.toNat], lat := 4 }
  | .vpack4 d a n => { ops := [opX .v d.toNat, opR .v a.toNat, opL (decide (n.toNat ≤ 3 ∨ 8 ≤ n.toNat ∧ n.toNat ≤ 15))], lat := 4 }
  | .vunpk4 d a n => { ops := [opW .v d.toNat, opR .v a.toNat, opL (decide (n.toNat ≤ 3 ∨ 8 ≤ n.toNat ∧ n.toNat ≤ 15))], lat := 4 }
  | .fexp2 d a => { ops := [opW .v d.toNat, opR .v a.toNat] }
  | .flog2 d a => { ops := [opW .v d.toNat, opR .v a.toNat] }
  | .frsqrt d a => { ops := [opW .v d.toNat, opR .v a.toNat] }
  | .fsinpi d a => { ops := [opW .v d.toNat, opR .v a.toNat] }
  | .fcospi d a => { ops := [opW .v d.toNat, opR .v a.toNat] }
  | .ftanh d a => { ops := [opW .v d.toNat, opR .v a.toNat] }
  | .fsigm d a => { ops := [opW .v d.toNat, opR .v a.toNat] }
  | .vshflIdx d a b => { ops := [opW .v d.toNat, opR .v a.toNat, opR .v b.toNat], lat := 6, aband := true }
  | .vshflUp d a b => { ops := [opW .v d.toNat, opR .v a.toNat, opR .s b.toNat], lat := 6, aband := true }
  | .vshflDn d a b => { ops := [opW .v d.toNat, opR .v a.toNat, opR .s b.toNat], lat := 6, aband := true }
  | .vshflXor d a b => { ops := [opW .v d.toNat, opR .v a.toNat, opR .s b.toNat], lat := 6, aband := true }
  | .vredAdd d a => { ops := [opW .v d.toNat, opR .v a.toNat], lat := 10, aband := true }
  | .vredMinS d a => { ops := [opW .v d.toNat, opR .v a.toNat], lat := 10, aband := true }
  | .vredMaxS d a => { ops := [opW .v d.toNat, opR .v a.toNat], lat := 10, aband := true }
  | .vredMinZ d a => { ops := [opW .v d.toNat, opR .v a.toNat], lat := 10, aband := true }
  | .vredMaxZ d a => { ops := [opW .v d.toNat, opR .v a.toNat], lat := 10, aband := true }
  | .vredAnd d a => { ops := [opW .v d.toNat, opR .v a.toNat], lat := 10, aband := true }
  | .vredOr d a => { ops := [opW .v d.toNat, opR .v a.toNat], lat := 10, aband := true }
  | .vredXor d a => { ops := [opW .v d.toNat, opR .v a.toNat], lat := 10, aband := true }
  | .vredFadd d a => { ops := [opW .v d.toNat, opR .v a.toNat], lat := 10, aband := true }
  | .vredFmin d a => { ops := [opW .v d.toNat, opR .v a.toNat], lat := 10, aband := true }
  | .vredFmax d a => { ops := [opW .v d.toNat, opR .v a.toNat], lat := 10, aband := true }
  | .vargminS d a => { ops := [opWs .v d.toNat 2 2, opR .v a.toNat], lat := 10, aband := true }
  | .vargminZ d a => { ops := [opWs .v d.toNat 2 2, opR .v a.toNat], lat := 10, aband := true }
  | .vargmaxS d a => { ops := [opWs .v d.toNat 2 2, opR .v a.toNat], lat := 10, aband := true }
  | .vargmaxZ d a => { ops := [opWs .v d.toNat 2 2, opR .v a.toNat], lat := 10, aband := true }
  | .vscanAdd d a => { ops := [opW .v d.toNat, opR .v a.toNat], lat := 10, aband := true }
  | .vscanFadd d a => { ops := [opW .v d.toNat, opR .v a.toNat], lat := 10, aband := true }
  | .vballot d a => { ops := [opW .s d.toNat, opR .v a.toNat], lat := 10, aband := true }
  | .vany d a => { ops := [opW .s d.toNat, opR .v a.toNat], lat := 10, aband := true }
  | .vall d a => { ops := [opW .s d.toNat, opR .v a.toNat], lat := 10, aband := true }
  | .smovsr d n => { ops := [opW .s d.toNat, opL (scalarSr n.toNat)], lat := 2 }
  | .vmovsr d n => { ops := [opW .v d.toNat, opL (decide (n.toNat ≤ 22))], lat := 2 }
  | .bnz a _ _ => { ops := [opR .v a.toNat] }
  | .bz a _ _ => { ops := [opR .v a.toNat] }
  | .bsnz a _ _ => { ops := [opR .s a.toNat] }
  | .bsz a _ _ => { ops := [opR .s a.toNat] }
  | .bra _ _ => {}
  | .calli _ _ => { mem := true, park := true }
  | .callv d a => { ops := [opR .c d.toNat, opR .v a.toNat], mem := true, park := true, aband := true }
  | .calls d a => { ops := [opR .c d.toNat, opR .s a.toNat], mem := true, park := true }
  | .ret => { mem := true, park := true }
  | .exit => { mem := true, park := true }
  | .jmpv d a => { ops := [opR .c d.toNat, opR .v a.toNat], aband := true }
  | .rjset d a => { ops := [opN .j d.toNat, opR .v a.toNat], lat := 2, aband := true }
  | .rjsetm d a => { ops := [opN .j d.toNat, opR .s a.toNat], lat := 2, aband := true }
  | .rjenter d => { ops := [opN .j d.toNat], lat := 2, aband := true }
  | .rjquit d => { ops := [opN .j d.toNat], lat := 2, aband := true }
  | .rjwait d => { ops := [opN .j d.toNat], mem := true, park := true, aband := true }
  | .rjget d a n => { ops := [opW .s d.toNat, opN .j a.toNat, opL (decide (n.toNat ≤ 1))], lat := 2, aband := true }
  | .yield => {}
  | .setprio n => { ops := [opL (decide (n.toNat ≤ 15))] }
  | .wbase n => { ops := [opL (decide (n.toNat ≤ 127))] }
  | .nop => {}
  | .brk n => { ops := [opL (decide (n.toNat ≤ 127))], aband := true }
  | .trap n => { ops := [opL (decide (n.toNat ≤ 127))], aband := true }
  | .frnd n => { ops := [opL (decide (n.toNat ≤ 3))] }
  | .vldBZ d a c _ => { ops := [opW .v d.toNat, opR .v a.toNat, opR .c c.toNat], mem := true }
  | .vldBS d a c _ => { ops := [opW .v d.toNat, opR .v a.toNat, opR .c c.toNat], mem := true }
  | .vldHZ d a c _ => { ops := [opW .v d.toNat, opR .v a.toNat, opR .c c.toNat], mem := true }
  | .vldHS d a c _ => { ops := [opW .v d.toNat, opR .v a.toNat, opR .c c.toNat], mem := true }
  | .vldW d a c _ => { ops := [opW .v d.toNat, opR .v a.toNat, opR .c c.toNat], mem := true }
  | .vldD d a c _ => { ops := [opWs .v d.toNat 2 2, opR .v a.toNat, opR .c c.toNat], mem := true }
  | .vldQ d a c _ => { ops := [opWs .v d.toNat 4 4, opR .v a.toNat, opR .c c.toNat], mem := true }
  | .vldbc d a c _ => { ops := [opW .v d.toNat, opR .s a.toNat, opR .c c.toNat], mem := true }
  | .vstB d a c _ => { ops := [opR .v d.toNat, opR .v a.toNat, opR .c c.toNat], mem := true, aband := true }
  | .vstH d a c _ => { ops := [opR .v d.toNat, opR .v a.toNat, opR .c c.toNat], mem := true, aband := true }
  | .vstW d a c _ => { ops := [opR .v d.toNat, opR .v a.toNat, opR .c c.toNat], mem := true, aband := true }
  | .vstD d a c _ => { ops := [opRs .v d.toNat 2 2, opR .v a.toNat, opR .c c.toNat], mem := true, aband := true }
  | .vstQ d a c _ => { ops := [opRs .v d.toNat 4 4, opR .v a.toNat, opR .c c.toNat], mem := true, aband := true }
  | .sldD d a c _ => { ops := [opW .s d.toNat, opR .s a.toNat, opR .c c.toNat], mem := true }
  | .sldWS d a c _ => { ops := [opW .s d.toNat, opR .s a.toNat, opR .c c.toNat], mem := true }
  | .sldWZ d a c _ => { ops := [opW .s d.toNat, opR .s a.toNat, opR .c c.toNat], mem := true }
  | .sstD d a c _ => { ops := [opR .s d.toNat, opR .s a.toNat, opR .c c.toNat], mem := true, aband := true }
  | .sstW d a c _ => { ops := [opR .s d.toNat, opR .s a.toNat, opR .c c.toNat], mem := true, aband := true }
  | .cld d a c _ => { ops := [opW .c d.toNat, opR .s a.toNat, opR .c c.toNat], mem := true }
  | .cst d a c _ => { ops := [opR .c d.toNat, opR .s a.toNat, opR .c c.toNat], mem := true, aband := true }
  | .aadd d a c b => { ops := [opW .v d.toNat, opR .v a.toNat, opR .c c.toNat, opR .v b.toNat], mem := true, aband := true }
  | .aminS d a c b => { ops := [opW .v d.toNat, opR .v a.toNat, opR .c c.toNat, opR .v b.toNat], mem := true, aband := true }
  | .amaxS d a c b => { ops := [opW .v d.toNat, opR .v a.toNat, opR .c c.toNat, opR .v b.toNat], mem := true, aband := true }
  | .aminZ d a c b => { ops := [opW .v d.toNat, opR .v a.toNat, opR .c c.toNat, opR .v b.toNat], mem := true, aband := true }
  | .amaxZ d a c b => { ops := [opW .v d.toNat, opR .v a.toNat, opR .c c.toNat, opR .v b.toNat], mem := true, aband := true }
  | .aand d a c b => { ops := [opW .v d.toNat, opR .v a.toNat, opR .c c.toNat, opR .v b.toNat], mem := true, aband := true }
  | .aor d a c b => { ops := [opW .v d.toNat, opR .v a.toNat, opR .c c.toNat, opR .v b.toNat], mem := true, aband := true }
  | .axor d a c b => { ops := [opW .v d.toNat, opR .v a.toNat, opR .c c.toNat, opR .v b.toNat], mem := true, aband := true }
  | .axchg d a c b => { ops := [opW .v d.toNat, opR .v a.toNat, opR .c c.toNat, opR .v b.toNat], mem := true, aband := true }
  | .acas d a c b => { ops := [opX .v d.toNat, opR .v a.toNat, opR .c c.toNat, opR .v b.toNat], mem := true, aband := true }
  | .afadd d a c b => { ops := [opW .v d.toNat, opR .v a.toNat, opR .c c.toNat, opR .v b.toNat], mem := true, aband := true }
  | .saadd d a c b => { ops := [opW .s d.toNat, opR .s a.toNat, opR .c c.toNat, opR .s b.toNat], mem := true, aband := true }
  | .sacas d a c b => { ops := [opX .s d.toNat, opR .s a.toNat, opR .c c.toNat, opR .s b.toNat], mem := true, aband := true }
  | .fpub n => { ops := [opL (decide (n.toNat ≤ 6))], mem := true, aband := true }
  | .fsys n => { ops := [opL (decide (n.toNat ≤ 6))], mem := true, aband := true }
  | .tbinit a b => { ops := [opR .s a.toNat, opR .s b.toNat], mem := true, aband := true }
  | .tbarrive d a b => { ops := [opW .s d.toNat, opR .s a.toNat, opR .s b.toNat], mem := true, aband := true }
  | .tbwait a b => { ops := [opR .s a.toNat, opR .s b.toNat], mem := true, park := true, aband := true }
  | .tbtest d a b => { ops := [opW .s d.toNat, opR .s a.toNat, opR .s b.toNat], mem := true, aband := true }
  | .teambar n => { ops := [opL (decide (n.toNat ≤ 15))], mem := true, park := true, aband := true }
  | .lvlbar n => { ops := [opL (decide (1 ≤ n.toNat ∧ n.toNat ≤ 7))], mem := true, park := true, aband := true }
  | .send d a => { ops := [opN .q d.toNat, opR .v a.toNat], mem := true, park := true, aband := true }
  | .recv d a => { ops := [opW .v d.toNat, opN .q a.toNat], mem := true, park := true, aband := true }
  | .qstat d a => shQstat d a
  | .tmwait a => shTmwait a
  | .svc d a n => shSvc d a n
  | .icinv n => shIcinv n
  | .bclaim d a b => shBclaim d a b
  | .bflow d a b => shBflow d a b
  | .bseal d => shBseal d
  | .bwait a => shBwait a
  | .brelease a => shBrelease a
  | .bstat d a => shBstat d a
  | .coll d a b => shColl d a b
  | .rprio a b => shRprio a b
  | .rdemote a => shRdemote a
  | .rpromote a b => shRpromote a b
  | .rquery d a => shRquery d a
  | .tset a b => shTset a b
  | .tget d a n => shTget d a n
  | .gset d a => shGset d a
  | .mmx d a b => shMmx d a b
  | .mmxz d a b => shMmxz d a b
  | .accrd d a b => shAccrd d a b
  | .accadd d a b => shAccadd d a b
  | .accclr a b => shAccclr a b
  | .tsum d a => shTsum d a
  | .cderive d a b => shCderive d a b
  | .cmov d a => shCmov d a
  | .cbase d a => shCbase d a
  | .clen d a => shClen d a
  | .crights d a => shCrights d a
  | .ckind d a => shCkind d a
  | .cvalid d a => shCvalid d a
  | .cclear d => shCclear d
  | .bmode a b => shBmode a b
  | .bfill a b => shBfill a b
  | .bsplit => shBsplit
  | .babandon => shBabandon
  | .blo d a => shBlo d a
  | .bhi d a => shBhi d a
  | .bhull d a b => shBhull d a b
  | .bwiden d a b => shBwiden d a b
  | .tld d a b => shTld d a b
  | .tst d a b => shTst d a b
  | .mark n => shMark n
  | .rti => shRti
  | .hcall n => shHcall n
  | .mfsr d n => shMfsr d n
  | .mtsr n b => shMtsr n b
  | .otinv a b => shOtinv a b
  | .otswap a b => shOtswap a b
  | .keyrev a => shKeyrev a
  | .ctxstop a => shCtxstop a
  | .ctxresume a => shCtxresume a
  | .ctxkill a => shCtxkill a
  | .frpush a => shFrpush a
  | .halt => shHalt
  | .variableLatencyResult _ _ => {}
  | .operandLogReplay _ => {}
  | .orphanedSet _ => {}
  | .flowEnd _ => {}
  | .tsumEnd _ => {}
  | .rendezvous _ _ => {}
  | .matrixOperationEnd _ => {}
  | .gangOrphaned _ => {}
  | .barrierTimeout _ => {}
  | .watchdog _ => {}
  | .tmwaitExpiry _ => {}
  | .svcReply _ _ => {}
  | .hcallReply _ _ _ => {}
  | .boundsEvaluation _ => {}
  | .tileIssueLimit _ => {}
  | .settledDispatch _ => {}
  | .elementDispatch _ => {}
  | .fill _ => {}
  | .roundStart _ => {}
  | .roundDone _ _ => {}
  | .timeout _ => {}
  | .residencyMove _ _ => {}
  | .softfault _ => {}
  | .hotness _ => {}
  | .resolve _ => {}
  | .hotclr _ _ => {}
  | .launch _ _ => {}
  | .tlaunch _ _ => {}
  | .tlaunchTick _ _ => {}
  | .placement _ _ => {}
  | .launchRetirement _ => {}
  | .semwait _ _ => {}
  | .semwaitLoad _ _ => {}
  | .semsignal _ _ => {}
  | .flush _ _ => {}
  | .capwrite _ _ => {}
  | .ctxstopPacket => {}
  | .ctxresumePacket => {}
  | .ctxkillPacket => {}
  | .otinvPacket => {}
  | .otswapPacket => {}
  | .keyrevPacket => {}
  | .frames => {}
  | .create => {}
  | .destroy => {}
  | .keyload => {}
  | .keyfree => {}
  | .doorbell _ _ => {}
  | .enableSet _ => {}
  | .enableClear _ => {}
  | .errorClear _ => {}
  | .registerWrite _ _ _ _ => {}
  | .engineStop _ _ _ => {}
  | .activation _ => {}
  | .snapshotRollback _ => {}
  | .hostAccess _ _ _ _ _ => {}
  | .hostSnoop _ _ _ => {}
  | .peerAccess _ _ _ _ _ => {}
  | .windowRequest _ _ _ _ _ _ _ _ => {}
  | .atomicopCompletion _ _ => {}
  | .serviceReply _ => {}
  | .hostWriteRejected _ => {}
  | .tdiLeavesRun _ _ => {}
  | .spdmSessionEnd _ => {}
  | .heartbeatTimeout _ => {}
  | .flr _ => {}
  | .portTraining _ _ _ _ => {}
  | .flit _ _ => {}
  | .linkLoss _ _ => {}
  | .timebaseFlit _ _ _ _ _ => {}
  | .timebaseUnlocked => {}
  | .winctl _ _ _ => {}
  | .windowRevocationDone _ => {}
  | .release _ _ _ _ => {}
  | .step _ _ _ _ => {}
  | .sampctl _ _ => {}
  | .sample _ => {}
  | .powerOn _ => {}
  | .targetQ0 => {}
  | .targetQ1 => {}
  | .targetQ2 => {}
  | .targetQ3 => {}
  | .targetQ4 => {}
  | .powerStateChangeDone => {}
  | .thermalTrip _ => {}
  | .thermtripClear _ => {}
  | .tdispRequest _ _ => {}
  | .spdmRequest _ _ => {}
  | .hostLinkRetraining => {}
  | .portDown _ => {}
  | .scrub _ _ => {}
  | .powerRemoval => {}

end Sys2Proof.Machine
end

