-- ==== Sys2Proof/WellFormed.lean ====
section
/-! DEFINITION. Well-formed instructions: a word whose operands pass step 5 of R147 (spec/09_encoding_and_assembly.md R144, R145), and an event
whose arguments name units that the device has. A word that is not well formed still has its architectural meaning: it raises ILLEGAL_OPERAND. -/

namespace Sys2Proof

/-- Does every operand of the word pass R144 and R145? -/
def Instr.operandsOk (i : Instr) : Bool := (Machine.shape i).ops.all Machine.Opnd.good

/-- A partition number (R253: p of 0 to 15). -/
def partOk (p : Nat) : Bool := decide (p < 16)

/-- A stream of a partition (R278: 64 user streams a context). -/
def StreamRef.ok : StreamRef → Bool
  | .user p n => partOk p && decide (n < 64)
  | .mgmt => true

def WindowRef.ok : WindowRef → Bool
  | .vf p => partOk p
  | .pf => true

/-- A barrier (R209: ids 0 to 15; R210: levels 1 to 7). -/
def BarRef.ok : BarRef → Bool
  | .team _ id => decide (id < 16)
  | .level _ n _ => decide (1 ≤ n ∧ n ≤ 7)

/-- Is a value no wider than an access? -/
def AccessSize.fits : AccessSize → W64 → Bool
  | .b1, v => decide (v.toNat < 2 ^ 8)
  | .b2, v => decide (v.toNat < 2 ^ 16)
  | .b4, v => decide (v.toNat < 2 ^ 32)
  | .b8, _ => true

/-- Does the value that a compare-and-swap compares fit its width? -/
def OutsideOp.fits (n : AccessSize) : OutsideOp → Bool
  | .atomic (.cas v) => n.fits v
  | _ => true

/-- Does the data of a window request fit its width: 16 bytes and a tag for a capability alone? -/
def WindowOp.fits (n : AccessSize) (d : WindowData) : WindowOp → Bool
  | .cload | .cstore => true
  | .atomic (.cas v) => n.fits v && !d.tag && decide (d.value.toNat < 2 ^ 64) && n.fits (d.value.setWidth 64)
  | _ => !d.tag && decide (d.value.toNat < 2 ^ 64) && n.fits (d.value.setWidth 64)

/-- A partition's VF, or the PF. -/
def functionOk (p : Nat) : Bool := decide (p ≤ 16)

/-- The well-formed instructions: words by their operands, the steps without an encoding by their arguments. -/
def WellFormed (i : Instr) : Bool :=
  i.operandsOk &&
  match i with
  | .launch p n | .tlaunch p n | .tlaunchTick p n | .semwait p n | .semwaitLoad p n | .semsignal p n | .flush p n | .capwrite p n =>
    partOk p && decide (n < 64)
  | .placement p cs => partOk p && cs.all (fun c => decide (c < 256))
  | .rendezvous c _ => decide (c < 32)
  | .barrierTimeout b => b.ok
  | .svcReply _ vs => decide (vs.length ≤ 64)
  | .residencyMove p _ | .softfault p | .hotness p | .resolve p | .hotclr p _ | .activation p | .hostWriteRejected p | .tdiLeavesRun p _
  | .spdmSessionEnd p | .heartbeatTimeout p | .linkLoss p _ | .winctl p _ _ | .windowRevocationDone p | .release p _ _ _ | .step p _ _ _
  | .sampctl p _ | .sample p | .tdispRequest p _ | .spdmRequest p _ | .engineStop p _ _ => partOk p
  | .doorbell r _ | .enableSet r | .enableClear r | .errorClear r => r.ok
  | .registerWrite w _ n v => w.ok && n.fits v
  | .flr p => functionOk p
  | .hostAccess p op _ n v => functionOk p && n.fits v && op.fits n
  | .peerAccess _ p op _ d => partOk p && d.size.fits d.value && op.fits d.size
  | .windowRequest p _ _ _ _ op n v => partOk p && op.fits n v
  | .portTraining n _ _ _ | .flit n _ | .timebaseFlit n _ _ _ _ | .portDown n => decide (n < 18)
  | _ => true

end Sys2Proof
end

