-- ==== Sys2Proof/Decode.lean ====
section
/-! DEFINITION. The decoder, total on any bytes (spec/09_encoding_and_assembly.md R138, R139, R143, R144, R147 steps 1 to 3, R148), and the
encoder written from the same map. An unassigned code, a nonzero unused field or class 0xF has no instruction (`none`): the group that would
issue it takes ILLEGAL_INSTRUCTION. The functions that build an instruction are marked noncomputable for one reason only: the compiler's object layout
has no tag for the later constructors of an inductive of 391; the kernel evaluates all of them. -/

namespace Sys2Proof

/-! ### The formats of R143 -/

def encR (cls f : Nat) (d a b : F7) : W32 := BitVec.ofNat 4 cls ++ d ++ a ++ b ++ BitVec.ofNat 7 f
def encI (cls f : Nat) (d a : F7) (i : BitVec 10) : W32 := BitVec.ofNat 4 cls ++ d ++ a ++ BitVec.ofNat 4 f ++ i
def encL (cls f : Nat) (d : F7) (i : BitVec 19) : W32 := BitVec.ofNat 4 cls ++ d ++ BitVec.ofNat 2 f ++ i
def encB (cls f : Nat) (a : F7) (p : BitVec 4) (o : BitVec 14) : W32 := BitVec.ofNat 4 cls ++ a ++ BitVec.ofNat 3 f ++ p ++ o
def encM (cls f : Nat) (d a : F7) (c : BitVec 5) (i : BitVec 6) : W32 := BitVec.ofNat 4 cls ++ d ++ a ++ c ++ BitVec.ofNat 3 f ++ i
def encA (cls f : Nat) (d a : F7) (c b : BitVec 5) : W32 := BitVec.ofNat 4 cls ++ d ++ a ++ c ++ BitVec.ofNat 4 f ++ b

/-- R144: a field that the instruction does not use must be 0. -/
def unused {w : Nat} (u : BitVec w) (i : Instr) : Option Instr := if u = 0 then some i else none

/-! ### The opcode map of R148, one function for each class -/

/-- Class 0x0, format R. -/
def decode0 (d a b : F7) : Nat → Option Instr
  | 0 => some (.vadd d a b)
  | 1 => some (.vsub d a b)
  | 2 => some (.vmul d a b)
  | 3 => some (.vmulhS d a b)
  | 4 => some (.vmulhZ d a b)
  | 5 => some (.vmad d a b)
  | 6 => some (.vminS d a b)
  | 7 => some (.vminZ d a b)
  | 8 => some (.vmaxS d a b)
  | 9 => some (.vmaxZ d a b)
  | 10 => some (.vaddsS d a b)
  | 11 => some (.vaddsZ d a b)
  | 12 => some (.vsubsS d a b)
  | 13 => some (.vsubsZ d a b)
  | 14 => some (.vdivS d a b)
  | 15 => some (.vdivZ d a b)
  | 16 => some (.vremS d a b)
  | 17 => some (.vremZ d a b)
  | 18 => some (.vand d a b)
  | 19 => some (.vor d a b)
  | 20 => some (.vxor d a b)
  | 21 => some (.vandn d a b)
  | 22 => some (.vsel d a b)
  | 23 => some (.vshl d a b)
  | 24 => some (.vshrZ d a b)
  | 25 => some (.vshrS d a b)
  | 26 => some (.vrotl d a b)
  | 27 => unused (b) (.vpopc d a)
  | 28 => unused (b) (.vclz d a)
  | 29 => unused (b) (.vbrev d a)
  | 30 => some (.vbfxZ d a b)
  | 31 => some (.vbfxS d a b)
  | 32 => some (.vbfi d a b)
  | 33 => some (.vcmpEq d a b)
  | 34 => some (.vcmpNe d a b)
  | 35 => some (.vcmpLtS d a b)
  | 36 => some (.vcmpLtZ d a b)
  | 37 => some (.vcmpLeS d a b)
  | 38 => some (.vcmpLeZ d a b)
  | 39 => unused (b) (.vmov d a)
  | 40 => unused (b) (.vbcast d a)
  | 41 => some (.vext d a b)
  | 42 => some (.vins d a b)
  | 64 => some (.sadd d a b)
  | 65 => some (.ssub d a b)
  | 66 => some (.smul d a b)
  | 67 => some (.smulhS d a b)
  | 68 => some (.smulhZ d a b)
  | 69 => some (.sminS d a b)
  | 70 => some (.sminZ d a b)
  | 71 => some (.smaxS d a b)
  | 72 => some (.smaxZ d a b)
  | 73 => some (.sdivS d a b)
  | 74 => some (.sdivZ d a b)
  | 75 => some (.sremS d a b)
  | 76 => some (.sremZ d a b)
  | 77 => some (.sand d a b)
  | 78 => some (.sor d a b)
  | 79 => some (.sxor d a b)
  | 80 => some (.sandn d a b)
  | 81 => some (.sshl d a b)
  | 82 => some (.sshrZ d a b)
  | 83 => some (.sshrS d a b)
  | 84 => unused (b) (.spopc d a)
  | 85 => unused (b) (.sclz d a)
  | 86 => some (.scmpEq d a b)
  | 87 => some (.scmpNe d a b)
  | 88 => some (.scmpLtS d a b)
  | 89 => some (.scmpLtZ d a b)
  | 90 => some (.scmpLeS d a b)
  | 91 => some (.scmpLeZ d a b)
  | 92 => unused (b) (.smov d a)
  | 93 => some (.ssel d a b)
  | _ => none

/-- Class 0x1, format I. -/
def decode1 (d a : F7) (i : BitVec 10) : Nat → Option Instr
  | 0 => some (.vaddi d a i)
  | 1 => some (.vmuli d a i)
  | 2 => some (.vandi d a i)
  | 3 => some (.vori d a i)
  | 4 => some (.vxori d a i)
  | 5 => some (.vshli d a i)
  | 6 => some (.vshriZ d a i)
  | 7 => some (.vshriS d a i)
  | 8 => some (.vcmpiEq d a i)
  | 9 => some (.vcmpiLtS d a i)
  | 10 => some (.vcmpiLtZ d a i)
  | 11 => some (.vminiS d a i)
  | 12 => some (.vmaxiS d a i)
  | _ => none

/-- Class 0x2, format I. -/
def decode2 (d a : F7) (i : BitVec 10) : Nat → Option Instr
  | 0 => some (.saddi d a i)
  | 1 => some (.smuli d a i)
  | 2 => some (.sandi d a i)
  | 3 => some (.sori d a i)
  | 4 => some (.sxori d a i)
  | 5 => some (.sshli d a i)
  | 6 => some (.sshriZ d a i)
  | 7 => some (.sshriS d a i)
  | 8 => some (.scmpiEq d a i)
  | 9 => some (.scmpiLtS d a i)
  | 10 => some (.scmpiLtZ d a i)
  | 11 => some (.sminiS d a i)
  | 12 => some (.smaxiS d a i)
  | _ => none

/-- Class 0x3, format L. -/
def decode3 (d : F7) (i : BitVec 19) : Nat → Option Instr
  | 0 => some (.vmovi d i)
  | 1 => some (.vmovhi d i)
  | 2 => some (.smovi d i)
  | 3 => some (.smovhi d i)
  | _ => none

/-- Class 0x4, format R. -/
def decode4 (d a b : F7) : Nat → Option Instr
  | 0 => some (.fadd d a b)
  | 1 => some (.fsub d a b)
  | 2 => some (.fmul d a b)
  | 3 => some (.ffma d a b)
  | 4 => some (.fmin d a b)
  | 5 => some (.fmax d a b)
  | 6 => unused (b) (.fabs d a)
  | 7 => unused (b) (.fneg d a)
  | 8 => some (.fdiv d a b)
  | 9 => unused (b) (.fsqrt d a)
  | 10 => unused (b) (.frcp d a)
  | 11 => some (.fcmpEq d a b)
  | 12 => some (.fcmpLt d a b)
  | 13 => some (.fcmpLe d a b)
  | 14 => some (.fcmpUn d a b)
  | 15 => unused (b) (.fclass d a)
  | 16 => some (.fscale d a b)
  | 17 => unused (b) (.ffloor d a)
  | 18 => unused (b) (.fceil d a)
  | 19 => unused (b) (.ftrunc d a)
  | 20 => unused (b) (.frint d a)
  | 21 => some (.faddB2 d a b)
  | 22 => some (.fmulB2 d a b)
  | 23 => some (.ffmaB2 d a b)
  | 24 => some (.faddH2 d a b)
  | 25 => some (.fmulH2 d a b)
  | 26 => some (.ffmaH2 d a b)
  | 27 => some (.fmaxB2 d a b)
  | 28 => some (.fminB2 d a b)
  | _ => none

/-- Class 0x5, format R. -/
def decode5 (d a b : F7) : Nat → Option Instr
  | 0 => unused (b) (.cvtFS d a)
  | 1 => unused (b) (.cvtFZ d a)
  | 2 => unused (b) (.cvtSF d a)
  | 3 => unused (b) (.cvtZF d a)
  | 4 => some (.cvtB2F d a b)
  | 5 => some (.cvtH2F d a b)
  | 6 => some (.cvtFB2 d a b)
  | 7 => some (.cvtFH2 d a b)
  | 8 => some (.cvtNF d a b)
  | 9 => some (.cvtFN d a b)
  | 10 => some (.vpack4 d a b)
  | 11 => some (.vunpk4 d a b)
  | 12 => unused (b) (.fexp2 d a)
  | 13 => unused (b) (.flog2 d a)
  | 14 => unused (b) (.frsqrt d a)
  | 15 => unused (b) (.fsinpi d a)
  | 16 => unused (b) (.fcospi d a)
  | 17 => unused (b) (.ftanh d a)
  | 18 => unused (b) (.fsigm d a)
  | 19 => some (.vshflIdx d a b)
  | 20 => some (.vshflUp d a b)
  | 21 => some (.vshflDn d a b)
  | 22 => some (.vshflXor d a b)
  | 23 => unused (b) (.vredAdd d a)
  | 24 => unused (b) (.vredMinS d a)
  | 25 => unused (b) (.vredMaxS d a)
  | 26 => unused (b) (.vredMinZ d a)
  | 27 => unused (b) (.vredMaxZ d a)
  | 28 => unused (b) (.vredAnd d a)
  | 29 => unused (b) (.vredOr d a)
  | 30 => unused (b) (.vredXor d a)
  | 31 => unused (b) (.vredFadd d a)
  | 32 => unused (b) (.vredFmin d a)
  | 33 => unused (b) (.vredFmax d a)
  | 34 => unused (b) (.vargminS d a)
  | 35 => unused (b) (.vargminZ d a)
  | 36 => unused (b) (.vargmaxS d a)
  | 37 => unused (b) (.vargmaxZ d a)
  | 38 => unused (b) (.vscanAdd d a)
  | 39 => unused (b) (.vscanFadd d a)
  | 40 => unused (b) (.vballot d a)
  | 41 => unused (b) (.vany d a)
  | 42 => unused (b) (.vall d a)
  | 43 => unused (b) (.smovsr d a)
  | 44 => unused (b) (.vmovsr d a)
  | _ => none

/-- Class 0x6, format B. -/
def decode6 (a : F7) (p : BitVec 4) (o : BitVec 14) : Nat → Option Instr
  | 0 => some (.bnz a p o)
  | 1 => some (.bz a p o)
  | 2 => some (.bsnz a p o)
  | 3 => some (.bsz a p o)
  | 4 => unused (a) (.bra p o)
  | 5 => unused (a) (.calli p o)
  | _ => none

/-- Class 0x7, format R. -/
def decode7 (d a b : F7) : Nat → Option Instr
  | 0 => unused (b) (.callv d a)
  | 1 => unused (b) (.calls d a)
  | 2 => unused (d ||| a ||| b) .ret
  | 3 => unused (d ||| a ||| b) .exit
  | 4 => unused (b) (.jmpv d a)
  | 5 => unused (b) (.rjset d a)
  | 6 => unused (b) (.rjsetm d a)
  | 7 => unused (a ||| b) (.rjenter d)
  | 8 => unused (a ||| b) (.rjquit d)
  | 9 => unused (a ||| b) (.rjwait d)
  | 10 => some (.rjget d a b)
  | 11 => unused (d ||| a ||| b) .yield
  | 12 => unused (d ||| b) (.setprio a)
  | 13 => unused (d ||| b) (.wbase a)
  | 14 => unused (d ||| a ||| b) .nop
  | 15 => unused (d ||| b) (.brk a)
  | 16 => unused (d ||| b) (.trap a)
  | 17 => unused (d ||| b) (.frnd a)
  | _ => none

/-- Class 0x8, format M. -/
def decode8 (d a : F7) (c : BitVec 5) (i : BitVec 6) : Nat → Option Instr
  | 0 => some (.vldBZ d a c i)
  | 1 => some (.vldBS d a c i)
  | 2 => some (.vldHZ d a c i)
  | 3 => some (.vldHS d a c i)
  | 4 => some (.vldW d a c i)
  | 5 => some (.vldD d a c i)
  | 6 => some (.vldQ d a c i)
  | 7 => some (.vldbc d a c i)
  | _ => none

/-- Class 0x9, format M. -/
def decode9 (d a : F7) (c : BitVec 5) (i : BitVec 6) : Nat → Option Instr
  | 0 => some (.vstB d a c i)
  | 1 => some (.vstH d a c i)
  | 2 => some (.vstW d a c i)
  | 3 => some (.vstD d a c i)
  | 4 => some (.vstQ d a c i)
  | _ => none

/-- Class 0xa, format M. -/
def decode10 (d a : F7) (c : BitVec 5) (i : BitVec 6) : Nat → Option Instr
  | 0 => some (.sldD d a c i)
  | 1 => some (.sldWS d a c i)
  | 2 => some (.sldWZ d a c i)
  | 3 => some (.sstD d a c i)
  | 4 => some (.sstW d a c i)
  | 5 => some (.cld d a c i)
  | 6 => some (.cst d a c i)
  | _ => none

/-- Class 0xb, format A. -/
def decode11 (d a : F7) (c b : BitVec 5) : Nat → Option Instr
  | 0 => some (.aadd d a c b)
  | 1 => some (.aminS d a c b)
  | 2 => some (.amaxS d a c b)
  | 3 => some (.aminZ d a c b)
  | 4 => some (.amaxZ d a c b)
  | 5 => some (.aand d a c b)
  | 6 => some (.aor d a c b)
  | 7 => some (.axor d a c b)
  | 8 => some (.axchg d a c b)
  | 9 => some (.acas d a c b)
  | 10 => some (.afadd d a c b)
  | 11 => some (.saadd d a c b)
  | 12 => some (.sacas d a c b)
  | _ => none

/-- Class 0xc, format R. -/
noncomputable def decode12 (d a b : F7) : Nat → Option Instr
  | 0 => unused (d ||| b) (.fpub a)
  | 1 => unused (d ||| b) (.fsys a)
  | 2 => unused (d) (.tbinit a b)
  | 3 => some (.tbarrive d a b)
  | 4 => unused (d) (.tbwait a b)
  | 5 => some (.tbtest d a b)
  | 6 => unused (d ||| b) (.teambar a)
  | 7 => unused (d ||| b) (.lvlbar a)
  | 8 => unused (b) (.send d a)
  | 9 => unused (b) (.recv d a)
  | 10 => unused (b) (.qstat d a)
  | 11 => unused (d ||| b) (.tmwait a)
  | 12 => some (.svc d a b)
  | 13 => unused (d ||| b) (.icinv a)
  | 14 => some (.bclaim d a b)
  | 15 => some (.bflow d a b)
  | 16 => unused (a ||| b) (.bseal d)
  | 17 => unused (d ||| b) (.bwait a)
  | 18 => unused (d ||| b) (.brelease a)
  | 19 => unused (b) (.bstat d a)
  | 20 => some (.coll d a b)
  | 21 => unused (d) (.rprio a b)
  | 22 => unused (d ||| b) (.rdemote a)
  | 23 => unused (d) (.rpromote a b)
  | 24 => unused (b) (.rquery d a)
  | _ => none

/-- Class 0xd, format R. -/
noncomputable def decode13 (d a b : F7) : Nat → Option Instr
  | 0 => unused (d) (.tset a b)
  | 1 => some (.tget d a b)
  | 2 => unused (b) (.gset d a)
  | 3 => some (.mmx d a b)
  | 4 => some (.mmxz d a b)
  | 5 => some (.accrd d a b)
  | 6 => some (.accadd d a b)
  | 7 => unused (d) (.accclr a b)
  | 8 => unused (b) (.tsum d a)
  | 16 => some (.cderive d a b)
  | 17 => unused (b) (.cmov d a)
  | 18 => unused (b) (.cbase d a)
  | 19 => unused (b) (.clen d a)
  | 20 => unused (b) (.crights d a)
  | 21 => unused (b) (.ckind d a)
  | 22 => unused (b) (.cvalid d a)
  | 23 => unused (a ||| b) (.cclear d)
  | _ => none

/-- Class 0xe, format R. -/
noncomputable def decode14 (d a b : F7) : Nat → Option Instr
  | 0 => unused (d) (.bmode a b)
  | 1 => unused (d) (.bfill a b)
  | 2 => unused (d ||| a ||| b) .bsplit
  | 3 => unused (d ||| a ||| b) .babandon
  | 4 => unused (b) (.blo d a)
  | 5 => unused (b) (.bhi d a)
  | 6 => some (.bhull d a b)
  | 7 => some (.bwiden d a b)
  | 8 => some (.tld d a b)
  | 9 => some (.tst d a b)
  | 10 => unused (d ||| b) (.mark a)
  | 32 => unused (d ||| a ||| b) .rti
  | 33 => unused (d ||| b) (.hcall a)
  | 34 => unused (b) (.mfsr d a)
  | 35 => unused (d) (.mtsr a b)
  | 36 => unused (d) (.otinv a b)
  | 37 => unused (d) (.otswap a b)
  | 38 => unused (d ||| b) (.keyrev a)
  | 39 => unused (d ||| b) (.ctxstop a)
  | 40 => unused (d ||| b) (.ctxresume a)
  | 41 => unused (d ||| b) (.ctxkill a)
  | 42 => unused (d ||| b) (.frpush a)
  | 43 => unused (d ||| a ||| b) .halt
  | _ => none

/-- The instruction of a 32-bit word (R147 steps 1 to 3). -/
noncomputable def decodeWord (w : W32) : Option Instr :=
  let d := w.extractLsb' 21 7
  let a := w.extractLsb' 14 7
  let b := w.extractLsb' 7 7
  let f := (w.extractLsb' 0 7).toNat
  let f4 := (w.extractLsb' 10 4).toNat
  let f3 := (w.extractLsb' 6 3).toNat
  let c := w.extractLsb' 9 5
  let i10 := w.extractLsb' 0 10
  let i6 := w.extractLsb' 0 6
  match (w.extractLsb' 28 4).toNat with
  | 0 => decode0 d a b f
  | 1 => decode1 d a i10 f4
  | 2 => decode2 d a i10 f4
  | 3 => decode3 d (w.extractLsb' 0 19) (w.extractLsb' 19 2).toNat
  | 4 => decode4 d a b f
  | 5 => decode5 d a b f
  | 6 => decode6 d (w.extractLsb' 14 4) (w.extractLsb' 0 14) (w.extractLsb' 18 3).toNat
  | 7 => decode7 d a b f
  | 8 => decode8 d a c i6 f3
  | 9 => decode9 d a c i6 f3
  | 10 => decode10 d a c i6 f3
  | 11 => decode11 d a c (w.extractLsb' 0 5) (w.extractLsb' 5 4).toNat
  | 12 => decode12 d a b f
  | 13 => decode13 d a b f
  | 14 => decode14 d a b f
  | _ => none

/-- The instruction at the head of a byte stream, little-endian (R5, R138), and the bytes after it. -/
noncomputable def decode : List Byte → Option (Instr × List Byte)
  | b0 :: b1 :: b2 :: b3 :: rest => (decodeWord (BitVec.ofNat 32 (Machine.ofBytes [b0, b1, b2, b3]))).map (·, rest)
  | _ => none

/-- The word of an instruction (R143, R148); none for a row of the table that has no encoding. -/
def encode (i : Instr) : Option W32 :=
  match i with
  | .vadd d a b => some (encR 0 0 d a b)
  | .vsub d a b => some (encR 0 1 d a b)
  | .vmul d a b => some (encR 0 2 d a b)
  | .vmulhS d a b => some (encR 0 3 d a b)
  | .vmulhZ d a b => some (encR 0 4 d a b)
  | .vmad d a b => some (encR 0 5 d a b)
  | .vminS d a b => some (encR 0 6 d a b)
  | .vminZ d a b => some (encR 0 7 d a b)
  | .vmaxS d a b => some (encR 0 8 d a b)
  | .vmaxZ d a b => some (encR 0 9 d a b)
  | .vaddsS d a b => some (encR 0 10 d a b)
  | .vaddsZ d a b => some (encR 0 11 d a b)
  | .vsubsS d a b => some (encR 0 12 d a b)
  | .vsubsZ d a b => some (encR 0 13 d a b)
  | .vdivS d a b => some (encR 0 14 d a b)
  | .vdivZ d a b => some (encR 0 15 d a b)
  | .vremS d a b => some (encR 0 16 d a b)
  | .vremZ d a b => some (encR 0 17 d a b)
  | .vand d a b => some (encR 0 18 d a b)
  | .vor d a b => some (encR 0 19 d a b)
  | .vxor d a b => some (encR 0 20 d a b)
  | .vandn d a b => some (encR 0 21 d a b)
  | .vsel d a b => some (encR 0 22 d a b)
  | .vshl d a b => some (encR 0 23 d a b)
  | .vshrZ d a b => some (encR 0 24 d a b)
  | .vshrS d a b => some (encR 0 25 d a b)
  | .vrotl d a b => some (encR 0 26 d a b)
  | .vpopc d a => some (encR 0 27 d a 0)
  | .vclz d a => some (encR 0 28 d a 0)
  | .vbrev d a => some (encR 0 29 d a 0)
  | .vbfxZ d a b => some (encR 0 30 d a b)
  | .vbfxS d a b => some (encR 0 31 d a b)
  | .vbfi d a b => some (encR 0 32 d a b)
  | .vcmpEq d a b => some (encR 0 33 d a b)
  | .vcmpNe d a b => some (encR 0 34 d a b)
  | .vcmpLtS d a b => some (encR 0 35 d a b)
  | .vcmpLtZ d a b => some (encR 0 36 d a b)
  | .vcmpLeS d a b => some (encR 0 37 d a b)
  | .vcmpLeZ d a b => some (encR 0 38 d a b)
  | .vmov d a => some (encR 0 39 d a 0)
  | .vbcast d a => some (encR 0 40 d a 0)
  | .vext d a b => some (encR 0 41 d a b)
  | .vins d a b => some (encR 0 42 d a b)
  | .sadd d a b => some (encR 0 64 d a b)
  | .ssub d a b => some (encR 0 65 d a b)
  | .smul d a b => some (encR 0 66 d a b)
  | .smulhS d a b => some (encR 0 67 d a b)
  | .smulhZ d a b => some (encR 0 68 d a b)
  | .sminS d a b => some (encR 0 69 d a b)
  | .sminZ d a b => some (encR 0 70 d a b)
  | .smaxS d a b => some (encR 0 71 d a b)
  | .smaxZ d a b => some (encR 0 72 d a b)
  | .sdivS d a b => some (encR 0 73 d a b)
  | .sdivZ d a b => some (encR 0 74 d a b)
  | .sremS d a b => some (encR 0 75 d a b)
  | .sremZ d a b => some (encR 0 76 d a b)
  | .sand d a b => some (encR 0 77 d a b)
  | .sor d a b => some (encR 0 78 d a b)
  | .sxor d a b => some (encR 0 79 d a b)
  | .sandn d a b => some (encR 0 80 d a b)
  | .sshl d a b => some (encR 0 81 d a b)
  | .sshrZ d a b => some (encR 0 82 d a b)
  | .sshrS d a b => some (encR 0 83 d a b)
  | .spopc d a => some (encR 0 84 d a 0)
  | .sclz d a => some (encR 0 85 d a 0)
  | .scmpEq d a b => some (encR 0 86 d a b)
  | .scmpNe d a b => some (encR 0 87 d a b)
  | .scmpLtS d a b => some (encR 0 88 d a b)
  | .scmpLtZ d a b => some (encR 0 89 d a b)
  | .scmpLeS d a b => some (encR 0 90 d a b)
  | .scmpLeZ d a b => some (encR 0 91 d a b)
  | .smov d a => some (encR 0 92 d a 0)
  | .ssel d a b => some (encR 0 93 d a b)
  | .vaddi d a i => some (encI 1 0 d a i)
  | .vmuli d a i => some (encI 1 1 d a i)
  | .vandi d a i => some (encI 1 2 d a i)
  | .vori d a i => some (encI 1 3 d a i)
  | .vxori d a i => some (encI 1 4 d a i)
  | .vshli d a i => some (encI 1 5 d a i)
  | .vshriZ d a i => some (encI 1 6 d a i)
  | .vshriS d a i => some (encI 1 7 d a i)
  | .vcmpiEq d a i => some (encI 1 8 d a i)
  | .vcmpiLtS d a i => some (encI 1 9 d a i)
  | .vcmpiLtZ d a i => some (encI 1 10 d a i)
  | .vminiS d a i => some (encI 1 11 d a i)
  | .vmaxiS d a i => some (encI 1 12 d a i)
  | .saddi d a i => some (encI 2 0 d a i)
  | .smuli d a i => some (encI 2 1 d a i)
  | .sandi d a i => some (encI 2 2 d a i)
  | .sori d a i => some (encI 2 3 d a i)
  | .sxori d a i => some (encI 2 4 d a i)
  | .sshli d a i => some (encI 2 5 d a i)
  | .sshriZ d a i => some (encI 2 6 d a i)
  | .sshriS d a i => some (encI 2 7 d a i)
  | .scmpiEq d a i => some (encI 2 8 d a i)
  | .scmpiLtS d a i => some (encI 2 9 d a i)
  | .scmpiLtZ d a i => some (encI 2 10 d a i)
  | .sminiS d a i => some (encI 2 11 d a i)
  | .smaxiS d a i => some (encI 2 12 d a i)
  | .vmovi d i => some (encL 3 0 d i)
  | .vmovhi d i => some (encL 3 1 d i)
  | .smovi d i => some (encL 3 2 d i)
  | .smovhi d i => some (encL 3 3 d i)
  | .fadd d a b => some (encR 4 0 d a b)
  | .fsub d a b => some (encR 4 1 d a b)
  | .fmul d a b => some (encR 4 2 d a b)
  | .ffma d a b => some (encR 4 3 d a b)
  | .fmin d a b => some (encR 4 4 d a b)
  | .fmax d a b => some (encR 4 5 d a b)
  | .fabs d a => some (encR 4 6 d a 0)
  | .fneg d a => some (encR 4 7 d a 0)
  | .fdiv d a b => some (encR 4 8 d a b)
  | .fsqrt d a => some (encR 4 9 d a 0)
  | .frcp d a => some (encR 4 10 d a 0)
  | .fcmpEq d a b => some (encR 4 11 d a b)
  | .fcmpLt d a b => some (encR 4 12 d a b)
  | .fcmpLe d a b => some (encR 4 13 d a b)
  | .fcmpUn d a b => some (encR 4 14 d a b)
  | .fclass d a => some (encR 4 15 d a 0)
  | .fscale d a b => some (encR 4 16 d a b)
  | .ffloor d a => some (encR 4 17 d a 0)
  | .fceil d a => some (encR 4 18 d a 0)
  | .ftrunc d a => some (encR 4 19 d a 0)
  | .frint d a => some (encR 4 20 d a 0)
  | .faddB2 d a b => some (encR 4 21 d a b)
  | .fmulB2 d a b => some (encR 4 22 d a b)
  | .ffmaB2 d a b => some (encR 4 23 d a b)
  | .faddH2 d a b => some (encR 4 24 d a b)
  | .fmulH2 d a b => some (encR 4 25 d a b)
  | .ffmaH2 d a b => some (encR 4 26 d a b)
  | .fmaxB2 d a b => some (encR 4 27 d a b)
  | .fminB2 d a b => some (encR 4 28 d a b)
  | .cvtFS d a => some (encR 5 0 d a 0)
  | .cvtFZ d a => some (encR 5 1 d a 0)
  | .cvtSF d a => some (encR 5 2 d a 0)
  | .cvtZF d a => some (encR 5 3 d a 0)
  | .cvtB2F d a b => some (encR 5 4 d a b)
  | .cvtH2F d a b => some (encR 5 5 d a b)
  | .cvtFB2 d a n => some (encR 5 6 d a n)
  | .cvtFH2 d a n => some (encR 5 7 d a n)
  | .cvtNF d a b => some (encR 5 8 d a b)
  | .cvtFN d a b => some (encR 5 9 d a b)
  | .vpack4 d a n => some (encR 5 10 d a n)
  | .vunpk4 d a n => some (encR 5 11 d a n)
  | .fexp2 d a => some (encR 5 12 d a 0)
  | .flog2 d a => some (encR 5 13 d a 0)
  | .frsqrt d a => some (encR 5 14 d a 0)
  | .fsinpi d a => some (encR 5 15 d a 0)
  | .fcospi d a => some (encR 5 16 d a 0)
  | .ftanh d a => some (encR 5 17 d a 0)
  | .fsigm d a => some (encR 5 18 d a 0)
  | .vshflIdx d a b => some (encR 5 19 d a b)
  | .vshflUp d a b => some (encR 5 20 d a b)
  | .vshflDn d a b => some (encR 5 21 d a b)
  | .vshflXor d a b => some (encR 5 22 d a b)
  | .vredAdd d a => some (encR 5 23 d a 0)
  | .vredMinS d a => some (encR 5 24 d a 0)
  | .vredMaxS d a => some (encR 5 25 d a 0)
  | .vredMinZ d a => some (encR 5 26 d a 0)
  | .vredMaxZ d a => some (encR 5 27 d a 0)
  | .vredAnd d a => some (encR 5 28 d a 0)
  | .vredOr d a => some (encR 5 29 d a 0)
  | .vredXor d a => some (encR 5 30 d a 0)
  | .vredFadd d a => some (encR 5 31 d a 0)
  | .vredFmin d a => some (encR 5 32 d a 0)
  | .vredFmax d a => some (encR 5 33 d a 0)
  | .vargminS d a => some (encR 5 34 d a 0)
  | .vargminZ d a => some (encR 5 35 d a 0)
  | .vargmaxS d a => some (encR 5 36 d a 0)
  | .vargmaxZ d a => some (encR 5 37 d a 0)
  | .vscanAdd d a => some (encR 5 38 d a 0)
  | .vscanFadd d a => some (encR 5 39 d a 0)
  | .vballot d a => some (encR 5 40 d a 0)
  | .vany d a => some (encR 5 41 d a 0)
  | .vall d a => some (encR 5 42 d a 0)
  | .smovsr d n => some (encR 5 43 d n 0)
  | .vmovsr d n => some (encR 5 44 d n 0)
  | .bnz a p o => some (encB 6 0 a p o)
  | .bz a p o => some (encB 6 1 a p o)
  | .bsnz a p o => some (encB 6 2 a p o)
  | .bsz a p o => some (encB 6 3 a p o)
  | .bra p o => some (encB 6 4 0 p o)
  | .calli p o => some (encB 6 5 0 p o)
  | .callv d a => some (encR 7 0 d a 0)
  | .calls d a => some (encR 7 1 d a 0)
  | .ret => some (encR 7 2 0 0 0)
  | .exit => some (encR 7 3 0 0 0)
  | .jmpv d a => some (encR 7 4 d a 0)
  | .rjset d a => some (encR 7 5 d a 0)
  | .rjsetm d a => some (encR 7 6 d a 0)
  | .rjenter d => some (encR 7 7 d 0 0)
  | .rjquit d => some (encR 7 8 d 0 0)
  | .rjwait d => some (encR 7 9 d 0 0)
  | .rjget d a n => some (encR 7 10 d a n)
  | .yield => some (encR 7 11 0 0 0)
  | .setprio n => some (encR 7 12 0 n 0)
  | .wbase n => some (encR 7 13 0 n 0)
  | .nop => some (encR 7 14 0 0 0)
  | .brk n => some (encR 7 15 0 n 0)
  | .trap n => some (encR 7 16 0 n 0)
  | .frnd n => some (encR 7 17 0 n 0)
  | .vldBZ d a c i => some (encM 8 0 d a c i)
  | .vldBS d a c i => some (encM 8 1 d a c i)
  | .vldHZ d a c i => some (encM 8 2 d a c i)
  | .vldHS d a c i => some (encM 8 3 d a c i)
  | .vldW d a c i => some (encM 8 4 d a c i)
  | .vldD d a c i => some (encM 8 5 d a c i)
  | .vldQ d a c i => some (encM 8 6 d a c i)
  | .vldbc d a c i => some (encM 8 7 d a c i)
  | .vstB d a c i => some (encM 9 0 d a c i)
  | .vstH d a c i => some (encM 9 1 d a c i)
  | .vstW d a c i => some (encM 9 2 d a c i)
  | .vstD d a c i => some (encM 9 3 d a c i)
  | .vstQ d a c i => some (encM 9 4 d a c i)
  | .sldD d a c i => some (encM 10 0 d a c i)
  | .sldWS d a c i => some (encM 10 1 d a c i)
  | .sldWZ d a c i => some (encM 10 2 d a c i)
  | .sstD d a c i => some (encM 10 3 d a c i)
  | .sstW d a c i => some (encM 10 4 d a c i)
  | .cld d a c i => some (encM 10 5 d a c i)
  | .cst d a c i => some (encM 10 6 d a c i)
  | .aadd d a c b => some (encA 11 0 d a c b)
  | .aminS d a c b => some (encA 11 1 d a c b)
  | .amaxS d a c b => some (encA 11 2 d a c b)
  | .aminZ d a c b => some (encA 11 3 d a c b)
  | .amaxZ d a c b => some (encA 11 4 d a c b)
  | .aand d a c b => some (encA 11 5 d a c b)
  | .aor d a c b => some (encA 11 6 d a c b)
  | .axor d a c b => some (encA 11 7 d a c b)
  | .axchg d a c b => some (encA 11 8 d a c b)
  | .acas d a c b => some (encA 11 9 d a c b)
  | .afadd d a c b => some (encA 11 10 d a c b)
  | .saadd d a c b => some (encA 11 11 d a c b)
  | .sacas d a c b => some (encA 11 12 d a c b)
  | .fpub n => some (encR 12 0 0 n 0)
  | .fsys n => some (encR 12 1 0 n 0)
  | .tbinit a b => some (encR 12 2 0 a b)
  | .tbarrive d a b => some (encR 12 3 d a b)
  | .tbwait a b => some (encR 12 4 0 a b)
  | .tbtest d a b => some (encR 12 5 d a b)
  | .teambar n => some (encR 12 6 0 n 0)
  | .lvlbar n => some (encR 12 7 0 n 0)
  | .send d a => some (encR 12 8 d a 0)
  | .recv d a => some (encR 12 9 d a 0)
  | .qstat d a => some (encR 12 10 d a 0)
  | .tmwait a => some (encR 12 11 0 a 0)
  | .svc d a n => some (encR 12 12 d a n)
  | .icinv n => some (encR 12 13 0 n 0)
  | .bclaim d a b => some (encR 12 14 d a b)
  | .bflow d a b => some (encR 12 15 d a b)
  | .bseal d => some (encR 12 16 d 0 0)
  | .bwait a => some (encR 12 17 0 a 0)
  | .brelease a => some (encR 12 18 0 a 0)
  | .bstat d a => some (encR 12 19 d a 0)
  | .coll d a b => some (encR 12 20 d a b)
  | .rprio a b => some (encR 12 21 0 a b)
  | .rdemote a => some (encR 12 22 0 a 0)
  | .rpromote a b => some (encR 12 23 0 a b)
  | .rquery d a => some (encR 12 24 d a 0)
  | .tset a b => some (encR 13 0 0 a b)
  | .tget d a n => some (encR 13 1 d a n)
  | .gset d a => some (encR 13 2 d a 0)
  | .mmx d a b => some (encR 13 3 d a b)
  | .mmxz d a b => some (encR 13 4 d a b)
  | .accrd d a b => some (encR 13 5 d a b)
  | .accadd d a b => some (encR 13 6 d a b)
  | .accclr a b => some (encR 13 7 0 a b)
  | .tsum d a => some (encR 13 8 d a 0)
  | .cderive d a b => some (encR 13 16 d a b)
  | .cmov d a => some (encR 13 17 d a 0)
  | .cbase d a => some (encR 13 18 d a 0)
  | .clen d a => some (encR 13 19 d a 0)
  | .crights d a => some (encR 13 20 d a 0)
  | .ckind d a => some (encR 13 21 d a 0)
  | .cvalid d a => some (encR 13 22 d a 0)
  | .cclear d => some (encR 13 23 d 0 0)
  | .bmode a b => some (encR 14 0 0 a b)
  | .bfill a b => some (encR 14 1 0 a b)
  | .bsplit => some (encR 14 2 0 0 0)
  | .babandon => some (encR 14 3 0 0 0)
  | .blo d a => some (encR 14 4 d a 0)
  | .bhi d a => some (encR 14 5 d a 0)
  | .bhull d a b => some (encR 14 6 d a b)
  | .bwiden d a b => some (encR 14 7 d a b)
  | .tld d a b => some (encR 14 8 d a b)
  | .tst d a b => some (encR 14 9 d a b)
  | .mark n => some (encR 14 10 0 n 0)
  | .rti => some (encR 14 32 0 0 0)
  | .hcall n => some (encR 14 33 0 n 0)
  | .mfsr d n => some (encR 14 34 d n 0)
  | .mtsr n b => some (encR 14 35 0 n b)
  | .otinv a b => some (encR 14 36 0 a b)
  | .otswap a b => some (encR 14 37 0 a b)
  | .keyrev a => some (encR 14 38 0 a 0)
  | .ctxstop a => some (encR 14 39 0 a 0)
  | .ctxresume a => some (encR 14 40 0 a 0)
  | .ctxkill a => some (encR 14 41 0 a 0)
  | .frpush a => some (encR 14 42 0 a 0)
  | .halt => some (encR 14 43 0 0 0)
  | .variableLatencyResult _ _ => none
  | .operandLogReplay _ => none
  | .orphanedSet _ => none
  | .flowEnd _ => none
  | .tsumEnd _ => none
  | .rendezvous _ _ => none
  | .matrixOperationEnd _ => none
  | .gangOrphaned _ => none
  | .barrierTimeout _ => none
  | .watchdog _ => none
  | .tmwaitExpiry _ => none
  | .svcReply _ _ => none
  | .hcallReply _ _ _ => none
  | .boundsEvaluation _ => none
  | .tileIssueLimit _ => none
  | .settledDispatch _ => none
  | .elementDispatch _ => none
  | .fill _ => none
  | .roundStart _ => none
  | .roundDone _ _ => none
  | .timeout _ => none
  | .residencyMove _ _ => none
  | .softfault _ => none
  | .hotness _ => none
  | .resolve _ => none
  | .hotclr _ _ => none
  | .launch _ _ => none
  | .tlaunch _ _ => none
  | .tlaunchTick _ _ => none
  | .placement _ _ => none
  | .launchRetirement _ => none
  | .semwait _ _ => none
  | .semwaitLoad _ _ => none
  | .semsignal _ _ => none
  | .flush _ _ => none
  | .capwrite _ _ => none
  | .ctxstopPacket => none
  | .ctxresumePacket => none
  | .ctxkillPacket => none
  | .otinvPacket => none
  | .otswapPacket => none
  | .keyrevPacket => none
  | .frames => none
  | .create => none
  | .destroy => none
  | .keyload => none
  | .keyfree => none
  | .doorbell _ _ => none
  | .enableSet _ => none
  | .enableClear _ => none
  | .errorClear _ => none
  | .registerWrite _ _ _ _ => none
  | .engineStop _ _ _ => none
  | .activation _ => none
  | .snapshotRollback _ => none
  | .hostAccess _ _ _ _ _ => none
  | .hostSnoop _ _ _ => none
  | .peerAccess _ _ _ _ _ => none
  | .windowRequest _ _ _ _ _ _ _ _ => none
  | .atomicopCompletion _ _ => none
  | .serviceReply _ => none
  | .hostWriteRejected _ => none
  | .tdiLeavesRun _ _ => none
  | .spdmSessionEnd _ => none
  | .heartbeatTimeout _ => none
  | .flr _ => none
  | .portTraining _ _ _ _ => none
  | .flit _ _ => none
  | .linkLoss _ _ => none
  | .timebaseFlit _ _ _ _ _ => none
  | .timebaseUnlocked => none
  | .winctl _ _ _ => none
  | .windowRevocationDone _ => none
  | .release _ _ _ _ => none
  | .step _ _ _ _ => none
  | .sampctl _ _ => none
  | .sample _ => none
  | .powerOn _ => none
  | .targetQ0 => none
  | .targetQ1 => none
  | .targetQ2 => none
  | .targetQ3 => none
  | .targetQ4 => none
  | .powerStateChangeDone => none
  | .thermalTrip _ => none
  | .thermtripClear _ => none
  | .tdispRequest _ _ => none
  | .spdmRequest _ _ => none
  | .hostLinkRetraining => none
  | .portDown _ => none
  | .scrub _ _ => none
  | .powerRemoval => none

/-- The bytes of an instruction as memory holds them. -/
def encodeBytes (i : Instr) : Option (List Byte) := (encode i).map (fun w => Machine.toBytes 4 w.toNat)

/-- What the decoder reads from an instruction of the table whose bits are w. -/
noncomputable
def decodeTableWord (nbits w : Nat) : Option Instr := (decode (Machine.toBytes 4 (w % 2 ^ nbits))).map (·.1)

end Sys2Proof
end

