-- ==== Sys2Proof/Machine/Alu.lean ====
section
/-! DEFINITION. Integer arithmetic (spec/10_ref_integer_control.md R154 to R162): operands to integers, the exact result, the narrowing. -/

namespace Sys2Proof.Machine

/-- Clamp an integer into the signed range of w bits. -/
def clampS (w : Nat) (x : Int) : BitVec w := BitVec.ofInt w (max (-(2 ^ (w - 1))) (min x (2 ^ (w - 1) - 1)))

/-- Clamp an integer into the unsigned range of w bits. -/
def clampZ (w : Nat) (x : Int) : BitVec w := BitVec.ofInt w (max 0 (min x (2 ^ w - 1)))

def addSatS {w : Nat} (x y : BitVec w) : BitVec w := clampS w (x.toInt + y.toInt)
def addSatZ {w : Nat} (x y : BitVec w) : BitVec w := clampZ w (x.toNat + y.toNat)
def subSatS {w : Nat} (x y : BitVec w) : BitVec w := clampS w (x.toInt - y.toInt)
def subSatZ {w : Nat} (x y : BitVec w) : BitVec w := clampZ w ((x.toNat : Int) - y.toNat)

/-- The high half of the exact product. -/
def mulHiS {w : Nat} (x y : BitVec w) : BitVec w := BitVec.ofInt w (x.toInt * y.toInt / 2 ^ w)
def mulHiZ {w : Nat} (x y : BitVec w) : BitVec w := BitVec.ofNat w (x.toNat * y.toNat / 2 ^ w)

def minS {w : Nat} (x y : BitVec w) : BitVec w := if x.toInt ≤ y.toInt then x else y
def maxS {w : Nat} (x y : BitVec w) : BitVec w := if x.toInt ≤ y.toInt then y else x
def minZ {w : Nat} (x y : BitVec w) : BitVec w := if x.toNat ≤ y.toNat then x else y
def maxZ {w : Nat} (x y : BitVec w) : BitVec w := if x.toNat ≤ y.toNat then y else x

/-- The division rule of R154: x/0 is all ones; the overflowing quotient wraps to MIN; otherwise truncated toward zero. -/
def divS {w : Nat} (x y : BitVec w) : BitVec w := if y = 0 then BitVec.allOnes w else BitVec.ofInt w (x.toInt.tdiv y.toInt)
def divZ {w : Nat} (x y : BitVec w) : BitVec w := if y = 0 then BitVec.allOnes w else BitVec.ofNat w (x.toNat / y.toNat)

/-- The remainder of R154: x for division by 0; otherwise of the sign of x, or 0. -/
def remS {w : Nat} (x y : BitVec w) : BitVec w := if y = 0 then x else BitVec.ofInt w (x.toInt.tmod y.toInt)
def remZ {w : Nat} (x y : BitVec w) : BitVec w := if y = 0 then x else BitVec.ofNat w (x.toNat % y.toNat)

/-- Shifts by an unsigned amount (R158, R160): the width or more leaves zeros, or copies of the sign. -/
def shl {w : Nat} (x : BitVec w) (n : Nat) : BitVec w := if w ≤ n then 0 else x <<< n
def shrZ {w : Nat} (x : BitVec w) (n : Nat) : BitVec w := if w ≤ n then 0 else x >>> n
def shrS {w : Nat} (x : BitVec w) (n : Nat) : BitVec w := if w ≤ n then (if x.msb then BitVec.allOnes w else 0) else x.sshiftRight n

/-- The leading 0 bits below n. -/
def clzAux {w : Nat} (x : BitVec w) : Nat → Nat
  | 0 => 0
  | n + 1 => if x.getLsbD n then 0 else 1 + clzAux x n

def popc {w : Nat} (x : BitVec w) : BitVec w := BitVec.ofNat w (popcount x w)
def clz {w : Nat} (x : BitVec w) : BitVec w := BitVec.ofNat w (clzAux x w)

/-- Bit i of the result is bit n - 1 - i of x, for the low n bits. -/
def brevAux (x : W32) : Nat → Nat
  | 0 => 0
  | n + 1 => brevAux x n + (if x.getLsbD (31 - n) then 2 ^ n else 0)

def brev (x : W32) : W32 := BitVec.ofNat 32 (brevAux x 32)

/-- The field operand of R156: position, length, mask. -/
def bfPos (y : W32) : Nat := field y 0 5
def bfLen (y : W32) : Nat := min (field y 8 6) (32 - bfPos y)
def bfMask (y : W32) : W32 := if bfLen y = 0 then 0 else BitVec.allOnes 32 >>> (32 - bfLen y)

def bfxZ (x y : W32) : W32 := (x >>> bfPos y) &&& bfMask y
def bfxS (x y : W32) : W32 :=
  if bfLen y = 0 then 0
  else if (bfxZ x y).getLsbD (bfLen y - 1) then bfxZ x y ||| ~~~(bfMask y) else bfxZ x y
def bfi (d x y : W32) : W32 := (d &&& ~~~(bfMask y <<< bfPos y)) ||| ((x &&& bfMask y) <<< bfPos y)

/-- Bitwise select by a mask (R159). -/
def bitSel {w : Nat} (d x y : BitVec w) : BitVec w := (d &&& x) ||| (~~~d &&& y)

/-- Sign-extended immediates (R161, R162). -/
def sx (w : Nat) {n : Nat} (i : BitVec n) : BitVec w := i.signExtend w

/-- `vmovhi` (R162). -/
def movHi32 (d : W32) (i : BitVec 19) : W32 := (i.setWidth 32 <<< (13 : Nat)) ||| (d &&& 0x1FFF)

/-- `smovhi` (R162). -/
def movHi64 (d : W64) (i : BitVec 19) : W64 := (sx 64 i <<< (19 : Nat)) ||| (d &&& 0x7FFFF)

end Sys2Proof.Machine
end

