-- ==== Sys2Proof/Machine/Fp.lean ====
section
/-! DEFINITION. Floating-point arithmetic (spec/05_number_formats.md R79 to R89): formats, exact values, the one rounding, special values.
An exact value is a sign, an integer and a power of two; every operation computes it exactly and rounds once. -/

namespace Sys2Proof.Machine

/-- The rounding modes of R87. -/
def rmRne : Nat := 0
def rmRtz : Nat := 1
def rmRdn : Nat := 2
def rmRup : Nat := 3

/-- A binary format: exponent bits and fraction bits (R79, R89). -/
structure FFmt where
  eb : Nat
  mb : Nat
  deriving DecidableEq, Repr

def fp32 : FFmt := ⟨8, 23⟩
def bf16 : FFmt := ⟨8, 7⟩
def fp16 : FFmt := ⟨5, 10⟩
def fp96 : FFmt := ⟨15, 80⟩

def FFmt.bias (f : FFmt) : Int := 2 ^ (f.eb - 1) - 1
/-- The code of infinity, without its sign. -/
def FFmt.infCode (f : FFmt) : Nat := (2 ^ f.eb - 1) * 2 ^ f.mb
/-- The sign bit. -/
def FFmt.signBit (f : FFmt) : Nat := 2 ^ (f.eb + f.mb)
/-- The canonical NaN (R80, R89): the top fraction bit alone, positive. -/
def FFmt.nanCode (f : FFmt) : Nat := f.infCode + 2 ^ (f.mb - 1)
/-- The exponent of the last place of a subnormal. -/
def FFmt.qmin (f : FFmt) : Int := 1 - f.bias - f.mb

/-- A floating-point value: NaN, an infinity by its sign, or (-1)^neg * m * 2^e. -/
inductive Fp where
  | nan
  | inf (neg : Bool)
  | fin (neg : Bool) (m : Nat) (e : Int)
  deriving DecidableEq, Repr

/-- The value of a code (R79, R89). -/
def FFmt.dec (f : FFmt) (x : Nat) : Fp :=
  let neg := decide (x / f.signBit % 2 = 1)
  let e := x / 2 ^ f.mb % 2 ^ f.eb
  let m := x % 2 ^ f.mb
  if e = 2 ^ f.eb - 1 then (if m = 0 then .inf neg else .nan)
  else if e = 0 then .fin neg m f.qmin
  else .fin neg (2 ^ f.mb + m) (f.qmin + (e - 1 : Nat))

/-- Does a fraction of a last place round the magnitude up? `odd` is the kept last bit; the fraction is rem / den, not 0. -/
def roundsUp (rm : Nat) (neg odd : Bool) (rem den : Nat) : Bool :=
  if rm = rmRne then decide (den < 2 * rem) || (decide (2 * rem = den) && odd)
  else if rm = rmRdn then neg
  else if rm = rmRup then !neg
  else false

/-- An integer multiple of 2^q nearest to m * 2^e in a mode: exact where e is not below q. -/
def roundAt (rm : Nat) (neg : Bool) (m : Nat) (e q : Int) : Nat :=
  if q ≤ e then m * 2 ^ (e - q).toNat
  else if m.log2 + 2 < q - e then (if m ≠ 0 ∧ roundsUp rm neg false 1 4 then 1 else 0)
  else
    let den := 2 ^ (q - e).toNat
    let kept := m / den
    let rem := m % den
    if rem ≠ 0 ∧ roundsUp rm neg (decide (kept % 2 = 1)) rem den then kept + 1 else kept

/-- The code of a rounded magnitude with mb fraction bits, last subnormal place qmin and no upper limit on the exponent: fraction bits below
the exponent field. -/
def roundCode (mb : Nat) (qmin : Int) (rm : Nat) (neg : Bool) (m : Nat) (e : Int) : Nat :=
  if m = 0 then 0
  else
    let q : Int := max qmin (m.log2 + e - mb)
    (q - qmin).toNat * 2 ^ mb + roundAt rm neg m e q

/-- Does an overflow give infinity in the mode (R85, IEEE)? -/
def overflowsToInf (rm : Nat) (neg : Bool) : Bool :=
  decide (rm = rmRne) || (decide (rm = rmRup) && !neg) || (decide (rm = rmRdn) && neg)

/-- The code of a value, rounded once (R80). -/
def FFmt.enc (f : FFmt) (rm : Nat) : Fp → Nat
  | .nan => f.nanCode
  | .inf neg => f.infCode + (if neg then f.signBit else 0)
  | .fin neg m e =>
    let c := roundCode f.mb f.qmin rm neg m e
    let c' := if f.infCode ≤ c then (if overflowsToInf rm neg then f.infCode else f.infCode - 1) else c
    c' + (if neg then f.signBit else 0)

/-! ### Exact operations (R179). A zero result of opposite signs takes its sign by the mode (R80). -/

def Fp.neg : Fp → Fp
  | .nan => .nan
  | .inf s => .inf (!s)
  | .fin s m e => .fin (!s) m e

def Fp.abs : Fp → Fp
  | .nan => .nan
  | .inf _ => .inf false
  | .fin _ m e => .fin false m e

def Fp.isNeg : Fp → Bool
  | .nan => false
  | .inf s => s
  | .fin s _ _ => s

def Fp.isNaN : Fp → Bool
  | .nan => true
  | _ => false

def Fp.isZero : Fp → Bool
  | .fin _ m _ => decide (m = 0)
  | _ => false

/-- The signed integer of a finite value at a power of two not above its own. -/
def signedAt (neg : Bool) (m : Nat) (e q : Int) : Int :=
  let x : Int := (m * 2 ^ (e - q).toNat : Nat)
  if neg then -x else x

def Fp.add (rm : Nat) : Fp → Fp → Fp
  | .nan, _ => .nan
  | _, .nan => .nan
  | .inf a, .inf b => if a = b then .inf a else .nan
  | .inf a, .fin _ _ _ => .inf a
  | .fin _ _ _, .inf b => .inf b
  | .fin a m e, .fin b n g =>
    let q := min e g
    let x := signedAt a m e q + signedAt b n g q
    if x = 0 then .fin (if a = b then a else decide (rm = rmRdn)) 0 q
    else .fin (decide (x < 0)) x.natAbs q

def Fp.mul : Fp → Fp → Fp
  | .nan, _ => .nan
  | _, .nan => .nan
  | .inf a, .inf b => .inf (a ^^ b)
  | .inf a, .fin b n _ => if n = 0 then .nan else .inf (a ^^ b)
  | .fin a m _, .inf b => if m = 0 then .nan else .inf (a ^^ b)
  | .fin a m e, .fin b n g => .fin (a ^^ b) (m * n) (e + g)

/-- A quotient, with so many bits that one sticky bit below them rounds as the exact value does in any format of at most `bits` places. -/
def quot (bits m : Nat) (e : Int) (n : Nat) (g : Int) : Nat × Int :=
  let k := bits + 4 + n.log2
  let q := m * 2 ^ k / n
  (2 * q + (if m * 2 ^ k % n = 0 then 0 else 1), e - g - k - 1)

def Fp.div (bits : Nat) : Fp → Fp → Fp
  | .nan, _ => .nan
  | _, .nan => .nan
  | .inf _, .inf _ => .nan
  | .inf a, .fin b _ _ => .inf (a ^^ b)
  | .fin a _ _, .inf b => .fin (a ^^ b) 0 0
  | .fin a m e, .fin b n g =>
    if n = 0 then (if m = 0 then .nan else .inf (a ^^ b))
    else .fin (a ^^ b) (quot bits m e n g).1 (quot bits m e n g).2

/-- The greatest r with r * r ≤ n, among r + numbers below 2^k. -/
def isqrtAux (n : Nat) : Nat → Nat → Nat
  | 0, r => r
  | k + 1, r => if (r + 2 ^ k) * (r + 2 ^ k) ≤ n then isqrtAux n k (r + 2 ^ k) else isqrtAux n k r

def isqrt (n : Nat) : Nat := isqrtAux n (n.log2 / 2 + 1) 0

/-- A square root with a sticky bit: at least `bits` + 2 places. -/
def rootOf (bits m : Nat) (e : Int) : Nat × Int :=
  let k : Nat := 2 * (bits + 2) + (if (e % 2 = 0) then 0 else 1)
  let n := m * 2 ^ k
  let r := isqrt n
  (2 * r + (if r * r = n then 0 else 1), (e - k) / 2 - 1)

def Fp.sqrt (bits : Nat) : Fp → Fp
  | .nan => .nan
  | .inf a => if a then .nan else .inf false
  | .fin a m e =>
    if m = 0 then .fin a 0 0
    else if a then .nan
    else .fin false (rootOf bits m e).1 (rootOf bits m e).2

/-- Round to an integral value in a mode; a zero result keeps the sign (R183). -/
def Fp.integral (rm : Nat) : Fp → Fp
  | .fin a m e => .fin a (roundAt rm a m e 0) 0
  | x => x

/-- x * 2^n (R183). -/
def Fp.scale (n : Int) : Fp → Fp
  | .fin a m e => .fin a m (e + n)
  | x => x

/-- The order of values: -1, 0, 1 for less, equal, greater; -0 and +0 are equal; none for NaN (R182). -/
def Fp.cmp : Fp → Fp → Option Int
  | .nan, _ => none
  | _, .nan => none
  | .inf a, .inf b => some (if a = b then 0 else if a then -1 else 1)
  | .inf a, .fin _ _ _ => some (if a then -1 else 1)
  | .fin _ _ _, .inf b => some (if b then 1 else -1)
  | .fin a m e, .fin b n g =>
    let x := signedAt a m e (min e g)
    let y := signedAt b n g (min e g)
    some (if x < y then -1 else if x = y then 0 else 1)

/-! ### Bit patterns -/

def isNaNCode (f : FFmt) (x : Nat) : Bool := decide (f.infCode < x % f.signBit)

/-- The order of R81 on non-NaN codes: -0 below +0. -/
def codeKey (f : FFmt) (x : Nat) : Int := if f.signBit ≤ x then -((x - f.signBit : Nat) : Int) - 1 else x

/-- R81: never rounded. -/
def minCode (f : FFmt) (x y : Nat) : Nat :=
  if isNaNCode f x then (if isNaNCode f y then f.nanCode else y)
  else if isNaNCode f y then x
  else if codeKey f x ≤ codeKey f y then x else y

def maxCode (f : FFmt) (x y : Nat) : Nat :=
  if isNaNCode f x then (if isNaNCode f y then f.nanCode else y)
  else if isNaNCode f y then x
  else if codeKey f x ≤ codeKey f y then y else x

/-! ### FP32 in a lane -/

def ofW (x : W32) : Fp := fp32.dec x.toNat
def toW (rm : Nat) (x : Fp) : W32 := BitVec.ofNat 32 (fp32.enc rm x)

def f32add (rm : Nat) (x y : W32) : W32 := toW rm (Fp.add rm (ofW x) (ofW y))
def f32sub (rm : Nat) (x y : W32) : W32 := toW rm (Fp.add rm (ofW x) (ofW y).neg)
def f32mul (rm : Nat) (x y : W32) : W32 := toW rm (Fp.mul (ofW x) (ofW y))
def f32fma (rm : Nat) (z x y : W32) : W32 := toW rm (Fp.add rm (Fp.mul (ofW x) (ofW y)) (ofW z))
def f32div (rm : Nat) (x y : W32) : W32 := toW rm (Fp.div 24 (ofW x) (ofW y))
def f32sqrt (rm : Nat) (x : W32) : W32 := toW rm (Fp.sqrt 24 (ofW x))
def f32rcp (rm : Nat) (x : W32) : W32 := toW rm (Fp.div 24 (.fin false 1 0) (ofW x))
def f32min (x y : W32) : W32 := BitVec.ofNat 32 (minCode fp32 x.toNat y.toNat)
def f32max (x y : W32) : W32 := BitVec.ofNat 32 (maxCode fp32 x.toNat y.toNat)
def f32abs (x : W32) : W32 := toW rmRne (ofW x).abs
def f32neg (x : W32) : W32 := toW rmRne (ofW x).neg
def f32scale (rm : Nat) (x y : W32) : W32 := toW rm ((ofW x).scale y.toInt)
def f32int (rm : Nat) (x : W32) : W32 := toW rm ((ofW x).integral rm)
def f32eq (x y : W32) : W32 := ones (decide ((ofW x).cmp (ofW y) = some 0))
def f32lt (x y : W32) : W32 := ones (decide ((ofW x).cmp (ofW y) = some (-1)))
def f32le (x y : W32) : W32 := ones (decide ((ofW x).cmp (ofW y) = some (-1)) || decide ((ofW x).cmp (ofW y) = some 0))
def f32un (x y : W32) : W32 := ones (isNaNCode fp32 x.toNat || isNaNCode fp32 y.toNat)

/-- The class mask of R182: one bit. -/
def f32class (x : W32) : W32 :=
  let neg := x.msb
  let e := field x 23 8
  let m := field x 0 23
  let k : Nat :=
    if e = 255 then (if m = 0 then (if neg then 0 else 7) else if m < 2 ^ 22 then 8 else 9)
    else if e = 0 then (if m = 0 then (if neg then 3 else 4) else if neg then 2 else 5)
    else if neg then 1 else 6
  BitVec.ofNat 32 (2 ^ k)

/-! ### Packed 16-bit elements (R184) -/

/-- Each element of a lane on its own. -/
def pair2 (f : Nat → Nat → Nat) (x y : W32) : W32 :=
  BitVec.ofNat 32 (f (field x 0 16) (field y 0 16) + 2 ^ 16 * f (field x 16 16) (field y 16 16))

def pair3 (f : Nat → Nat → Nat → Nat) (z x y : W32) : W32 :=
  BitVec.ofNat 32 (f (field z 0 16) (field x 0 16) (field y 0 16) + 2 ^ 16 * f (field z 16 16) (field x 16 16) (field y 16 16))

def hAdd (f : FFmt) (rm x y : Nat) : Nat := f.enc rm (Fp.add rm (f.dec x) (f.dec y))
def hMul (f : FFmt) (rm x y : Nat) : Nat := f.enc rm (Fp.mul (f.dec x) (f.dec y))
def hFma (f : FFmt) (rm z x y : Nat) : Nat := f.enc rm (Fp.add rm (Fp.mul (f.dec x) (f.dec y)) (f.dec z))

/-! ### Integers (R86) -/

/-- A value rounded to an integer, an infinity beyond every range; NaN is none. -/
def Fp.toInt (rm : Nat) : Fp → Option Int
  | .nan => none
  | .inf a => some (if a then -(2 ^ 80) else 2 ^ 80)
  | .fin a m e => let x : Int := (roundAt rm a m e 0 : Nat); some (if a then -x else x)

def f32toS (rm : Nat) (x : W32) : W32 := match (ofW x).toInt rm with
  | none => 0
  | some n => clampS 32 n
def f32toZ (rm : Nat) (x : W32) : W32 := match (ofW x).toInt rm with
  | none => 0
  | some n => clampZ 32 n

def ofInt (n : Int) : Fp := .fin (decide (n < 0)) n.natAbs 0
def f32ofS (rm : Nat) (x : W32) : W32 := toW rm (ofInt x.toInt)
def f32ofZ (rm : Nat) (x : W32) : W32 := toW rm (ofInt x.toNat)

/-! ### Narrow formats (R82 to R85) -/

/-- A format word (R82). -/
structure Narrow where
  s    : Nat
  e    : Nat
  m    : Nat
  pol  : Nat
  bias : Nat
  deriving DecidableEq, Repr

def polIeee : Nat := 0
def polFiniteNan : Nat := 1
def polFinite : Nat := 2
def polInt : Nat := 3

def narrowOf (x : W16) : Narrow := ⟨field x 15 1, field x 12 3, field x 9 3, field x 7 2, field x 0 7⟩

def Narrow.bits (n : Narrow) : Nat := n.s + n.e + n.m

/-- R83. -/
def Narrow.valid (n : Narrow) : Bool :=
  decide (2 ≤ n.bits ∧ n.bits ≤ 8) &&
  (if n.pol = polIeee then decide (2 ≤ n.e ∧ 1 ≤ n.m)
   else if n.pol = polInt then decide (n.e = 0 ∧ n.bias = 0 ∧ 2 ≤ n.s + n.m)
   else decide (1 ≤ n.e))

/-- R84: the value of a code; only its low N bits are read. -/
def Narrow.dec (n : Narrow) (code : Nat) : Fp :=
  let c := code % 2 ^ n.bits
  if n.pol = polInt then
    if n.s = 1 ∧ 2 ^ (n.bits - 1) ≤ c then .fin true (2 ^ n.bits - c) 0 else .fin false c 0
  else
    let neg := decide (n.s = 1 ∧ 2 ^ (n.e + n.m) ≤ c)
    let e := c / 2 ^ n.m % 2 ^ n.e
    let m := c % 2 ^ n.m
    let top := decide (e = 2 ^ n.e - 1)
    if n.pol = polIeee ∧ top then (if m = 0 then .inf neg else .nan)
    else if n.pol = polFiniteNan ∧ top ∧ m = 2 ^ n.m - 1 then .nan
    else if e = 0 then .fin neg m (1 - n.bias - n.m)
    else .fin neg (2 ^ n.m + m) ((e : Int) - n.bias - n.m)

/-- The code of the largest finite magnitude (R85), without its sign. -/
def Narrow.maxF (n : Narrow) : Nat :=
  if n.pol = polIeee then (2 ^ n.e - 1) * 2 ^ n.m - 1
  else if n.pol = polFiniteNan then 2 ^ (n.e + n.m) - 2
  else 2 ^ (n.e + n.m) - 1

def Narrow.allOnes (n : Narrow) : Nat := 2 ^ n.bits - 1
def Narrow.iMax (n : Narrow) : Int := if n.s = 1 then 2 ^ (n.bits - 1) - 1 else 2 ^ n.m - 1
def Narrow.iMin (n : Narrow) : Int := if n.s = 1 then -(2 ^ (n.bits - 1)) else 0

/-- The N-bit code of an integer. -/
def Narrow.icode (n : Narrow) (v : Int) : Nat := (v % 2 ^ n.bits).toNat

/-- R85: `encode_narrow`. -/
def Narrow.enc (n : Narrow) (rm : Nat) (x : Fp) : Nat :=
  let sgn (neg : Bool) : Nat := if neg then 2 ^ (n.e + n.m) else 0
  match x with
  | .nan => if n.pol = polIeee ∨ n.pol = polFiniteNan then n.allOnes else 0
  | .inf neg =>
    if n.s = 0 ∧ neg then 0
    else if n.pol = polInt then n.icode (if neg then n.iMin else n.iMax)
    else if n.pol = polIeee then sgn neg + (2 ^ n.e - 1) * 2 ^ n.m
    else if n.pol = polFiniteNan then n.allOnes
    else sgn neg + n.maxF
  | .fin neg m e =>
    if n.s = 0 ∧ neg then 0
    else if n.pol = polInt then
      let v : Int := (roundAt rm neg m e 0 : Nat)
      n.icode (max n.iMin (min (if neg then -v else v) n.iMax))
    else
      let c := roundCode n.m (1 - n.bias - n.m) rm neg m e
      if n.maxF < c then
        (if n.pol = polIeee ∧ overflowsToInf rm neg then sgn neg + (2 ^ n.e - 1) * 2 ^ n.m else sgn neg + n.maxF)
      else sgn neg + c

/-! ### Block scales (R90) and sums (R91, R92) -/

/-- A P8 scale. -/
def scaleP8 (x : Nat) : Fp := if x = 255 then .nan else .fin false 1 ((x : Int) - 127)

/-- A P8F4 scale. -/
def scaleP8F4 (x : Nat) : Fp :=
  if x % 256 = 255 ∨ x / 4096 ≠ 0 then .nan else .fin false (16 + x / 256 % 16) ((x % 256 : Nat) - 127 - 4)

/-- One node of a tree: the sum rounded to a format in RNE. -/
def node (f : FFmt) (x y : Fp) : Fp := f.dec (f.enc rmRne (Fp.add rmRne x y))

/-- One level of a pairwise tree. -/
def treeLevel (f : FFmt) : List Fp → List Fp
  | x :: y :: r => node f x y :: treeLevel f r
  | r => r

/-- n levels of the tree; the root is the head. -/
def treeSum (f : FFmt) : Nat → List Fp → Fp
  | 0, xs => xs.headD (.fin false 0 0)
  | n + 1, xs => treeSum f n (treeLevel f xs)

end Sys2Proof.Machine
end

