-- ==== Sys2Proof/Machine/Walk.lean ====
section
/-! DEFINITION. Translation (spec/17_translation_and_migration.md R264 to R269): the two stages, the walk, the object cache, and the checks that
follow it. Tables are read by machine address as T has them. -/

namespace Sys2Proof.Machine

/-! ### Reading by machine address -/

/-- The engine writes on a byte of device memory that are published to the whole partition (R134, R135) and that no ordinary write has followed, with
their places in T. -/
def State.devOver (s : State) (a : Nat) : List (Nat × Byte) :=
  s.unpub.filterMap (fun u =>
    if u.loc ≠ .dev a ∨ u.dead.isSome then none
    else match u.pubs.find? (fun e => decide (5 ≤ e.1)), u.bytes with
      | some e, b :: _ => if u.last < e.2 then some (e.2, b) else none
      | _, _ => none)

/-- The entry of the greatest place. -/
def lastPlace : List (Nat × Byte) → Option (Nat × Byte)
  | [] => none
  | e :: es => match lastPlace es with
    | none => some e
    | some f => some (if f.1 < e.1 then e else f)

/-- A byte of device memory by machine address, as T has it for the units of a partition. -/
def State.devByte (s : State) (a : Nat) : Byte :=
  match lastPlace (s.devOver a) with
  | none => Tab.get 0 s.mem a
  | some e => e.2

/-- n bytes of device memory by machine address, little-endian. -/
def State.devNat (s : State) (a : Nat) : Nat → Nat
  | 0 => 0
  | n + 1 => (s.devByte a).toNat + 256 * State.devNat s (a + 1) n

/-- A quadword of device memory by machine address. -/
def State.dev64 (s : State) (a : Nat) : W64 := BitVec.ofNat 64 (s.devNat a 8)

/-! ### Stage 2 (R265, R266 steps 5 and 6) -/

/-- The end of a walk. `beyond` is a machine address outside the 52 bits of R264. -/
inductive Walk (α : Type) where
  | at (x : α)
  | object (reason : Nat)
  | page (stage : Nat) (addr : Nat)
  | migrating
  | beyond (addr : Nat)
  deriving DecidableEq, Repr

/-- Does the stage-2 entry map a block of this SIZE? -/
def s2Is (e : W64) (size : Nat) : Bool := e.getLsbD 0 && decide (field e 2 2 = size)

/-- The machine address of an entry's block. -/
def s2Frame (e : W64) : Nat := field e 16 36 * 2 ^ 16

/-- Guest-physical to machine address (R265, R266 steps 5 and 6); a failure is PAGE_ABSENT, stage 2. A valid block entry governs the frames
it covers; an entry of the reserved SIZE maps nothing (log entry 11). -/
def State.stage2 (s : State) (tb : Translation) (a : Nat) : Walk Nat :=
  let g := a / 2 ^ 16
  if tb.s2Count ≤ g then .page 2 a
  else if 2 ^ 52 ≤ tb.s2Base + 8 * g + 7 then .beyond (tb.s2Base + 8 * g)
  else
    let big := s.dev64 (tb.s2Base + 8 * (g / 16384 * 16384))
    let mid := s.dev64 (tb.s2Base + 8 * (g / 32 * 32))
    let own := s.dev64 (tb.s2Base + 8 * g)
    let m : Option Nat :=
      if s2Is big 2 then some (s2Frame big + a % 2 ^ 30)
      else if s2Is mid 1 then some (s2Frame mid + a % 2 ^ 21)
      else if s2Is own 0 then some (s2Frame own + a % 2 ^ 16)
      else none
    match m with
    | none => .page 2 a
    | some m => if 2 ^ 52 ≤ m then .beyond m else .at m

/-- The bytes of the stage-2 block that governs a guest-physical address (R265). -/
def State.blockBytes (s : State) (tb : Translation) (a : Nat) : Nat :=
  let g := a / 2 ^ 16
  if s2Is (s.dev64 (tb.s2Base + 8 * (g / 16384 * 16384))) 2 then 2 ^ 30
  else if s2Is (s.dev64 (tb.s2Base + 8 * (g / 32 * 32))) 1 then 2 ^ 21 else 2 ^ 16

/-- A quadword at a guest-physical address (8-byte aligned, single-copy atomic, R268). -/
def State.guest64 (s : State) (tb : Translation) (a : Nat) : Walk W64 :=
  match s.stage2 tb a with
  | .at m => .at (s.dev64 m)
  | .object r => .object r
  | .page st x => .page st x
  | .migrating => .migrating
  | .beyond m => .beyond m

/-! ### The object table (R265) -/

/-- An object entry: its four quadwords. -/
structure ObjEntry where
  q0 : W64
  q1 : W64
  q2 : W64
  q3 : W64
  deriving DecidableEq, Repr

def ObjEntry.bits (e : ObjEntry) : BitVec 256 := e.q3 ++ e.q2 ++ e.q1 ++ e.q0
def ObjEntry.valid (e : ObjEntry) : Bool := e.q0.getLsbD 0
def ObjEntry.pin (e : ObjEntry) : Bool := e.q0.getLsbD 1
def ObjEntry.snap (e : ObjEntry) : Bool := e.q0.getLsbD 2
def ObjEntry.execFlag (e : ObjEntry) : Bool := e.q0.getLsbD 3
def ObjEntry.hostcoh (e : ObjEntry) : Bool := e.q0.getLsbD 4
def ObjEntry.pagesz (e : ObjEntry) : Nat := field e.q0 16 2
def ObjEntry.place (e : ObjEntry) : Nat := field e.q0 18 3
def ObjEntry.vault (e : ObjEntry) : Nat := field e.q0 21 5
def ObjEntry.keyslot (e : ObjEntry) : Nat := field e.q0 26 6
def ObjEntry.size (e : ObjEntry) : Nat := field e.bits 48 40
def ObjEntry.peerdev (e : ObjEntry) : Nat := field e.q1 48 16
def ObjEntry.plist (e : ObjEntry) : Nat := e.q2.toNat
def ObjEntry.winIdx (e : ObjEntry) : Nat := field e.q2 0 16
def ObjEntry.winGen (e : ObjEntry) : Nat := field e.q2 16 32

/-- The bytes of a page (R265). -/
def ObjEntry.pageBytes (e : ObjEntry) : Nat :=
  if e.pagesz = 0 then 2 ^ 16 else if e.pagesz = 1 then 2 ^ 21 else if e.pagesz = 2 then 2 ^ 30 else 2 ^ 35

/-- The placements of R265. -/
def plVault : Nat := 0
def plFar : Nat := 1
def plHost : Nat := 2
def plPeer : Nat := 3

/-- R265, R266 step 2: nonzero reserved fields or a reserved encoding. -/
def ObjEntry.reserved (e : ObjEntry) : Bool :=
  decide (field e.q0 5 11 ≠ 0) || decide (field e.q0 32 16 ≠ 0) || decide (field e.q1 24 24 ≠ 0) || decide (e.q3 ≠ 0) ||
  decide (4 ≤ e.place) ||
  (if e.place = plPeer then decide (field e.q2 48 16 ≠ 0) else decide (field e.q2 52 12 ≠ 0))

/-- The object entry of o (R266 step 1; the walker's own reads are guest-physical). -/
def State.objEntry (s : State) (tb : Translation) (o : Nat) : Walk ObjEntry :=
  if tb.otCount ≤ o ∨ o = 0 then .object 1
  else
    let a := tb.otBase + 32 * o
    match s.guest64 tb a, s.guest64 tb (a + 8), s.guest64 tb (a + 16), s.guest64 tb (a + 24) with
    | .at q0, .at q1, .at q2, .at q3 => if q0.getLsbD 0 then .at ⟨q0, q1, q2, q3⟩ else .object 1
    | .page st x, _, _, _ => .page st x
    | .beyond m, _, _, _ => .beyond m
    | _, .page st x, _, _ => .page st x
    | _, .beyond m, _, _ => .beyond m
    | _, _, .page st x, _ => .page st x
    | _, _, .beyond m, _ => .beyond m
    | _, _, _, .page st x => .page st x
    | _, _, _, .beyond m => .beyond m
    | _, _, _, _ => .object 1

/-! ### Partitions, ports and key slots -/

/-- The cores of a partition (R252, R253). -/
def Part.hasCore (p : Nat) (x : Part) (c : Nat) : Bool := decide (16 * p ≤ c ∧ c < 16 * (p + x.units))

/-- Is VAULT n one of the partition's (R252)? -/
def Part.hasVault (p : Nat) (x : Part) (n : Nat) : Bool := decide (2 * p ≤ n ∧ n < 2 * (p + x.units))

/-- The partition that owns the unit. -/
def State.unitPart (s : State) (unit : Nat) : Option Nat :=
  (s.parts.find? (fun e => decide (e.1 ≤ unit ∧ unit < e.1 + e.2.units))).map (·.1)

/-- The GDDR7 device that holds a machine address: the devices of a partition take turns every 2 KiB over the GDDR7 of all its units (R70), those of an idle unit over
its own (log entry 3). -/
def State.gddrDevice (s : State) (a : Nat) : Nat :=
  let u := a / Config.gddrPerUnit
  match (s.unitPart u).bind (fun p => (s.part? p).map (fun x => (p, x.units))) with
  | some (p, n) => 2 * p + a / 2048 % (2 * n)
  | none => 2 * u + a / 2048 % 2

/-- The partition unit that homes a machine address of device memory: that of its vault or of its GDDR7 device (R252). -/
def State.unitOf (s : State) (a : Nat) : Option Nat :=
  match Config.vaultOf a with
  | some v => some (v / 2)
  | none => if Config.isGddr a then some (s.gddrDevice a / 2) else none

/-- The ports of a partition that train to a device (R324). -/
def State.portsTo (s : State) (p dev : Nat) : List Nat :=
  match s.part? p with
  | none => []
  | some x => x.ports.filter (fun n => match Tab.find s.ports n with
    | none => false
    | some q => decide (q.dev.toNat = dev ∧ q.ver ≠ 0))

/-- Is the link from a partition to a device up: a port of the partition that reaches it is up (R197, R328)? -/
def State.linkUp (s : State) (p dev : Nat) : Bool :=
  (s.portsTo p dev).any (fun n => match Tab.find s.ports n with
    | none => false
    | some q => q.up)

/-- The key slot entry. -/
def KeySlot.zero : KeySlot := ⟨none, 0, false, 0⟩
def State.keySlot (s : State) (k : Nat) : KeySlot := (Tab.find s.keys k).getD KeySlot.zero

/-- R261: an access through slot k by partition p raises KEY_REVOKED when the slot is not the partition's, or revoked and not yet reloaded. -/
def State.keyBad (s : State) (p k : Nat) : Bool :=
  decide ((s.keySlot k).part ≠ some p) || (s.keySlot k).revoked

/-- The kinds of a management operation under way. -/
def mkInv : Nat := 0
def mkSwap : Nat := 1
def mkRev : Nat := 2
def mkWin : Nat := 3
def mkStop : Nat := 4
def mkResume : Nat := 5
def mkKill : Nat := 6
def mkReset : Nat := 7

/-- R262: a `keyrev` of partition p's slot is under way, and holds the partition's later accesses. -/
def State.keyHeld (s : State) (p k : Nat) : Bool :=
  s.mgmtOps.any (fun m => decide (m.kind = mkRev ∧ m.part = p ∧ m.sa.toNat % 64 = k))

/-- R274: does an `otswap` under way name this offset of the object? -/
def State.migrating (s : State) (p o pageBytes x : Nat) : Bool :=
  s.mgmtOps.any (fun m => decide (m.kind = mkSwap ∧ m.part = p ∧ m.sa.toNat % 2 ^ 32 = o ∧
    m.sb.toNat % 2 ^ 40 ≤ x ∧ x < m.sb.toNat % 2 ^ 40 + m.sb.toNat / 2 ^ 40 * pageBytes))

/-! ### The walk (R266) -/

/-- R9: does the machine address lie in a vault of no unit of the partition, which no core of it reaches (log entry 129)? -/
def State.foreignVault (s : State) (p m : Nat) : Bool :=
  match Config.vaultOf m, s.part? p with
  | some v, some q => !Part.hasVault p q v
  | some _, none => true
  | none, _ => false

/-- R266 on an object entry that the walk has read: steps 2 to 6 for the n bytes from offset x, none of which leaves a page of 64 KiB, through a
capability of kind k: a PEER object lies in the coherence domain unless a WINDOW capability names it (R324). -/
def State.walkEntry (s : State) (p : Nat) (tb : Translation) (e : ObjEntry) (k o x n : Nat) : Walk Trans :=
  let badVault := decide (e.place = plVault) && (decide (2 ≤ e.pagesz) || !(match s.part? p with
    | none => false
    | some q => Part.hasVault p q e.vault))
  let badPeer := decide (e.place = plPeer) &&
    ((s.portsTo p e.peerdev).isEmpty || (decide (k ≠ kWindow) && !s.domain.any (fun d => decide (d.toNat = e.peerdev))))
  if e.reserved || badVault || badPeer then .object 2
  else if e.size < x + n then .object 3
  else if e.place = plPeer then
    .at ⟨.peer e.peerdev e.winIdx x, e.keyslot, plPeer, e.execFlag, false, e.pin, e.hostcoh, some e.peerdev⟩
  else
    let pb := e.pageBytes
    match s.guest64 tb (e.plist + 8 * (x / pb)) with
    | .object r => .object r
    | .page st a => .page st a
    | .migrating => .migrating
    | .beyond m => .beyond m
    | .at pe =>
      if s.migrating p o pb x then .migrating
      else if !pe.getLsbD 0 then .page 1 (x / pb * pb)
      else
        match s.stage2 tb (field pe 16 36 * 2 ^ 16 + x % pb) with
        | .object r => .object r
        | .page st a => .page st a
        | .migrating => .migrating
        | .beyond m => .beyond m
        | .at m =>
          if (e.place = plVault ∧ Config.vaultOf m ≠ some e.vault) ∨ (e.place ≠ plHost ∧ s.foreignVault p m) then .object 4
          else .at ⟨if e.place = plHost then .host m else .dev m, e.keyslot, e.place, e.execFlag, pe.getLsbD 2, e.pin, e.hostcoh, none⟩

/-- R266: the translation of n bytes from offset x of object o as the tables stand. -/
def State.walk (s : State) (p : Nat) (tb : Translation) (k o x n : Nat) : Walk Trans :=
  match s.objEntry tb o with
  | .at e => s.walkEntry p tb e k o x n
  | .object r => .object r
  | .page st a => .page st a
  | .migrating => .migrating
  | .beyond m => .beyond m

/-! ### The object cache (R267, R269) -/

/-- The cached translations of n bytes from an offset of an object in a cluster. -/
def State.cached (s : State) (cluster o x n : Nat) : List OLine :=
  s.ocache.filter (fun l => decide (l.cluster = cluster ∧ l.obj = o ∧ l.base ≤ x ∧ x + n ≤ l.base + l.size))

/-- The translation that a cached line gives for offset x. -/
def OLine.trans (l : OLine) (x : Nat) : Trans :=
  { l.tr with loc := l.tr.loc.add (x - l.base) }

/-- The line that holds a translation of offset x: what the page and the governing stage-2 block have in common around it, up to SIZE (R265). -/
def State.lineOf (s : State) (cluster : Nat) (tb : Translation) (o x : Nat) (t : Trans) : OLine :=
  match s.objEntry tb o with
  | .at e =>
    let pb := e.pageBytes
    let a := match s.guest64 tb (e.plist + 8 * (x / pb)) with
      | .at pe => field pe 16 36 * 2 ^ 16 + x % pb
      | _ => x % pb
    let bb := s.blockBytes tb a
    let before := min (x % pb) (a % bb)
    let back : Loc := match t.loc with
      | .dev m => .dev (m - before)
      | .host m => .host (m - before)
      | l => l
    ⟨cluster, o, x - before, before + min (min (pb - x % pb) (bb - a % bb)) (e.size - x), { t with loc := back }⟩
  | _ => ⟨cluster, o, x, 1, t⟩

/-- Choose among a walk and the cached lines, each whole (R269): with nothing cached, or nothing different, the walk. -/
def State.chooseLine (s : State) (d : Nat) (w : Walk Trans) (x : Nat) : List OLine → Walk Trans × State
  | [] => (w, s)
  | l :: ls =>
    if Walk.at (l.trans x) = w then State.chooseLine s d w x ls
    else
      let (f, s') := s.fresh d
      if f.getLsbD 0 then (.at (l.trans x), s') else State.chooseLine s' d w x ls

/-- A line enters its cluster's cache of 4,096 entries (R267); of a full cache a line of the cache's own choice goes. -/
def State.cacheLine (s : State) (d : Nat) (l : OLine) : State :=
  let mine := s.ocache.filter (fun x => decide (x.cluster = l.cluster))
  if l ∈ mine then s
  else if mine.length < 4096 then { s with ocache := s.ocache ++ [l] }
  else
    let (f, s1) := s.fresh d
    { s1 with ocache := (s1.ocache.erase (mine.getD (f.toNat % 4096) l)) ++ [l] }

/-- The translation that an access of n bytes from a cluster uses, and the cache after it; `d` owns the free choices. A migrating page is never served from
the cache. -/
def State.translate (s : State) (d cluster p : Nat) (tb : Translation) (k o x n : Nat) : Walk Trans × State :=
  let w := s.walk p tb k o x n
  if w = .migrating then (w, s)
  else
    let (r, s1) := s.chooseLine d w x (s.cached cluster o x n)
    match r with
    | .at t => if t.peer.isSome then (r, s1) else if r = w then (r, s1.cacheLine d (s1.lineOf cluster tb o x t)) else (r, s1)
    | _ => (r, s1)

/-- The translation block of a partition's current context; with none, that of the context it ran last, for its service team (log entry 8). -/
def State.tbOf (s : State) (p : Nat) : Translation :=
  match s.context? p with
  | none => ((s.part? p).map (·.tb)).getD Translation.zero
  | some c => c.tb

end Sys2Proof.Machine
end

