-- ==== Sys2Proof/Machine/Mem.lean ====
section
/-! DEFINITION. Memory as agents see it (spec/08_ordering_by_goal.md R129 to R136, spec/04_memory_capabilities_tensors.md R64, spec/16_system_architecture.md
R261, spec/19_traps_faults_recovery.md R309): reading and writing one place, tags, sector stamps, engine writes that are not yet published,
copy-on-write pages, and the versions of cached octets. -/

namespace Sys2Proof.Machine

/-- Who observes: a group (0 for an engine or an outside agent), its team, core and partition, and its rank: 0 the device, 1 a peer of the
coherence domain, 2 the host or the owner of a window (R135); `dom` owns the free values that it meets (R4). -/
structure Obs where
  group : Nat
  team  : Nat
  core  : Nat
  part  : Nat
  rank  : Nat
  dom   : Nat
  deriving DecidableEq, Repr

/-- An observer outside the device. -/
def Obs.outside (rank : Nat) : Obs := ⟨0, 0, 0, 0, rank, domDevice⟩

/-! ### The bytes behind a place -/

/-- The key of a peer's window in the table of peer memories. -/
def peerKey (dev index : Nat) : Nat := dev * 2 ^ 16 + index

/-- The byte that the store behind a place holds. -/
def State.rawByte (s : State) : Loc → Byte
  | .dev a => Tab.get 0 s.mem a
  | .host a => Tab.get 0 s.hostMem a
  | .peer d i o => Tab.get 0 (Tab.get [] s.peerMem (peerKey d i)) o
  | .team t o => match s.anyTeam t with
    | none => 0
    | some x => Tab.get 0 x.tmem o
  | .wbuf t o => match s.anyTeam t with
    | none => 0
    | some x => Tab.get 0 x.wbuf o

/-- Replace the byte that the store behind a place holds. -/
def State.rawSet (s : State) (l : Loc) (b : Byte) : State :=
  match l with
  | .dev a => { s with mem := Tab.set 0 s.mem a b, owned := Tab.del s.owned (a / 128) }
  | .host a => { s with hostMem := Tab.set 0 s.hostMem a b }
  | .peer d i o => { s with peerMem := Tab.set [] s.peerMem (peerKey d i) (Tab.set 0 (Tab.get [] s.peerMem (peerKey d i)) o b) }
  | .team t o => s.onAnyTeam t (fun x => { x with tmem := Tab.set 0 x.tmem o b })
  | .wbuf t o => s.onAnyTeam t (fun x => { x with wbuf := Tab.set 0 x.wbuf o b })

/-! ### Tags (R64): one for each 16-byte granule of device memory, team memory and a peer's memory (R282) -/

def State.tagAt (s : State) : Loc → Bool
  | .dev a => Tab.get false s.mtags (a / 16)
  | .team t o => match s.anyTeam t with
    | none => false
    | some x => Tab.get false x.ttags (o / 16)
  | .peer d i o => Tab.get false (Tab.get [] s.peerTags (peerKey d i)) (o / 16)
  | _ => false

def State.setTag (s : State) (l : Loc) (b : Bool) : State :=
  match l with
  | .dev a => { s with mtags := Tab.set false s.mtags (a / 16) b }
  | .team t o => s.onAnyTeam t (fun x => { x with ttags := Tab.set false x.ttags (o / 16) b })
  | .peer d i o =>
    { s with peerTags := Tab.set [] s.peerTags (peerKey d i) (Tab.set false (Tab.get [] s.peerTags (peerKey d i)) (o / 16) b) }
  | _ => s

/-! ### Sector stamps (R261) -/

def State.sector (s : State) (a : Nat) : Sector := Tab.get Sector.clean s.sectors (a / 32)

/-- R260, R261: may a reader under slot k see the bytes of the sector: one of GDDR7 must have been written last under this slot and generation, not under another
or the device key? -/
def State.readable (s : State) (k : Nat) (l : Loc) : Bool :=
  match l with
  | .dev a => !Config.isGddr a || decide ((s.sector a).slot = some (k, (s.keySlot k).gen))
  | _ => true

/-- Does the place lie in the 32-byte sector at index i? -/
def Loc.inSector (i : Nat) : Loc → Bool
  | .dev a => decide (a / 32 = i)
  | _ => false

/-- R261: a write under slot k stamps the sector; the other bytes of a GDDR7 sector last written under another slot or generation become
unreadable under the new stamp: they read 0, untagged. A vault line is tagged with the slot too (R243). -/
def State.stamp (s : State) (k : Nat) (l : Loc) : State :=
  match l with
  | .dev a =>
    if Config.isGddr a then
      let s1 := if s.readable k l then s else
        { s with mem := Tab.clear s.mem (a / 32 * 32) 32, mtags := Tab.clear s.mtags (a / 32 * 2) 2, unpub := s.unpub.filter (fun u => !(u.ended && u.loc.inSector (a / 32))) }
      { s1 with sectors := Tab.set Sector.clean s1.sectors (a / 32) { s1.sector a with slot := some (k, (s1.keySlot k).gen) } }
    else { s with sectors := Tab.set Sector.clean s.sectors (a / 32) { s.sector a with slot := some (k, (s.keySlot k).gen) } }
  | _ => s

/-- R260: what the device writes by machine address stands under the device key; the sector's other bytes stay. -/
def State.deviceKey (s : State) (a : Nat) : State :=
  if Config.isGddr a && (s.sector a).slot.isSome then { s with sectors := Tab.set Sector.clean s.sectors (a / 32) { s.sector a with slot := none } } else s

/-- Is any of the n bytes from a place in a sector marked uncorrectable (R197)? -/
def State.marked (s : State) (l : Loc) (n : Nat) : Bool :=
  match l with
  | .dev a => (s.sector a).unc || (s.sector (a + n - 1)).unc
  | _ => false

/-! ### Engine writes that stand outside T (R133 to R135) -/

/-- Does a publication at this level (scope + 1; 0 for what `bwait` orders for the group itself) serve the observer (R135)? -/
def Unpub.serves (u : Unpub) (o : Obs) (level : Nat) : Bool :=
  let inside := decide (o.rank = 0 ∧ o.part = u.part)
  (inside && decide (o.group = u.group ∧ o.group ≠ 0)) ||
  (decide (2 ≤ level) && inside && (decide (o.team = u.team ∧ o.group ≠ 0) || decide (o.group = 0 ∧ o.core = u.core))) ||
  (decide (3 ≤ level) && inside && decide (o.core / 8 = u.core / 8)) ||
  (decide (4 ≤ level) && inside && decide (o.core / 64 = u.core / 64)) ||
  (decide (5 ≤ level) && inside) || (decide (6 ≤ level) && decide (o.rank = 1)) || (decide (7 ≤ level) && decide (1 ≤ o.rank))

/-- The place in T that the write has for an observer: its first publication at a scope that includes the observer (R133, R134). -/
def Unpub.since (u : Unpub) (o : Obs) : Option Nat := (u.pubs.find? (fun e => u.serves o e.1)).map (·.2)

/-- The place from which an observer's read finds the write: its publication, or for one that travels on a connection its arrival at the target, which every
observer there sees (R136). -/
def Unpub.found (u : Unpub) (o : Obs) : Option Nat := if u.conn then u.shown else u.since o

/-- Has the byte been written in T after a place, by an ordinary write or by an engine write that is published to the observer? -/
def writtenAfter (us : List Unpub) (o : Obs) (u : Unpub) (n : Nat) : Bool :=
  decide (n ≤ u.last) || us.any (fun v => match v.found o with
    | none => false
    | some q => decide (n < q ∧ v.op ≠ u.op))

/-- R133, R318: does the write leave the byte undefined for an observer: an ordinary write fell between its issue and its publication, and nothing has
been written since the publication; or its operation was cut short? -/
def Unpub.undefinedTo (us : List Unpub) (o : Obs) (u : Unpub) : Bool :=
  match u.dead with
  | some k => !writtenAfter us o u k
  | none =>
    match u.met, u.since o with
    | none, _ => false
    | some _, none => true
    | some m, some n => decide (m < n) && !writtenAfter us o u n

/-- The latest of some writes by their places in T; at one place either may be the later. -/
def latest : List (Nat × Byte) → Nat × List Byte
  | [] => (0, [])
  | (n, b) :: es =>
    let r := latest es
    if r.1 < n then (n, [b]) else if n = r.1 then (n, b :: r.2) else r

/-- The engine writes on a byte that are published to an observer and that no ordinary write has followed, with their places. -/
def publishedTo (o : Obs) (us : List Unpub) : List (Nat × Byte) :=
  us.flatMap (fun u => match u.dead, u.found o with
    | none, some n => if u.last < n then u.bytes.map (n, ·) else []
    | _, _ => [])

/-- The values that the engine writes unpublished to an observer may show it. -/
def unpublishedTo (o : Obs) (us : List Unpub) : List Byte :=
  us.flatMap (fun u => if u.dead.isNone ∧ (u.found o).isNone then u.bytes else [])

/-- What an observer may read of a byte (R133): the value that T gives it, or that of a write not published to it. -/
def mayRead (o : Obs) (b : Byte) (us : List Unpub) : List Byte :=
  (match publishedTo o us with
    | [] => [b]
    | ps => (latest ps).2) ++ unpublishedTo o us

/-- A free choice among some bytes. -/
def State.pick (s : State) (d : Nat) : List Byte → Byte × State
  | [] => (0, s)
  | [b] => (b, s)
  | b :: bs =>
    let (f, s1) := s.fresh d
    if f.getLsbD 0 then (b, s1) else State.pick s1 d bs

/-- A free byte. -/
def State.freeByte (s : State) (d : Nat) : Byte × State :=
  let (f, s') := s.fresh d
  (f.extractLsb' 0 8, s')

/-- What an observer reads of a byte whose latest ordinary value is b, in view of the engine writes on it. An undefined value belongs to the context of the
write that made it so (R4). -/
def State.seenThrough (s : State) (o : Obs) (b : Byte) (us : List Unpub) : Byte × State :=
  match us.find? (fun u => u.undefinedTo us o) with
  | some u => s.freeByte (s.dom u.part)
  | none => s.pick domDevice (mayRead o b us).eraseDups

/-- Do two posted writes stand in one order: the same group's on the same connection? -/
def Posted.together (a b : Posted) : Bool := decide (a.part = b.part ∧ a.dev = b.dev ∧ a.group = b.group)

/-- The posted writes of a group before one of them, in its order. -/
def State.postedBefore (s : State) (q : Posted) : List Posted := (s.posted.takeWhile (fun r => decide (r ≠ q))).filter q.together

/-- R136: may no byte of an engine write show at its target yet, as the group's earlier writes on the connection have not come there? -/
def State.behind (s : State) (u : Unpub) : Bool :=
  u.conn && s.posted.any (fun q => decide (q.op = u.op) && !(s.postedBefore q).isEmpty)

/-- The engine writes on a byte, those that may not show yet without their bytes. -/
def State.unpubAt (s : State) (l : Loc) : List Unpub :=
  (s.unpub.filter (fun u => decide (u.loc = l))).map (fun u => if s.behind u then { u with bytes := [] } else u)

/-- One byte as an observer reads it under key slot k. -/
def State.readByte (s : State) (o : Obs) (k : Nat) (l : Loc) : Byte × State :=
  if s.readable k l then
    match s.unpubAt l with
    | [] => (s.rawByte l, s)
    | us => s.seenThrough o (s.rawByte l) us
  else (0, s)

/-- n bytes from a place. -/
def State.readBytes (s : State) (o : Obs) (k : Nat) (l : Loc) : Nat → List Byte × State
  | 0 => ([], s)
  | n + 1 =>
    let (b, s1) := s.readByte o k l
    let (bs, s2) := State.readBytes s1 o k (l.add 1) n
    (b :: bs, s2)

/-! ### What a write leaves behind in the engines -/

/-- The indices at which a list of places names a place. -/
def locIdx (l : Loc) : Nat → List Loc → List Nat
  | _, [] => []
  | n, x :: xs => if x = l then n :: locIdx l (n + 1) xs else locIdx l (n + 1) xs

/-- R132: an engine whose source includes the byte may see the write. -/
def CopyOp.note (c : CopyOp) (l : Loc) (b : Byte) : CopyOp :=
  { c with seen := c.seen ++ (locIdx l 0 c.srcs).map (·, b) }

def Contrib.note (c : Contrib) (l : Loc) (b : Byte) : Contrib :=
  { c with seen := c.seen ++ (locIdx l 0 c.srcs).map (·, b) }

def ReadSet.note (r : ReadSet) (l : Loc) (b : Byte) : ReadSet := { r with seen := r.seen ++ (locIdx l 0 r.locs).map (·, b) }

def MatOp.note (m : MatOp) (l : Loc) (b : Byte) : MatOp :=
  { m with aData := m.aData.note l b, aScale := m.aScale.note l b, bData := m.bData.note l b, bScale := m.bScale.note l b }

def Waiter.note (w : Waiter) (l : Loc) (b : Byte) : Waiter :=
  { w with aData := w.aData.note l b, aScale := w.aScale.note l b, bData := w.bData.note l b, bScale := w.bScale.note l b }

/-- R132, R133: the destination places of a flow that a write to a source place may come to show before it has ended, each with its operation. -/
def CopyOp.ahead (op : Nat) (c : CopyOp) (l : Loc) : List (Nat × Loc) :=
  if c.entry.isSome then [] else (locIdx l 0 c.srcs).filterMap (fun i => (c.dsts[i]?).map (fun d => (op, d.1)))

/-- The engines after a write to a place. -/
def State.noteWrite (s : State) (l : Loc) (b : Byte) : State :=
  let hits := s.copies.flatMap (fun e => e.2.ahead e.1 l)
  { s with unpub := if hits.isEmpty then s.unpub else s.unpub.map (fun u => if !u.ended && hits.contains (u.op, u.loc) then { u with bytes := u.bytes ++ [b] } else u),
           copies := s.copies.map (fun e => (e.1, e.2.note l b)), mats := s.mats.map (fun e => (e.1, e.2.note l b)),
           latch := s.latch.map (·.note l b), contribs := s.contribs.map (·.note l b),
           saved := s.saved.map (fun e => (e.1, { e.2 with mats := e.2.mats.map (fun x => (x.1, x.2.note l b)), latch := e.2.latch.map (·.note l b) })) }

/-- An ordinary write meets the engine writes on its byte (R133); one that was cut short is over (R318). -/
def metByWrite (l : Loc) (n : Nat) (us : List Unpub) : List Unpub :=
  us.filterMap (fun u =>
    if u.loc ≠ l then some u else if u.dead.isSome then none else some { u with met := u.met.orElse (fun _ => some n), last := n })

/-! ### Launch records (R286): the fields that the machine consults while a launch runs -/

/-- The recovery modes of R286. -/
def Launch.recovery (l : Launch) : Nat := field l.record 73 2
def rcNormal : Nat := 0
def rcSnapshot : Nat := 1
def rcHeld : Nat := 2

def Launch.snapId (l : Launch) (n : Nat) : Nat := field l.record (2048 + 32 * n) 32

/-- The SNAP list: it ends at a zero entry. -/
def Launch.snapList (l : Launch) : List Nat := ((List.range 8).map l.snapId).takeWhile (fun o => decide (o ≠ 0))

/-! ### Copy-on-write pages (R309) -/

/-- Does the page hold the place? -/
def SnapPage.holds (p : SnapPage) (l : Loc) : Bool :=
  match l with
  | .dev a => !p.host && decide (p.base ≤ a ∧ a < p.base + p.size)
  | .host a => p.host && decide (p.base ≤ a ∧ a < p.base + p.size)
  | _ => false

/-- The save frames a copy takes: 16 for a page of 64 KiB, 512 for one of 2 MiB (R309). -/
def SnapPage.need (p : SnapPage) : Nat := p.size / 4096

/-- The 64 KiB pieces of a page, each with the machine address of its frame, where it is mapped; an absent page has none. -/
def State.pagePieces (s : State) (tb : Translation) (e : ObjEntry) (i : Nat) : List (Option Nat) :=
  match s.guest64 tb (e.plist + 8 * i) with
  | .at pe => if pe.getLsbD 0 then (List.range (e.pageBytes / 2 ^ 16)).map (fun k => match s.stage2 tb (field pe 16 36 * 2 ^ 16 + k * 2 ^ 16) with
      | .at m => some m
      | _ => none) else []
  | _ => []

/-- The frames of 64 KiB that a page stands in, by machine address. -/
def State.pageFrames (s : State) (tb : Translation) (e : ObjEntry) (i : Nat) : List Nat := (s.pagePieces tb e i).filterMap id

/-- The pages that a SNAP object has now (R309): whole where its frames lie together, else by frames. -/
def State.objectSnaps (s : State) (tb : Translation) (o : Nat) : List SnapPage :=
  match s.objEntry tb o with
  | .at e =>
    let host := decide (e.place = plHost)
    if 2 ≤ e.pagesz ∨ 3 ≤ e.place then []
    else (List.range ((e.size + e.pageBytes - 1) / e.pageBytes)).flatMap (fun i =>
      match s.pageFrames tb e i with
      | [] => []
      | a :: fs =>
        if (a :: fs) = (List.range (e.pageBytes / 2 ^ 16)).map (fun k => a + k * 2 ^ 16) then [⟨a, e.pageBytes, host, e.keyslot, [], [], [], []⟩]
        else (a :: fs).map (fun f => ⟨f, 2 ^ 16, host, e.keyslot, [], [], [], []⟩))
  | _ => []

/-- The pages that a launch protects as the tables stand, but for those that it has copied. -/
def State.snapOpen (s : State) (l : Launch) : List SnapPage :=
  if l.recovery = rcSnapshot then
    match s.ctx? l.ctx with
    | none => []
    | some c => (l.snapList.flatMap (s.objectSnaps c.tb)).filter (fun p => !l.snaps.any (fun q => decide (q.base = p.base ∧ q.host = p.host)))
  else []

/-- The pages that a write to one of some places must copy first, each with its launch. -/
def State.awaiting (s : State) (ls : List Loc) : List (Nat × SnapPage) :=
  s.launches.flatMap (fun e => ((s.snapOpen e.2).filter (fun p => ls.any p.holds)).map (e.1, ·))

/-- The partition of a launch. -/
def State.partOf (s : State) (u : Nat) : Nat := ((s.launch? u).map (·.part)).getD 0

/-- R309, R295: the partition for want of whose save frames a write to these places stalls. -/
def State.snapShort (s : State) (ls : List Loc) : Option Nat :=
  let ps := s.awaiting ls
  (ps.map (fun e => s.partOf e.1)).find? (fun p =>
    decide (((s.part? p).map (·.frames.length)).getD 0 < ((ps.filter (fun e => decide (s.partOf e.1 = p))).map (fun e => e.2.need)).sum))

/-- Does a write to this place stall for want of save frames? -/
def State.snapBlocked (s : State) (l : Loc) : Bool := (s.snapShort [l]).isSome

/-- Does a write of n bytes that the device makes at a machine address stall for want of save frames? -/
def State.shortAt (s : State) (a n : Nat) : Bool := (s.snapShort ((List.range n).map (fun i => .dev (a + i)))).isSome

/-- The bytes of a page as T has them, but for those that its object's key slot may not read: they are zeros (R261). -/
def State.pageCells (s : State) (p : SnapPage) : Memory :=
  if p.host then Tab.slice s.hostMem p.base p.size
  else (s.unpub.foldl (fun m u => match u.loc with
    | .dev a => if p.holds (.dev a) then Tab.set 0 m a (s.devByte a) else m
    | _ => m) (Tab.slice s.mem p.base p.size)).filter (fun e => s.readable p.slot (.dev e.1))

/-- A copy of a page as it stands. -/
def State.pageCopy (s : State) (p : SnapPage) (frames : List Nat) : SnapPage :=
  { p with
    cells := s.pageCells p
    tags := if p.host then [] else (Tab.slice s.mtags (p.base / 16) (p.size / 16)).filter (fun e => s.readable p.slot (.dev (16 * e.1)))
    marks := if p.host then [] else ((Tab.slice s.sectors (p.base / 32) (p.size / 32)).filter (fun e => e.2.unc)).map (·.1)
    frames := frames }

/-- The copy of a page goes into save frames of its launch's partition. -/
def State.snapTake (s : State) (u : Nat) (p : SnapPage) : State :=
  match s.part? (s.partOf u) with
  | none => s
  | some x =>
    if x.frames.length < p.need then s
    else
      (s.putPart (s.partOf u) { x with frames := x.frames.drop p.need }).onLaunch u (fun l => { l with snaps := l.snaps ++ [s.pageCopy p (x.frames.take p.need)] })

/-- R309: before the first write to a protected page, its copy is taken. -/
def State.snapAt (s : State) (l : Loc) : State := (s.awaiting [l]).foldl (fun s e => s.snapTake e.1 e.2) s

/-! ### Writing -/

/-- An ordinary write of one byte, its sector's stamp kept: in T at this point for every observer. It clears the granule's tag (R64). -/
def State.plainByte (s : State) (l : Loc) (b : Byte) : State :=
  let s1 := ((s.rawSet l b).noteWrite l b).setTag l false
  { s1 with unpub := metByWrite l s1.place s1.unpub }

/-- An ordinary write of one byte under key slot k. -/
def State.writeByte (s : State) (k : Nat) (l : Loc) (b : Byte) : State := ((s.snapAt l).stamp k l).plainByte l b

/-- A core's cached octet at a machine address takes part in a change of memory as one more version (R77). -/
def addVersions (cores : List Nat) (addr : Nat) (bytes : List Byte) : List ILine → List ILine
  | lines => lines ++ (cores.map (fun c => ⟨c, addr, bytes⟩)).filter (fun x => !lines.contains x)

/-- The cores that hold a copy of an octet. -/
def State.icores (s : State) (addr : Nat) : List Nat :=
  ((s.icache.filter (fun x => decide (x.addr = addr))).map (·.core)).eraseDups

/-- The 32 bytes of an octet as T has them. -/
def State.octetAt (s : State) (a : Nat) : List Byte := (List.range 32).map (fun i => s.devByte (a + i))

/-- R77: after one access, the cached copies may show the octet as it now stands. -/
def State.versions (s : State) (l : Loc) : State :=
  match l with
  | .dev a =>
    let o := a / 32 * 32
    match s.icores o with
    | [] => s
    | cs => { s with icache := addVersions cs o (s.octetAt o) s.icache }
  | _ => s

/-- The bytes of a list, from a place on, ascending. -/
def State.writeBytesAt (s : State) (k : Nat) (l : Loc) : List Byte → State
  | [] => s
  | b :: bs => State.writeBytesAt (s.writeByte k l b) k (l.add 1) bs

/-- R77: the same for some places, once the accesses of one instruction have been made. -/
def State.versionsAll (s : State) (ls : List Loc) : State := ls.foldl State.versions s

/-- One access that writes a list of bytes. -/
def State.writeBytes (s : State) (k : Nat) (l : Loc) (bs : List Byte) : State :=
  (s.writeBytesAt k l bs).versions l

/-- Bytes by machine address, the sectors' keys kept: those of rings in guest memory, and of accesses that arrive from outside. -/
def State.rawBytes (s : State) (a : Nat) : List Byte → State
  | [] => s
  | b :: bs => State.rawBytes ((s.snapAt (.dev a)).plainByte (.dev a) b) (a + 1) bs

/-- The sectors of n bytes come under the device key. -/
def State.deviceKeys (s : State) (a : Nat) : Nat → State
  | 0 => s
  | n + 1 => (State.deviceKeys s a n).deviceKey (a + n)

/-- Bytes that the device writes by machine address (queues, records, frames): no object names them (R260). -/
def State.devBytes (s : State) (a : Nat) (bs : List Byte) : State := (s.deviceKeys a bs.length).rawBytes a bs

/-- A quadword that the device writes by machine address. -/
def State.devPut (s : State) (a : Nat) (v : W64) : State := (s.devBytes a (toBytes 8 v.toNat)).versions (.dev a)

/-- A quadword that the device writes in guest memory, at its machine address. -/
def State.guestPut (s : State) (a : Nat) (v : W64) : State := (s.rawBytes a (toBytes 8 v.toNat)).versions (.dev a)

/-- R197: a sector stops being marked once a store or flow has written all 32 of its bytes; `as` are the machine addresses written. -/
def State.unmark (s : State) (as : List Nat) : State :=
  if s.sectors.any (·.2.unc) then
    let clean (e : Nat × Sector) : Nat × Sector :=
      (e.1, if e.2.unc && (List.range 32).all (fun i => as.contains (32 * e.1 + i)) then { e.2 with unc := false } else e.2)
    { s with sectors := (s.sectors.map clean).filter (fun e => decide (e.2 ≠ Sector.clean)) }
  else s

/-- The machine addresses of n bytes from a place. -/
def Loc.addrs (l : Loc) (n : Nat) : List Nat :=
  match l with
  | .dev a => (List.range n).map (a + ·)
  | _ => []

/-! ### Engine writes and their publication (R133, R134) -/

/-- What names an engine operation's writes. -/
structure Issuer where
  op    : Nat
  part  : Nat
  core  : Nat
  team  : Nat
  group : Nat
  deriving DecidableEq, Repr

/-- An entry for a byte that an engine operation writes, or may come to write. -/
def Issuer.entry (x : Issuer) (l : Loc) (bytes : List Byte) (ended : Bool) : Unpub :=
  ⟨l, bytes, x.op, x.part, x.core, x.team, x.group, ended, [], false, none, none, 0, none⟩

/-- Destination bytes that may show an operation's data from its acceptance on (R133), of a connection where `conn`. -/
def Issuer.ahead (x : Issuer) (conn : Bool) : List (Loc × Nat) → List Byte → List Unpub
  | d :: ds, b :: bs => { x.entry d.1 [b] false with conn := conn } :: Issuer.ahead x conn ds bs
  | _, _ => []

/-- Destination bytes whose values are not known before the operation ends (R133). -/
def Issuer.blank (x : Issuer) (ds : List (Loc × Nat)) : List Unpub := ds.map (fun d => x.entry d.1 [] false)

/-- Without the entries of an operation that has not made its write. -/
def dropAhead (op : Nat) (us : List Unpub) : List Unpub := us.filter (fun u => !(decide (u.op = op) && !u.ended))

/-- The write of an operation to a place is made: its entry holds the byte, and keeps the ordinary writes that it has met. -/
def makeWrite (x : Issuer) (l : Loc) (b : Byte) (us : List Unpub) : List Unpub :=
  let mine (u : Unpub) : Bool := decide (u.op = x.op ∧ u.loc = l)
  match us.find? mine with
  | none => us ++ [x.entry l [b] true]
  | some e => us.filter (fun u => !mine u) ++ [{ e with bytes := [b], ended := true }]

/-- One engine write: made, and outside T until it is published. It clears the granule's tag (R64). -/
def State.engineByte (s : State) (x : Issuer) (d : Loc × Nat) (b : Byte) : State :=
  let s1 := ((((s.snapAt d.1).stamp d.2 d.1).noteWrite d.1 b).setTag d.1 false)
  { s1 with unpub := makeWrite x d.1 b s1.unpub }

/-- The writes of an operation, ascending. -/
def State.engineWrite (s : State) (x : Issuer) : List (Loc × Nat) → List Byte → State
  | d :: ds, b :: bs => State.engineWrite (s.engineByte x d b) x ds bs
  | _, _ => s

/-- Does a publication at a level cover an entry: its operation is one of those, the write is made, and it is not published at the level or wider? -/
def Unpub.covered (ops : Nat → Bool) (level : Nat) (u : Unpub) : Bool := ops u.op && u.ended && u.pubs.all (fun e => decide (e.1 < level))

/-- Publish the engine writes of some operations at a level: they take their place in T now. -/
def publishOps (ops : Nat → Bool) (level n : Nat) (us : List Unpub) : List Unpub :=
  us.map (fun u => if u.covered ops level then { u with pubs := u.pubs ++ [(level, n)] } else u)

/-- A publication point (R134). Cached octets take the published bytes as one more version (R77). -/
def State.publish (s : State) (ops : Nat → Bool) (level : Nat) : State :=
  let s1 := { s with unpub := publishOps ops level (s.place + 1) s.unpub, place := s.place + 1 }
  ((s.unpub.filter (·.covered ops level)).map (·.loc)).foldl State.versions s1

/-! ### Connections (R136, R137) -/

/-- Does the write wait for its own flow, which still runs? -/
def State.unmade (s : State) (q : Posted) : Bool := q.engine && (Tab.find s.copies q.op).isSome

/-- R309: are save frames short for the writes to reach their targets? -/
def State.shortFor (s : State) (qs : List Posted) : Bool := (s.snapShort (qs.flatMap (fun q => q.writes.map (·.1)))).isSome

/-- A flow's write reaches its target, and stands there for every observer; one that is undefined stays so (R118, R318). -/
def Unpub.arrive (u : Unpub) (op n : Nat) : Unpub :=
  if u.op = op ∧ u.conn ∧ u.ended ∧ u.shown = none then { u with shown := some n, dead := u.dead.map (fun _ => n) } else u

/-- An engine write that a posted store of its byte does not touch: a later flow of the same group, in whose order it stands after the store; or one undefined by a
kill, the store having been posted before (R318). -/
def Posted.spares (q : Posted) (u : Unpub) : Bool :=
  q.writes.any (fun w => decide (w.1 = u.loc)) &&
    ((u.conn && decide (u.shown = none ∧ u.group = q.group ∧ q.op < u.op)) || (q.stale && u.dead.isSome))

/-- A posted store reaches its target. -/
def State.landStore (s : State) (q : Posted) : State :=
  let kept := (s.unpub.filter q.spares).map (fun u => { u with dead := u.dead.map (fun _ => s.place + 1) })
  let s1 := q.writes.foldl (fun s w => s.writeByte w.2.1 w.1 w.2.2) s
  if kept.isEmpty then s1
  else { s1 with unpub := s1.unpub.filter (fun u => !kept.any (fun v => decide (v.op = u.op ∧ v.loc = u.loc))) ++ kept, place := s1.place + 1 }

/-- A posted write reaches its target. -/
def State.land (s : State) (q : Posted) : State :=
  if q.engine then
    let x : Issuer := ⟨q.op, q.part, q.core, q.team, q.group⟩
    let s1 := q.writes.foldl (fun s w => s.engineByte x (w.1, w.2.1) w.2.2) s
    { s1 with unpub := s1.unpub.map (fun u => u.arrive q.op (s1.place + 1)), place := s1.place + 1 }
  else s.landStore q

/-- The posted writes that must reach their targets for some to: those, and the ones before them in their order. -/
def dueFor (need : Posted → Bool) : List Posted → List Posted
  | [] => []
  | q :: qs =>
    let r := dueFor need qs
    if need q || r.any q.together then q :: r else r

/-- Must some posted writes wait for a flow that still runs, or for save frames? -/
def State.stuck (s : State) (need : Posted → Bool) : Bool := (dueFor need s.posted).any s.unmade || s.shortFor (dueFor need s.posted)

/-- Some posted writes reach their targets, behind those before them in their order. -/
def State.landFor (s : State) (need : Posted → Bool) : State :=
  let qs := dueFor need s.posted
  qs.foldl State.land { s with posted := s.posted.filter (fun q => !qs.contains q) }

/-- The first posted write that stands in one order with q reaches its target, unless it waits for its flow or for save frames. -/
def State.landFirst (s : State) (q : Posted) : State :=
  match s.posted.find? q.together with
  | none => s
  | some r => if s.unmade r || s.shortFor [r] then s else ({ s with posted := s.posted.erase r }).land r

/-- Posted writes with a property reach their targets, each group's on a connection in its order (R136): which and how many is a free choice of at most n, the
device's own (R4). -/
def State.arrive (s : State) (hit : Posted → Bool) : Nat → State
  | 0 => s
  | n + 1 =>
    match s.posted.filter hit with
    | [] => s
    | q :: qs =>
      let (f, s1) := s.fresh domDevice
      if f.getLsbD 0 then State.arrive (s1.landFirst ((q :: qs).getD (f.toNat / 2 % (qs.length + 1)) q)) hit n else s1

/-- The posted writes of a connection. -/
def onConn (part : Nat) (dev : Option Nat) (q : Posted) : Bool := decide (q.part = part ∧ q.dev = dev)

/-- A connection is lost: of each group's writes on it some, in order, have reached the target, and none of the others does (R321, R328). -/
def State.cutConn (s : State) (part : Nat) (dev : Option Nat) : State :=
  let s1 := s.arrive (onConn part dev) s.posted.length
  { s1 with posted := s1.posted.filter (fun q => !onConn part dev q) }

/-- The other end of the connection that a place lies behind: none for a place of this device. -/
def Loc.far : Loc → Option (Option Nat)
  | .host _ => some none
  | .peer d _ _ => some (some d)
  | _ => none

/-- R136: a read of a place behind a connection finds what has arrived there. -/
def State.arriveAt (s : State) (l : Loc) : State :=
  match l.far with
  | none => s
  | some dev => s.arrive (fun q => decide (q.dev = dev)) s.posted.length

/-- A group's own earlier writes on the connection that a place lies behind. -/
def ownBehind (part group : Nat) (l : Loc) (q : Posted) : Bool :=
  match l.far with
  | none => false
  | some dev => decide (q.group = group) && onConn part dev q

end Sys2Proof.Machine
end

