-- ==== Sys2Proof/Machine/Rings.lean ====
section
/-! DEFINITION. Completion records of the management stream and its notices (spec/18_streams_launch_preemption.md R285, R295; spec/19_traps_faults_recovery.md
R307, R309): what the device posts when a partition is short of save frames. -/

namespace Sys2Proof.Machine

/-! ### Completion records (R285) and notices -/

/-- Quadword 0 of a completion record. -/
def compWord (stream fault reason tag type status : Nat) : W64 :=
  BitVec.ofNat 64 (stream * 2 ^ 48 + fault * 2 ^ 40 + reason * 2 ^ 32 + tag * 2 ^ 16 + type * 2 ^ 8 + status)

/-- The statuses of R285. -/
def stDone : Nat := 1
def stRejected : Nat := 2
def stFaulted : Nat := 3
def stKilled : Nat := 4
def stRefused : Nat := 5
def stNotice : Nat := 6

/-- Is there room in a completion ring (R279)? -/
def Stream.room (d : Stream) : Bool := decide ((d.compProd - d.compCons).toNat < 2 ^ d.compLog2.toNat)

/-- The place of the next completion record. -/
def Stream.compAddr (d : Stream) : Nat := d.compBase.toNat + 16 * (d.compProd.toNat % 2 ^ d.compLog2.toNat)

/-- Write the completion records of the management stream that are due, while its ring has room; its addresses are machine addresses (R258). -/
def State.mgmtFlush (s : State) : List (W64 × W64) → State
  | [] => { s with pf := { s.pf with mgmt := { s.pf.mgmt with due := [] } } }
  | q :: qs =>
    let d := s.pf.mgmt
    if d.room && !s.shortAt d.compAddr 16 then
      let s1 := (s.devPut d.compAddr q.1).devPut (d.compAddr + 8) q.2
      State.mgmtFlush { s1 with pf := { s1.pf with mgmt := { s1.pf.mgmt with compProd := d.compProd + 1 } } } qs
    else { s with pf := { s.pf with mgmt := { d with due := q :: qs } } }

/-- A completion record of the management stream, with the timebase at completion (R285). -/
def State.mgmtPost (s : State) (q : W64) : State := s.mgmtFlush (s.pf.mgmt.due ++ [(q, s.timebase)])

/-- A NOTICE completion of the management stream (R295, R307). -/
def State.notice (s : State) (type fault tag : Nat) : State := s.mgmtPost (compWord 0xFFFF fault 0 tag type stNotice)

/-! ### Save frames (R295, R309) -/

/-- R295: an engine or a snapshot copy of the partition needs a frame and finds none: one notice, until a frame is added. -/
def State.starve (s : State) (p : Nat) : State :=
  match s.part? p with
  | none => s
  | some x => if x.starved then s else (s.putPart p { x with starved := true }).notice 0x81 0x40 p

/-- R309, R295: a write to these places stalls for want of frames. -/
def State.starveAny (s : State) (ls : List Loc) : State :=
  match s.snapShort ls with
  | none => s
  | some p => s.starve p

/-- The same for the device's own write of n bytes at a machine address, and for posted writes that must reach their targets. -/
def State.starveAt (s : State) (a n : Nat) : State := s.starveAny ((List.range n).map (fun i => .dev (a + i)))
def State.starvePosted (s : State) (need : Posted → Bool) : State := s.starveAny ((dueFor need s.posted).flatMap (fun q => q.writes.map (·.1)))

end Sys2Proof.Machine
end

