-- ==== Sys2Proof/Machine/Access.lean ====
section
/-! DEFINITION. Accesses through capabilities (spec/04_memory_capabilities_tensors.md R62, R63, R67; spec/12_ref_memory_sync_transfer.md R196, R197): the
capability checks in their order, the checks that follow translation, and the performance of loads and stores, held stores included (R44). -/

namespace Sys2Proof.Machine

/-- Does the group's launch run in held-effects mode (R44)? -/
def State.heldMode (s : State) (launch : Nat) : Bool :=
  match s.launch? launch with
  | none => false
  | some l => decide (l.recovery = rcHeld)

/-! ### Who accesses -/

/-- An issuing unit: how it observes, its partition's tables, its team (0 for an engine that acts for none), the team's team memory and
weight buffer allocations, whether its launch holds stores, and whether it checks `c31` by R273 (1 for a U group, 2 for an S or H group). -/
structure Actor where
  obs   : Obs
  tb    : Translation
  team  : Nat
  tm    : Nat
  wb    : Nat
  held  : Bool
  stack : Nat
  deriving DecidableEq, Repr

/-- The issuing unit of a group. -/
def State.actor (s : State) (uid : Nat) (g : Group) : Actor :=
  let t := s.team? g.team
  { obs := ⟨uid, g.team, g.core, g.part, 0, s.domOf g⟩, tb := s.tbOf g.part, team := g.team,
    tm := (t.map (·.tmBytes)).getD 0, wb := (t.map (·.wbBytes)).getD 0,
    held := s.heldMode g.launch, stack := if g.level = .u then 1 else 2 }

/-! ### Faults and soft faults -/

/-- A hard fault: its code, and the fault address and detail of its record (R303). -/
structure Hard where
  cause : Nat
  lane  : Option Nat
  obj   : Nat
  off   : Nat
  extra : W64
  deriving DecidableEq, Repr

def Hard.plain (cause : Nat) : Hard := ⟨cause, none, 0, 0, 0⟩

/-- A soft fault, as its SOFTFAULT record names the page (R270); `away` is one that the owner of a remote window meets and records (R326). -/
structure Soft where
  stage2 : Bool
  mig    : Bool
  fetch  : Bool
  obj    : Nat
  addr   : Nat
  away   : Bool
  deriving DecidableEq, Repr

/-- Why an access is not performed: a hard fault, a soft fault, a wait at the memory side (R262, R309), or an address that does not exist. -/
inductive Stop where
  | hard (h : Hard)
  | soft (f : Soft)
  | wait
  | beyond (addr : Nat)
  deriving DecidableEq, Repr

/-- The fault codes of R308. -/
def fcIllInst : Nat := 0x01
def fcIllOp : Nat := 0x02
def fcIllCtl : Nat := 0x03
def fcStall : Nat := 0x04
def fcWindow : Nat := 0x05
def fcPriv : Nat := 0x06
def fcTrap : Nat := 0x07
def fcBreak : Nat := 0x08
def fcBounds : Nat := 0x10
def fcRights : Nat := 0x11
def fcTag : Nat := 0x12
def fcWiden : Nat := 0x13
def fcAlign : Nat := 0x14
def fcObject : Nat := 0x19
def fcExec : Nat := 0x1A
def fcKey : Nat := 0x1B
def fcRevoked : Nat := 0x20
def fcLimit : Nat := 0x21
def fcRange : Nat := 0x22
def fcRoute : Nat := 0x23
def fcOrphan : Nat := 0x28
def fcGang : Nat := 0x29
def fcBarrier : Nat := 0x2A
def fcStack : Nat := 0x2C
def fcHandler : Nat := 0x2D
def fcHeld : Nat := 0x2E
def fcShadow : Nat := 0x30
def fcUncorr : Nat := 0x31
def fcAtomic : Nat := 0x38
def fcHostif : Nat := 0x39
def fcSevered : Nat := 0x3A
def fcFrames : Nat := 0x40
def fcReset : Nat := 0x41
def fcWatchdog : Nat := 0x42

/-! ### The capability checks of R62 -/

/-- One access of an instruction: the lane that it stands for, and its offset from the capability's BASE (R196). -/
structure Acc where
  lane : Nat
  off  : Nat
  deriving DecidableEq, Repr

/-- The first access of a list with a property. -/
def firstAcc (p : Acc → Bool) : List Acc → Option Acc
  | [] => none
  | a :: as => if p a then some a else firstAcc p as

/-- R62 step 3, with the team allocation of R67. -/
def boundsBad (x : Actor) (c : Cap) (w : Nat) (a : Acc) : Bool :=
  decide (c.length < a.off + w) || (decide (c.kind = kTeam) && decide (x.tm < c.base + a.off + w)) ||
    (decide (c.kind = kWbuf) && decide (x.wb < c.base + a.off + w))

/-- R62 step 2, right G: does the object of a MEM capability lie on another device, by the object entry that an access to offset x uses? While a cached
translation still serves the offset the old entry may be the one (R269): that entry lies here, as no cached line is a peer's. -/
def State.onPeer (s : State) (a : Actor) (c : Cap) (x : Nat) : Bool × State :=
  if c.kind = kWindow then (true, s)
  else if c.kind ≠ kMem then (false, s)
  else match s.objEntry a.tb c.obj with
    | .at e =>
      if e.place ≠ plPeer then (false, s)
      else if (s.cached (a.obs.core / 8) c.obj x 1).isEmpty then (true, s)
      else
        let (f, s1) := s.fresh a.obs.dom
        (f.getLsbD 0, s1)
    | _ => (false, s)

/-- R62: the capability checks of an instruction's accesses, in their order. `kinds` are the kinds of R63 that the use accepts. -/
def State.capCheck (s : State) (x : Actor) (c : Cap) (kinds : List Nat) (need w : Nat) (accs : List Acc) : Option Hard × State :=
  let at0 (a : Acc) (cause : Nat) : Hard := ⟨cause, some a.lane, c.obj, c.base + a.off, 0⟩
  match accs with
  | [] => (none, s)
  | a0 :: _ =>
    if !c.tag then (some (at0 a0 fcTag), s)
    else if !kinds.contains c.kind || !c.has need then (some (at0 a0 fcRights), s)
    else
      let (far, s1) := s.onPeer x c (c.base + a0.off)
      if far && !c.has rG then (some (at0 a0 fcRights), s1)
      else match firstAcc (boundsBad x c w) accs with
        | some a => (some (at0 a fcBounds), s1)
        | none => ((firstAcc (fun a => decide ((c.base + a.off) % w ≠ 0)) accs).map (fun a => at0 a fcAlign), s1)

/-! ### After translation (R197) -/

/-- What an access does, as R197 distinguishes it. -/
inductive Use where
  | load | store | atomic | cld | cst
  deriving DecidableEq, Repr

/-- Does the use read the sector (R197)? -/
def Use.reads : Use → Bool
  | .load => true
  | .atomic => true
  | .cld => true
  | _ => false

/-- Does the use write? -/
def Use.writes : Use → Bool
  | .store => true
  | .atomic => true
  | .cst => true
  | _ => false

/-- The answer of a remote window's owner, which is another device's to give (R326, log entry 12): 0 it passes, 1 it refuses, 2 it meets a soft fault. -/
def State.peerAnswer (s : State) (d : Nat) : Nat × State :=
  let (f, s') := s.fresh d
  (f.toNat % 4, s')

/-- What the owner of a peer object makes of a translation (R326): it refuses it with reason 5, or meets a soft fault (stage 3, at the 64 KiB block). An owner that
no link reaches is not asked. -/
def State.askOwner (s : State) (d p x : Nat) (w : Walk Trans) : Walk Trans × State :=
  match w with
  | .at t =>
    match t.peer with
    | none => (w, s)
    | some dev =>
      if !s.linkUp p dev then (w, s)
      else match s.peerAnswer d with
        | (1, s1) => (.object 5, s1)
        | (2, s1) => (.page 3 (x / 2 ^ 16 * 2 ^ 16), s1)
        | (_, s1) => (w, s1)
  | _ => (w, s)

/-- Does the host complete a HOSTIO load with UR, CA or a timeout (R197)? The host's to say (log entry 12). -/
def State.hostRefuses (s : State) (d : Nat) : Bool × State :=
  let (f, s') := s.fresh d
  (f.getLsbD 0, s')

/-- R321 step 1: the host port sends nothing of the partition's TDI, whose accesses then wait. -/
def State.hostCut (s : State) (p : Nat) : Bool := ((s.part? p).map (·.cut)).getD false

/-- R197, R261, R262, R309: the checks of one translated access, in their order. Whether a peer's sector is marked uncorrectable is the peer's to say (log entry 12). -/
def State.afterWalk (s : State) (x : Actor) (c : Cap) (u : Use) (w : Nat) (a : Acc) (t : Trans) : Except Stop Trans × State :=
  let hard (cause : Nat) (extra : W64) : Except Stop Trans := .error (.hard ⟨cause, some a.lane, c.obj, c.base + a.off, extra⟩)
  if s.keyHeld x.obs.part t.slot then (.error .wait, s)
  else if s.keyBad x.obs.part t.slot then (hard fcKey 0, s)
  else if decide (c.kind = kHostio) && s.hostCut x.obs.part then (.error .wait, s)
  else
    match t.peer with
    | some d =>
      if !c.has rG then (hard fcRights 0, s)
      else if !s.linkUp x.obs.part d then (hard fcSevered 0, s)
      else
        match s.askOwner x.obs.dom x.obs.part (c.base + a.off) (.at t) with
        | (.object n, s') => (hard fcObject (BitVec.ofNat 64 n), s')
        | (.page _ y, s') => (.error (.soft ⟨false, false, false, c.obj, y, true⟩), s')
        | (_, s') =>
          let (f, s2) := s'.fresh x.obs.dom
          if u.reads && f.getLsbD 0 then (hard fcUncorr 0, s2) else (.ok t, s2)
    | none =>
      if u.reads && s.marked t.loc w then (hard fcUncorr 0, s)
      else if decide (c.kind = kHostio) && decide (u = .load) then
        match s.hostRefuses x.obs.dom with
        | (true, s') => (hard fcUncorr 0, s')
        | (false, s') => (.ok t, s')
      else if u.writes && !x.held && s.snapBlocked t.loc then (.error .wait, s.starveAny [t.loc])
      else (.ok t, s)

/-- R64: a `cst` to an object placed in host memory has no tag to write. The placement is that of the entry whose walk the access uses (R269). -/
def hostTagless (c : Cap) (u : Use) (r : Walk Trans) (e : Walk ObjEntry) : Bool :=
  decide (u = .cst) && decide (c.kind = kMem) && (match r, e with
    | .at t, _ => decide (t.place = plHost)
    | _, .at e => decide (e.place = plHost)
    | _, _ => false)

/-- The fault of a walk that ends without a translation (R266, R273). -/
def walkStop (x : Actor) (viaStack : Bool) (c : Cap) (pageBytes : Nat) (a : Acc) : Walk Trans → Stop
  | .at _ => .wait
  | .object r => .hard ⟨fcObject, some a.lane, c.obj, c.base + a.off, BitVec.ofNat 64 r⟩
  | .page st addr =>
    if st = 3 then .soft ⟨false, false, false, c.obj, addr, true⟩
    else if viaStack then .hard ⟨if x.stack = 1 then fcStack else fcHandler, some a.lane, c.obj, if st = 2 then addr else c.base + a.off, 0⟩
    else .soft ⟨decide (st = 2), false, false, c.obj, if st = 2 then addr else addr / pageBytes * pageBytes, false⟩
  | .migrating => .soft ⟨false, true, false, c.obj, (c.base + a.off) / pageBytes * pageBytes, false⟩
  | .beyond m => .beyond m

/-- The page size of an object, as its record names pages (R270). -/
def State.pageOf (s : State) (x : Actor) (o : Nat) : Nat :=
  match s.objEntry x.tb o with
  | .at e => e.pageBytes
  | _ => 2 ^ 16

/-- One access after the checks of R62: the translation of its first byte, or why it is not performed. -/
def State.resolve (s : State) (x : Actor) (viaStack : Bool) (c : Cap) (u : Use) (w : Nat) (a : Acc) : Except Stop Trans × State :=
  if c.kind = kTeam then (.ok ⟨.team x.team (c.base + a.off), 0, plVault, false, false, false, false, none⟩, s)
  else
    let (r, s1) := s.translate x.obs.dom (x.obs.core / 8) x.obs.part x.tb c.kind c.obj (c.base + a.off) w
    match r with
    | .object n => (.error (.hard ⟨fcObject, some a.lane, c.obj, c.base + a.off, BitVec.ofNat 64 n⟩), s1)
    | r =>
      if hostTagless c u r (s.objEntry x.tb c.obj) then (.error (.hard ⟨fcRights, some a.lane, c.obj, c.base + a.off, 0⟩), s1)
      else match r with
        | .at t => s1.afterWalk x c u w a t
        | r => (.error (walkStop x viaStack c (s.pageOf x c.obj) a r), s1)

/-- All accesses of an instruction, ascending: every translation, or the stop of the lowest failing lane. -/
def State.resolveAll (s : State) (x : Actor) (viaStack : Bool) (c : Cap) (u : Use) (w : Nat) : List Acc → Except Stop (List (Acc × Trans)) × State
  | [] => (.ok [], s)
  | a :: as =>
    match s.resolve x viaStack c u w a with
    | (.error e, s1) => (.error e, s1)
    | (.ok t, s1) =>
      match State.resolveAll s1 x viaStack c u w as with
      | (.error e, s2) => (.error e, s2)
      | (.ok ts, s2) => (.ok ((a, t) :: ts), s2)

/-! ### Hotness (R276): a request from a remote requester to a block of device memory -/

/-- The requester of an access from a core: the die, unless it is the block's own (R276). -/
def dieReq (core : Nat) (unit : Nat) : Option W32 :=
  if core / 64 = unit / 4 then none else some (BitVec.ofNat 32 (core / 64))

/-- The key of counter `idx` of a unit. -/
def hotKey (unit idx : Nat) : Nat := unit * 8192 + idx

/-- A counter that serves nothing. -/
def HotCtr.free : HotCtr := ⟨0, 0, 0, 0, false, 0⟩

/-- The way that takes a new pair: a free one, else the least recently incremented unsaturated one (R276). -/
def victimWay (hot : Tab HotCtr) (base : Nat) : Nat → Option (Nat × Nat)
  | 0 => none
  | n + 1 =>
    let c := Tab.get HotCtr.free hot (base + n)
    let r := victimWay hot base n
    if c.sat then r
    else match r with
      | none => some (base + n, c.stamp)
      | some (k, st) => if c.stamp < st then some (base + n, c.stamp) else some (k, st)

/-- The HOTNESS record that a counter posts (R277): TYPE, the block, the TOKEN (index, generation) and the requester; its object and offset are filled in
when it is posted. -/
def hotRec (k : Nat) (c : HotCtr) : SvcRec :=
  ⟨2, BitVec.ofNat 64 c.block, BitVec.ofNat 64 (k % 8192 + c.gen * 2 ^ 13 + c.req.toNat * 2 ^ 32)⟩

/-- A counter takes a new value; one that reaches the threshold saturates, and its record waits to be posted. -/
def Part.hotPut (x : Part) (thresh k : Nat) (c : HotCtr) : Part :=
  let c1 : HotCtr := { c with sat := decide (thresh ≤ c.count) }
  { x with hot := Tab.put x.hot k c1, hotQ := if c1.sat then x.hotQ ++ [hotRec k c1] else x.hotQ }

/-- The generation of a counter given to a new pair: it rises, and its low four bits name the unit, so that a TOKEN means one counter (log entry 122). -/
def nextGen (unit gen : Nat) : Nat := ((gen / 16 + 1) * 16 + unit % 16) % 2 ^ 19

/-- R276, R277: count a request of `req` for the 64 KiB block at machine address a; a counter that reaches the threshold saturates. -/
def Part.hotCount (x : Part) (thresh aclk unit a : Nat) (req : W32) : Part :=
  let block := a / 2 ^ 16
  let base := hotKey unit (block % 512 * 16)
  match (Tab.slice x.hot base 16).find? (fun e => decide (e.2.block = block ∧ e.2.req = req)) with
  | some (k, c) => if c.sat then x else x.hotPut thresh k { c with count := c.count + 1, stamp := aclk + 1 }
  | none =>
    match victimWay x.hot base 16 with
    | none => x
    | some (k, _) => x.hotPut thresh k ⟨block, req, 1, nextGen unit (Tab.get HotCtr.free x.hot k).gen, false, aclk + 1⟩

/-- The host as a requester (R277). -/
def hostReq : W32 := 2#2 ++ (0 : BitVec 30)

/-- Does the home of a place count at all: HOTTHRESH is not 0? -/
def State.counts (s : State) (a : Nat) : Bool :=
  ((Config.unitOf a).bind s.unitPart).any (fun p => decide ((s.tbOf p).hotThresh ≠ 0))

/-- A request of `req` for a place is counted at its home (R276). -/
def State.hotRequest (s : State) (req : Nat → Option W32) (a : Nat) : State :=
  if s.counts a then
    match Config.unitOf a with
    | none => s
    | some unit =>
      match s.unitPart unit, req unit with
      | some p, some r => s.onPart p (·.hotCount (s.tbOf p).hotThresh s.aclk unit a r)
      | _, _ => s
  else s

/-- R276: a request of a device agent for a byte of device memory. Whether a lane's access reaches the home, past the caches, is not stated: a
free choice of owner d; so is whether the home has to snoop the host for it (log entry 13). `sure` marks requests that always reach the home. -/
def State.hotness (s : State) (d : Nat) (req : Nat → Option W32) (sure : Bool) (l : Loc) : State :=
  match l with
  | .dev a =>
    if s.counts a then
      let (f, s1) := s.fresh d
      let s2 := if sure || f.getLsbD 0 then s1.hotRequest req a else s1
      if f.getLsbD 1 then s2.hotRequest (fun _ => some hostReq) a else s2
    else s
  | _ => s

/-- R276: the requests of an engine: one for each sector that its places enter, `last` being the sector before. -/
def State.engineHot (s : State) (d core : Nat) (last : Option Nat) : List Loc → State
  | [] => s
  | l :: ls =>
    match l with
    | .dev a => if last = some (a / 32) then State.engineHot s d core last ls else State.engineHot (s.hotness d (dieReq core) false l) d core (some (a / 32)) ls
    | _ => State.engineHot s d core none ls

/-! ### Performing accesses -/

/-- The held byte of a team at a place (R44). -/
def Team.heldAt (t : Team) (l : Loc) : Option Held := t.held.find? (fun h => decide (h.loc = l))

/-- The byte that an issuing unit reads: its team's held byte first. -/
def State.fetchByte (s : State) (x : Actor) (k : Nat) (l : Loc) : Byte × State :=
  match (s.team? x.team).bind (·.heldAt l) with
  | some h => (h.byte, s)
  | none => s.readByte x.obs k l

def State.fetchBytes (s : State) (x : Actor) (k : Nat) (l : Loc) : Nat → List Byte × State
  | 0 => ([], s)
  | n + 1 =>
    let (b, s1) := s.fetchByte x k l
    let (bs, s2) := State.fetchBytes s1 x k (l.add 1) n
    (b :: bs, s2)

/-- One load of w bytes. -/
def State.loadAcc (s : State) (x : Actor) (w : Nat) (t : Trans) : List Byte × State :=
  ((s.hotness x.obs.dom (dieReq x.obs.core) false t.loc).arriveAt t.loc).fetchBytes x t.slot t.loc w

/-- The sector of a place in the commit buffer (R44). -/
def Loc.sectorOf : Loc → Loc
  | .dev a => .dev (a / 32)
  | .host a => .host (a / 32)
  | .peer d i o => .peer d i (o / 32)
  | .team t o => .team t (o / 32)
  | .wbuf t o => .wbuf t (o / 32)

/-- The granule of a place. -/
def Loc.granule : Loc → Loc
  | .dev a => .dev (a / 16)
  | .host a => .host (a / 16)
  | .peer d i o => .peer d i (o / 16)
  | .team t o => .team t (o / 16)
  | .wbuf t o => .wbuf t (o / 16)

/-- The tag that `cld` reads: that of its team's held bytes of the granule first, where any write clears it (R64); a sector of another slot or generation is
untagged (R261). -/
def State.loadTag (s : State) (x : Actor) (t : Trans) : Bool :=
  let held := (((s.team? x.team).map (·.held)).getD []).filter (fun h => decide (h.loc.granule = t.loc.granule))
  match held with
  | [] => s.readable t.slot t.loc && s.tagAt t.loc
  | hs => hs.all (·.tag)

/-- The sectors of a commit buffer. -/
def heldSectors (hs : List Held) : List Loc := (hs.map (fun h => h.loc.sectorOf)).eraseDups

/-- A byte enters the commit buffer: it replaces an earlier one, and its granule takes the tag. -/
def holdByte (hs : List Held) (h : Held) : List Held :=
  (hs.filter (fun x => decide (x.loc ≠ h.loc))).map (fun x => if x.loc.granule = h.loc.granule then { x with tag := h.tag } else x) ++ [h]

/-- A list of bytes enters the commit buffer from a place on. -/
def holdBytes (k : Nat) (tag : Bool) (l : Loc) : List Byte → List Held → List Held
  | [], hs => hs
  | b :: bs, hs => holdBytes k tag (l.add 1) bs (holdByte hs ⟨l, k, b, tag⟩)

/-- Does the place lie in the team's own stores? -/
def Loc.isTeam : Loc → Bool
  | .team _ _ => true
  | .wbuf _ _ => true
  | _ => false

/-- One posted write on a connection, under a number of its own (R136): it reaches its target later, after the group's earlier ones. -/
def State.postWrite (s : State) (x : Actor) (k : Nat) (l : Loc) (bs : List Byte) : State :=
  let (op, s1) := s.newUid
  { s1 with posted := s1.posted ++ [⟨x.obs.part, l.far.getD none, x.obs.group, x.obs.team, x.obs.core, op, false, false,
      (List.range bs.length).map (fun i => (l.add i, k, bs.getD i 0))⟩] }

/-- One store: into memory, onto a connection, or into the commit buffer, from which it reaches its home at the commit. -/
def State.storeAcc (s : State) (x : Actor) (c : Cap) (t : Trans) (bs : List Byte) : State :=
  if x.held && !t.loc.isTeam then s.onTeam x.team (fun tm => { tm with held := holdBytes t.slot false t.loc bs tm.held })
  else
    let s1 := s.hotness x.obs.dom (dieReq x.obs.core) false t.loc
    if c.kind = kHostio ∨ c.kind = kWindow then s1.postWrite x t.slot t.loc bs else s1.writeBytesAt t.slot t.loc bs

/-- One `cst`: 16 bytes and the tag, as one access (R64, R202). -/
def State.storeCap (s : State) (x : Actor) (t : Trans) (c : Cap) : State :=
  let bs := toBytes 16 c.bits.toNat
  if x.held && !t.loc.isTeam then s.onTeam x.team (fun tm => { tm with held := holdBytes t.slot c.tag t.loc bs tm.held })
  else ((s.hotness x.obs.dom (dieReq x.obs.core) false t.loc).writeBytes t.slot t.loc bs).setTag t.loc c.tag

/-- R45: would the stores need more than 2,048 sectors of the commit buffer? -/
def State.heldFull (s : State) (x : Actor) (places : List (Loc × Nat)) : Bool :=
  match s.team? x.team with
  | none => false
  | some tm =>
    let new := (places.filter (fun e => !e.1.isTeam)).map (fun e => e.1.sectorOf)
    decide (2048 < ((heldSectors tm.held ++ new).eraseDups).length)

/-! ### Stores that the service queue answers (R270, R272, R277) -/

/-- What a store to these addresses asks of one queue: RESOLVE, HOTCLR with its TOKEN. -/
def queueHooks (s : State) (as : List Nat) (p sq : Nat) : List (Nat × Option W32) :=
  (if as.any (fun a => decide (sq + 16 ≤ a ∧ a < sq + 24)) then [(p, none)] else []) ++
  (if as.any (fun a => decide (sq + 24 ≤ a ∧ a < sq + 32)) then [(p, some (BitVec.ofNat 32 (s.devNat (sq + 24) 4)))] else [])

/-- The queues of the partitions' current contexts, by machine address. -/
def State.queues (s : State) : List (Nat × Nat) :=
  s.parts.filterMap (fun e => match e.2.ctx.bind s.ctx? with
    | none => none
    | some c => if c.tb.sqSize = 0 then none else some (e.1, c.tb.sqBase))

/-- The registers of a queue after a store to some of its first 32 bytes: PRODUCER, which is read-only, and bytes of CONSUMER that were not stored stand as before,
whatever key the store used; RESOLVE and HOTCLR, which are write-only, read 0 (R5, R270). -/
def queueKeep (s0 : State) (sq : Nat) (as : List Nat) (m : Memory) : Memory :=
  if as.any (fun a => decide (sq ≤ a ∧ a < sq + 32)) then
    (List.range 32).foldl (fun m i =>
      if 16 ≤ i then Tab.set 0 m (sq + i) 0
      else if 8 ≤ i ∧ as.contains (sq + i) then m
      else Tab.set 0 m (sq + i) (Tab.get 0 s0.mem (sq + i))) m
  else m

/-- Is a place one of the registers of a queue whose bytes no write replaces: PRODUCER, RESOLVE, HOTCLR? -/
def queueReg (qs : List (Nat × Nat)) (l : Loc) : Bool :=
  match l with
  | .dev a => qs.any (fun e => decide ((e.2 ≤ a ∧ a < e.2 + 8) ∨ (e.2 + 16 ≤ a ∧ a < e.2 + 32)))
  | _ => false

/-- The byte that some writes give a machine address, 0 where they give none. -/
def byteGiven (a : Nat) (ws : List ((Loc × Nat) × Byte)) : Byte := ((ws.reverse.find? (fun w => decide (w.1.1 = .dev a))).map (·.2)).getD 0

/-- What an engine's writes ask of one queue. -/
def engineHooks (ws : List ((Loc × Nat) × Byte)) (p sq : Nat) : List (Nat × Option W32) :=
  let meets (lo hi : Nat) : Bool := ws.any (fun w => match w.1.1 with
    | .dev a => decide (lo ≤ a ∧ a < hi)
    | _ => false)
  (if meets (sq + 16) (sq + 24) then [(p, none)] else []) ++
  (if meets (sq + 24) (sq + 32) then [(p, some (BitVec.ofNat 32 (ofBytes ((List.range 4).map (fun i => byteGiven (sq + 24 + i) ws)))))] else [])

/-- The writes of an engine's operation: its bytes, and what the registers of service queues among its places make of theirs (R270). -/
def State.engineStore (s : State) (x : Issuer) (ds : List (Loc × Nat)) (bs : List Byte) : State :=
  let ws := ds.zip bs
  let plain := ws.filter (fun w => !queueReg s.queues w.1.1)
  let s1 := s.engineWrite x (plain.map (·.1)) (plain.map (·.2))
  { s1 with hooks := s1.hooks ++ s.queues.flatMap (fun e => engineHooks ws e.1 e.2) }

/-- After a store to these machine addresses, from state s0: the queues that it reached have their turns. -/
def State.queueHook (s s0 : State) (as : List Nat) : State :=
  s0.queues.foldl (fun t e => { t with hooks := t.hooks ++ queueHooks s as e.1 e.2, mem := queueKeep s0 e.2 as t.mem }) s

/-! ### All accesses of an instruction -/

/-- The checks of R266 and R197 for accesses that have passed those of R62: a write that must copy pages waits for frames enough for all of them (R309); a read
through a connection passes none of the group's earlier writes on it (R136). -/
def State.accessAt (s : State) (x : Actor) (viaStack : Bool) (cap : Cap) (u : Use) (w : Nat) (accs : List Acc) : Except Stop (List (Acc × Trans)) × State :=
  match s.resolveAll x viaStack cap u w accs with
  | (.error e, s1) => (.error e, s1)
  | (.ok ts, s1) =>
    let places := ts.map (fun e => e.2.loc)
    if u.writes && !x.held && (s1.snapShort places).isSome then (.error .wait, s1.starveAny places)
    else if (cap.kind = kHostio ∨ cap.kind = kWindow) ∧ u = .load then
      let mine (q : Posted) : Bool := places.any (fun l => ownBehind x.obs.part x.obs.group l q)
      if s1.stuck mine then (.error .wait, s1.starvePosted mine) else (.ok ts, s1.landFor mine)
    else (.ok ts, s1)

/-- Store to each access, ascending; a service queue answers each. -/
def State.storeEach (s : State) (x : Actor) (cap : Cap) (w : Nat) (f : Nat → List Byte) : List (Acc × Trans) → State
  | [] => s
  | (a, t) :: as => State.storeEach ((s.storeAcc x cap t (f a.lane)).queueHook s (if x.held then [] else t.loc.addrs w)) x cap w f as

/-- The machine addresses that some accesses of w bytes cover. -/
def accAddrs (w : Nat) (ts : List (Acc × Trans)) : List Nat := ts.flatMap (fun e => e.2.loc.addrs w)

/-- Perform stores of w bytes at resolved places; none where a held-effects team's commit buffer cannot take them (R45). Sectors written whole are no longer
marked (R197). -/
def State.storeAt (s : State) (x : Actor) (cap : Cap) (w : Nat) (f : Nat → List Byte) (ts : List (Acc × Trans)) : Option State :=
  let places := ts.flatMap (fun e => (List.range w).map (fun i => (e.2.loc.add i, e.2.slot)))
  if x.held && s.heldFull x places then none
  else
    let s1 := s.storeEach x cap w f ts
    some (if x.held then s1 else (s1.versionsAll (ts.map (·.2.loc))).unmark (accAddrs w ts))

end Sys2Proof.Machine
end

