-- ==== Sys2Proof/Machine/Records.lean ====
section
/-! DEFINITION. The context block (spec/18_streams_launch_preemption.md R292, R278; spec/17_translation_and_migration.md R264) and stop records (spec/19_traps_faults_recovery.md R302 to R305; spec/21_program_barrier_watchdog.md R316, R317): the context header of an
engine, group records and lane records, as bytes. -/

namespace Sys2Proof.Machine

/-! ### The context block -/

/-- The translation block at a machine address (R264). -/
def State.readTb (s : State) (a : Nat) : Translation :=
  let b : BitVec 512 := BitVec.ofNat 512 (s.devNat a 64)
  ⟨field b 0 52, field b 64 32, field b 128 52, field b 192 36, field b 256 52, field b 320 32, field b 352 16⟩

/-- STOPVER and SAVEKEY of a context block (R292). -/
def State.readStopver (s : State) (a : Nat) : W8 := BitVec.ofNat 8 (s.devNat (a + 100) 1)
def State.readSavekey (s : State) (a : Nat) : Nat := s.devNat (a + 98) 2 / 16 % 64

/-- The STATE field (R292). -/
def CtxState.code : CtxState → Nat
  | .empty => 0
  | .running => 1
  | .stopping => 2
  | .stopped => 3
  | .halted => 4

/-- The six context registers of SYSREGS in index order (R240, R292). -/
def Context.sysregs (c : Context) : List W64 := [c.stallchk, c.atommode, c.stopmode, c.cxlo, c.cxhi, c.cxdly]

/-- Bytes 64 to 191 of a context block (R292) with SAVEKEY and STOPVER as H has set them. -/
def Context.blockNat (c : Context) (key : Nat) (version : W8) : Nat :=
  ((c.chain.head?.map (·.1)).getD 0) % 2 ^ 52 + c.chain.length % 2 ^ 32 * 2 ^ 232 + c.state.code * 2 ^ 264 + c.cause.toNat * 2 ^ 268 +
    key % 64 * 2 ^ 276 + version.toNat * 2 ^ 288 + ofBytes (c.sysregs.flatMap (fun r => toBytes 8 r.toNat)) * 2 ^ 320

/-- The context block in memory shows its context's state (R292). -/
def State.syncBlock (s : State) (a : Nat) : State :=
  match s.ctx? a with
  | none => s
  | some c => s.devBytes (a + 64) (toBytes 128 (c.blockNat (s.readSavekey a) (s.readStopver a)))

/-- The same for the current context of a partition. -/
def State.syncPart (s : State) (p : Nat) : State :=
  match s.ctxOf p with
  | none => s
  | some a => s.syncBlock a

/-- A stream descriptor as its 64 bytes (R278). -/
def Stream.bits (d : Stream) : Nat :=
  d.ringBase.toNat + d.ringLog2.toNat * 2 ^ 64 + d.prio.toNat * 2 ^ 71 + (if d.enable then 2 ^ 74 else 0) + (if d.error then 2 ^ 75 else 0) +
    d.reason.toNat * 2 ^ 76 + (if d.busy then 2 ^ 84 else 0) + d.tail.toNat * 2 ^ 128 + d.head.toNat * 2 ^ 192 + d.compBase.toNat * 2 ^ 256 +
    d.compLog2.toNat * 2 ^ 320 + d.compProd.toNat * 2 ^ 384 + d.compCons.toNat * 2 ^ 448

/-- The descriptor in 64 bytes; no packet is under way. -/
def Stream.ofBits (n : Nat) : Stream :=
  let b : BitVec 512 := BitVec.ofNat 512 n
  { ringBase := b.extractLsb' 0 52, ringLog2 := b.extractLsb' 64 7, prio := b.extractLsb' 71 3, enable := b.getLsbD 74, error := b.getLsbD 75,
    reason := b.extractLsb' 76 8, busy := false, tail := b.extractLsb' 128 64, head := b.extractLsb' 192 64, compBase := b.extractLsb' 256 52,
    compLog2 := b.extractLsb' 320 5, compProd := b.extractLsb' 384 64, compCons := b.extractLsb' 448 64, step := 0, due := [], past := [] }

/-- R292: the stream descriptors are saved in the block. -/
def State.saveStreams (s : State) (a : Nat) (c : Context) : State :=
  s.devBytes (a + 4096) ((List.range 64).flatMap (fun n => toBytes 64 (Tab.get Stream.zero c.streams n).bits))

/-- The stream descriptors that a block holds. -/
def State.readStreams (s : State) (a : Nat) : Tab Stream :=
  (List.range 64).foldl (fun t n => Tab.set Stream.zero t n (Stream.ofBits (s.devNat (a + 4096 + 64 * n) 64))) []

/-! ### Stop records -/

/-- The STATE of a lane record (R305). -/
def LaneState.code : LaneState → Nat
  | .run => 0
  | .waitSet => 1
  | .waitBar => 2
  | .exit => 3
  | .defer => 4
  | .brk => 5
  | .park => 6
  | .waitLvl => 7

/-- The index of the oldest operand-log entry that holds a lane: the entry of the word at which it stands (R351); an entry whose lanes went on holds none. -/
def oldestLog (l : Nat) (pc : Pc) : Nat → List LogEntry → Nat
  | _, [] => 0
  | n, e :: es => if bit e.mask l ∧ e.pc = pc then n else oldestLog l pc (n + 1) es

/-- The ID of a lane record (R305). -/
def Group.laneId (g : Group) (l : Nat) : Nat :=
  let x := g.lane l
  match x.state with
  | .waitSet => x.id
  | .waitBar => x.id
  | .waitLvl => x.id
  | .defer => oldestLog l x.pc 0 g.log
  | .park => match x.park with
    | .send q => q
    | .recv q => q
    | _ => 0
  | _ => 0

/-- A lane record: 8 bytes (R305). -/
def Group.laneRecord (g : Group) (l : Nat) : Nat :=
  let x := g.lane l
  if x.state = .exit then 3 * 2 ^ 56
  else x.pc.toNat + x.prio % 16 * 2 ^ 48 + min x.depth 15 * 2 ^ 52 + x.state.code * 2 ^ 56 + g.laneId l % 16 * 2 ^ 60

/-- The code of a width (R304). -/
def widthCode (w : Nat) : Nat := if w = 8 then 0 else if w = 16 then 1 else if w = 32 then 2 else 3

/-- A group record: 32 bytes (R304); a retired group keeps TEAMID, GROUPID, WIDTH and ROLE (R316), a fault of a wait leaves CAUSE and FMASK 0
(R317). -/
def Group.record (g : Group) (tid : Nat) : Nat :=
  let who := tid % 2 ^ 32 + g.gid % 2 ^ 16 * 2 ^ 32 + g.role * 2 ^ 48 + widthCode g.width * 2 ^ 50
  if g.retired then who
  else
    let own := g.fault.filter (fun f => !f.wait)
    who + g.log.length * 2 ^ 52 + g.rm * 2 ^ 62 + g.regs.wb / 8 * 2 ^ 64 + g.frontier.length * 2 ^ 72 + g.mode * 2 ^ 80 +
      ((own.map (·.cause.toNat)).getD 0) * 2 ^ 84 + ((own.map (·.fmask.toNat)).getD 0) * 2 ^ 128 + g.cycles % 2 ^ 64 * 2 ^ 192

/-- The group record of a group with its lane records. -/
def Group.records (g : Group) (tid : Nat) : List Byte :=
  toBytes 32 (g.record tid) ++ (List.range g.width).flatMap (fun l => toBytes 8 (g.laneRecord l))

/-- A context header: 64 bytes (R303). `fault` is the earliest fault of the engine; `now` when it stopped; `launch` its RING and STREAM. -/
def headerBytes (version kind engine ngroups : Nat) (now : W64) (launch : Nat × Nat) (fault : Option FaultRec) : List Byte :=
  let base := version % 256 + kind * 2 ^ 16 + engine * 2 ^ 32 + ngroups * 2 ^ 48 + launch.2 % 64 * 2 ^ 384 + launch.1 % 2 ^ 58 * 2 ^ 390
  toBytes 64 (match fault with
    | none => base + 0xFFFF * 2 ^ 96 + 0xFFFF * 2 ^ 112 + now.toNat * 2 ^ 128
    | some f => base + f.cause.toNat * 2 ^ 8 + f.team.toNat * 2 ^ 64 + f.group.toNat * 2 ^ 96 + f.lane % 2 ^ 16 * 2 ^ 112 + f.time.toNat * 2 ^ 128 +
        f.obj.toNat * 2 ^ 192 + f.off % 2 ^ 40 * 2 ^ 256 + f.extra.toNat * 2 ^ 320)

/-- The TEAMID of a group's team. -/
def State.tidOf (s : State) (g : Group) : Nat := ((s.team? g.team).map (·.tid)).getD 0

/-- RING and STREAM of a group's launch (R303); a service team has none. -/
def State.ringOf (s : State) (g : Group) : Nat × Nat :=
  match s.launch? g.launch with
  | none => (0, 0)
  | some l => (l.ring.toNat, l.stream)

/-- Put a group in its place by ascending TEAMID, then GROUPID, then residence (R302). -/
def insertGroup (s : State) (e : Nat × Group) : List (Nat × Group) → List (Nat × Group)
  | [] => [e]
  | x :: xs =>
    if ([s.tidOf e.2, e.2.gid, e.2.launch, e.1] : List Nat) < [s.tidOf x.2, x.2.gid, x.2.launch, x.1] then e :: x :: xs
    else x :: insertGroup s e xs

/-- The groups of an issue slot in the order of its records. -/
def State.slotGroups (s : State) (p core slot : Nat) (keep : Group → Bool) : List (Nat × Group) :=
  (s.groups.filter (fun e => decide (e.2.part = p ∧ e.2.core = core ∧ e.2.slot = slot) && keep e.2)).foldl (fun acc e => insertGroup s e acc) []

/-- R301: is the first record the earlier one? -/
def FaultRec.before (a b : FaultRec) : Bool :=
  decide (a.time.toNat < b.time.toNat) ||
  (decide (a.time = b.time) && (decide (a.engine < b.engine) ||
    (decide (a.engine = b.engine) && (decide (a.team.toNat < b.team.toNat) ||
      (decide (a.team = b.team) && decide (a.group.toNat < b.group.toNat))))))

/-- The earliest fault of some groups, with its group. -/
def earliest : List (Nat × Group) → Option (Nat × Group × FaultRec)
  | [] => none
  | (u, g) :: es =>
    match g.fault, earliest es with
    | none, r => r
    | some f, none => some (u, g, f)
    | some f, some r => if r.2.2.before f then some r else some (u, g, f)

/-- The context header of an issue slot over its groups (R302, R303). -/
def State.slotHeader (s : State) (version core : Nat) (gs : List (Nat × Group)) : List Byte :=
  match earliest gs with
  | some (_, g, f) => headerBytes version 1 core gs.length s.timebase (s.ringOf g) (some f)
  | none => headerBytes version 1 core gs.length s.timebase ((gs.head?.map (fun e => s.ringOf e.2)).getD (0, 0)) none

/-- The STOPVER of a partition's context (R292); 1 where there is none (R299). -/
def State.stopver (s : State) (p : Nat) : Nat := ((s.ctxOf p).map (fun a => (s.readStopver a).toNat)).getD 1

/-- What an activation for a fault of a group writes (R307): the header, and for a fault of a word the group's records. -/
def State.eventBytes (s : State) (uid : Nat) (f : FaultRec) : List Byte :=
  match s.group? uid with
  | none => []
  | some g =>
    let gs := s.slotGroups g.part g.core g.slot (fun x => decide (x.level = g.level))
    headerBytes (s.stopver g.part) 1 g.core gs.length s.timebase (s.ringOf g) (some f) ++ (if f.wait then [] else g.records (s.tidOf g))

end Sys2Proof.Machine
end

