-- ==== Sys2Proof/Machine/Ops.lean ====
section
/-! DEFINITION. The shared operations of the machine: completion records, rings and queues that the device writes; soft faults; taking a hard
fault (R300 to R308) and resuming from it; and the frame around the effect of every instruction word (R142, R144, R145, R147, R351). -/

namespace Sys2Proof.Machine

/-! ### Machine-check records (R313) -/

/-- A machine-check record; where the ring is full, off, or stalled for save frames (R309, log entry 130), it is counted lost. -/
def State.machineCheck (s : State) (q0 q1 q3 : W64) : State :=
  let f := s.pf
  let a := f.mcBase.toNat + 32 * (f.mcProd.toNat % 2 ^ f.mcLog2.toNat)
  if decide ((f.mcProd - f.mcCons).toNat < 2 ^ f.mcLog2.toNat) && decide (4 ≤ f.mcLog2.toNat) && !s.shortAt a 32 then
    let s1 := (((s.devPut a q0).devPut (a + 8) q1).devPut (a + 16) s.timebase).devPut (a + 24) q3
    { s1 with pf := { s1.pf with mcProd := f.mcProd + 1 } }
  else { s with pf := { f with mcLost := if f.mcLost = BitVec.allOnes 32 then f.mcLost else f.mcLost + 1 } }

/-- Quadword 0 of a machine-check record: class, source, partition, unit, cause. -/
def mcWord (cls src : Nat) (part : Option Nat) (unit cause : Nat) : W64 :=
  BitVec.ofNat 64 (cls + src * 2 ^ 8 + (match part with
    | none => 0
    | some p => p * 2 ^ 16 + 2 ^ 20) + unit % 2 ^ 16 * 2 ^ 32 + cause * 2 ^ 48)

/-! ### The trace ring (R337, R338) -/

/-- Post a trace record: dropped when the ring is disabled or full; a stage-2 fault drops it and counts it, as does a want of
save frames (R309, log entry 130). -/
def State.trace (s : State) (p : Nat) (q0 q1 q2 : W64) : State :=
  match s.part? p with
  | none => s
  | some x =>
    let lost := { x with trLost := if x.trLost = BitVec.allOnes 32 then x.trLost else x.trLost + 1 }
    if x.trLog2 = 0 then s
    else if 2 ^ x.trLog2.toNat ≤ (x.trProd - x.trCons).toNat then s.putPart p lost
    else
      match s.stage2 (s.tbOf p) (x.trBase.toNat + 32 * (x.trProd.toNat % 2 ^ x.trLog2.toNat)) with
      | .at a =>
        if s.shortAt a 32 then s.putPart p lost
        else
        let s1 := (((s.guestPut a q0).guestPut (a + 8) q1).guestPut (a + 16) q2).guestPut (a + 24) s.timebase
        s1.onPart p (fun y => { y with trProd := x.trProd + 1 })
      | _ => s.putPart p lost

/-- Quadword 0 and 1 of a trace record. -/
def traceQ0 (type info gid : Nat) (tid : Nat) : W64 := BitVec.ofNat 64 (type + info * 2 ^ 8 + gid % 2 ^ 16 * 2 ^ 16 + tid % 2 ^ 32 * 2 ^ 32)
def traceQ1 (pc : Pc) (lane : Nat) : W64 := BitVec.ofNat 64 (pc.toNat + lane * 2 ^ 48)

/-! ### Counters (R340, R341) -/

/-- Count n events of a kind in the partition's running context. -/
def Context.count (c : Context) (ev n : Nat) : Context :=
  if c.state = .running then
    { c with pmc := (List.range 8).foldl (fun t i =>
        if field (Tab.get 0 c.pmsel i) 0 8 = ev then Tab.set 0 t i (Tab.get 0 t i + BitVec.ofNat 64 n) else t) c.pmc }
  else c

def State.count (s : State) (p ev n : Nat) : State := s.onContext p (·.count ev n)

/-- R341: the events of S and H teams are not counted. -/
def State.countU (s : State) (l : Level) (p ev n : Nat) : State := if l = .u then s.count p ev n else s

/-! ### Soft faults (R270, R271) -/

/-- The key by which a page's outstanding record is known: the page of an object, or a 64 KiB frame of stage 2. -/
def Soft.page (f : Soft) : Nat × Nat := if f.stage2 then (2 ^ 32, f.addr / 2 ^ 16) else (f.obj, f.addr)

/-- R271: queue the page's SOFTFAULT record unless one is outstanding. The count of deferred groups and the time are those of its posting. A fault that
another device meets is recorded there (R326). -/
def State.postSoft (s : State) (p : Nat) (f : Soft) : State :=
  s.onPart p (fun x =>
    if f.away then x
    else if x.softOut.contains f.page then x
    else
      let q0 := BitVec.ofNat 64 (1 + (if f.stage2 then 2 ^ 8 else 0) + (if f.mig then 2 ^ 9 else 0) + (if f.fetch then 2 ^ 10 else 0) + f.obj % 2 ^ 32 * 2 ^ 32)
      { x with softOut := x.softOut ++ [f.page], softQ := x.softQ ++ [⟨q0, BitVec.ofNat 64 f.addr, 0⟩] })

/-! ### Taking a hard fault -/

/-- The lanes named in a record: the fault's own, else the lowest executing lane (R303). -/
def flane (h : Hard) (mask : W64) : Nat := (h.lane.orElse (fun _ => lowestLane mask)).getD 0xFFFF

/-- R110: the EXTRA field of a fault in a settled or element dispatch: mode, tile size, first column and row of the block (lane 0's element). -/
def Group.blockExtra (g : Group) : W64 :=
  match (g.lane 0).tile with
  | none => 0
  | some t => BitVec.ofNat 64 (g.mode * 2 ^ 62 + t.h.log2 * 2 ^ 58 + t.w.log2 * 2 ^ 54 + t.col % 2 ^ 24 * 2 ^ 24 + t.row % 2 ^ 24)

/-- R110 and R58: in a settled or element dispatch EXTRA takes the layout of R110; of ORPHANED_SET it holds the mask of R58 in [15:0] all the same (log entry 111). -/
def Group.faultExtra (g : Group) (h : Hard) : W64 :=
  if g.mode < 2 then h.extra
  else if h.cause = fcOrphan then (g.blockExtra &&& ~~~0xFFFF) ||| (h.extra &&& 0xFFFF) else g.blockExtra

/-- The record of a fault of a group at a word. -/
def State.faultRec (s : State) (g : Group) (mask : W64) (h : Hard) (wait : Bool) : FaultRec :=
  let t := s.team? g.team
  { cause := BitVec.ofNat 8 h.cause, fmask := if wait then 0 else mask, lane := if wait then 0xFFFF else flane h mask,
    obj := BitVec.ofNat 32 h.obj, off := h.off, extra := g.faultExtra h, time := s.timebase, engine := g.core,
    team := BitVec.ofNat 32 ((t.map (·.tid)).getD 0), group := BitVec.ofNat 16 g.gid, wait := wait }

/-- R300: a hard fault in the context raises its partition's halt line: the stop collection starts, or a stop under way becomes a halt, and the
first fault by R301 is kept. -/
def Context.halt (c : Context) (f : FaultRec) : Context :=
  let first := match c.first with
    | none => some f
    | some f0 => some (if f.before f0 then f else f0)
  match c.state with
  | .running => { c with state := .stopping, halting := true, acks := [], first := first }
  | .stopping => { c with halting := true, first := first }
  | _ => c

/-- The H partition, if one is configured (R249). -/
def State.hpart (s : State) : Option Nat := (s.parts.find? (·.2.hpart)).map (·.1)

/-- R307: an H-bound event of partition p goes to the H partition's handler, or without one to the management stream as a NOTICE. -/
def State.toH (s : State) (p : Nat) (e : Event) : State :=
  match s.hpart with
  | some h => s.onPart h (fun x => { x with events := x.events ++ [e] })
  | none => s.notice 0 e.code.toNat p

/-- Does the device handle this fault of the launch itself (R45, R310, R311)? The third consecutive failure of a SNAPSHOT launch it does not. -/
def deviceFault (l : Launch) (cause : Nat) : Bool :=
  decide (cause = fcHeld) || ((decide (cause = fcShadow) || decide (cause = fcUncorr)) &&
    (decide (l.recovery = rcHeld) || (decide (l.recovery = rcSnapshot) && decide (l.replays < 2))))

/-! ### Pins (R312) -/

/-- Is the line of a sector pinned: is its failed GDDR7 line no longer accessed? -/
def State.linePinned (s : State) (i : Nat) : Bool := s.pins.any (fun e => decide (e.1 / 4 = i / 4))

/-- The pins of a die; those of a unit. -/
def State.pinsOf (s : State) (f : Nat → Nat) (k : Nat) : Nat :=
  (s.pins.filter (fun e => decide ((s.unitOf (32 * e.1)).map f = some k))).length

/-- Pin a sector: refused where the die's repair store is full, or where the set has two locked ways already, which the device's set mapping decides: a free
choice once two lines of the unit are pinned. -/
def State.pin (s : State) (i unit : Nat) (unc : Bool) (cls : Nat → W64) (q1 q3 : W64) : State :=
  let (f, s1) := s.fresh domDevice
  if 8192 ≤ s.pinsOf (· / 4) (unit / 4) ∨ (2 ≤ s.pinsOf id unit ∧ f.getLsbD 0) then s1.machineCheck (cls 6) q1 q3
  else { s1 with pins := s1.pins ++ [(i, unc)] }.machineCheck (cls 5) q1 q3

/-- R313: an uncorrectable error consumed: CLASS 2, with the sector where the object names one here, else the Otvex port to its device, else the host port; a GDDR7 sector that shows one is pinned
(R312). -/
def State.consumed (s : State) (g : Group) (h : Hard) : State :=
  let replay := BitVec.ofNat 64 ((((s.launch? g.launch).map (·.replays)).getD 0) % 2 ^ 16 * 2 ^ 16)
  let elsewhere := s.machineCheck (mcWord 2 10 (some g.part) 0 h.cause) 0 replay
  match s.walk g.part (s.tbOf g.part) kWindow h.obj h.off 1 with
  | .at t => match t.loc with
    | .dev a =>
      let q1 := BitVec.ofNat 64 (a / 32 * 32)
      let q3 := replay + (s.sector a).count
      if Config.isGddr a then
        let cls (c cause : Nat) : W64 := mcWord c 1 (some g.part) (s.gddrDevice a) cause
        let s1 := s.machineCheck (cls 2 h.cause) q1 q3
        if s.linePinned (a / 32) then s1 else s1.pin (a / 32) ((s.unitOf a).getD 0) true (fun c => cls c 0) q1 q3
      else s.machineCheck (mcWord 2 3 (some g.part) ((Config.vaultOf a).getD 0) h.cause) q1 q3
    | .peer d _ _ => s.machineCheck (mcWord 2 11 (some g.part) ((s.portsTo g.part d).headD 0) h.cause) 0 replay
    | _ => elsewhere
  | _ => elsewhere

/-- R313: an error consumed in an on-die memory of the group's core. -/
def State.consumedIn (s : State) (g : Group) (src : Nat) : State :=
  s.machineCheck (mcWord 2 src (some g.part) g.core fcUncorr) 0 (BitVec.ofNat 64 ((((s.launch? g.launch).map (·.replays)).getD 0) % 2 ^ 16 * 2 ^ 16))

/-- R313: a failed shadow check: CLASS 4, the FP unit of the core. -/
def State.shadowed (s : State) (g : Group) : State :=
  s.machineCheck (mcWord 4 9 (some g.part) g.core fcShadow) 0 (BitVec.ofNat 64 ((((s.launch? g.launch).map (·.replays)).getD 0) % 2 ^ 16 * 2 ^ 16))

/-- Has a team failed in the halt that is under way: has another of its groups met one of the faults of R311? -/
def State.teamFailed (s : State) (team : Nat) : Bool :=
  s.groups.any (fun e => decide (e.2.team = team) && (match e.2.fault with
    | none => false
    | some f => decide (f.cause.toNat = fcShadow ∨ f.cause.toNat = fcUncorr)))

/-- R300: a hard fault stops its group at its word, with its record. A fault of a U group starts the halt of its context (and marks its
launch for the device's own recovery where R310 or R311 gives it that; of several such faults in one halt HELD_OVERFLOW decides, R45); a fault of an S or H team stops that team alone and goes to H. -/
def State.stopGroup (s : State) (uid : Nat) (mask : W64) (h : Hard) (wait : Bool) : State :=
  match s.group? uid with
  | none => s
  | some g =>
    let r := s.faultRec g mask h wait
    let s1 := s.onGroup uid (fun g => { g with fault := some r, memHold := if g.host.isSome then g.memHold else none, softOn := none })
    if g.level = .u then
      let s2 := s1.onLaunch g.launch (fun l => if deviceFault l h.cause ∧ l.failing.toNat ≠ fcHeld then { l with failing := BitVec.ofNat 8 h.cause } else l)
      let s3 := if h.cause = fcHeld then s2 else s2.onTeam g.team (fun t => if (h.cause = fcShadow ∨ h.cause = fcUncorr) ∧ ¬ s.teamFailed g.team then { t with failed := t.failed + 1 } else t)
      (s3.onContext g.part (·.halt r)).syncPart g.part
    else
      let s2 := s1.onTeam g.team (fun t => { t with stopped := true })
      s2.toH g.part ⟨r.cause, s2.eventBytes uid r⟩

/-- Take a hard fault: its machine-check record (R313), and the stop of its group. -/
def State.takeFault (s : State) (uid : Nat) (mask : W64) (h : Hard) (wait : Bool) : State :=
  match s.group? uid with
  | none => s
  | some g => (if h.cause = fcUncorr then s.consumed g h else if h.cause = fcShadow then s.shadowed g else s).stopGroup uid mask h wait

/-! ### The frame around an instruction word -/

/-- A word as its meaning sees it: the group, the word, the PC, the executing lanes, the source registers and rounding control (those of issue time for a
replayed log entry), and whether it replays. -/
structure Ctx where
  uid    : Nat
  word   : Instr
  g      : Group
  pc     : Pc
  mask   : W64
  regs   : Regs
  rm     : Nat
  replay : Bool
  deriving DecidableEq, Repr

/-- The executing lanes, ascending. -/
def Ctx.lanes (c : Ctx) : List Nat := c.g.exec c.mask

/-- Does lane l execute the word? -/
def Ctx.runs (c : Ctx) (l : Nat) : Bool := decide (l < c.g.width) && bit c.mask l

/-- What a meaning answers: it is done and its lanes go on to next(p); it is done and has placed its lanes itself; a hard or a soft fault; it
waits, with no effect; it ends the tiles of some lanes as ABANDONED (R103); or it touches an address that does not exist. -/
inductive Res where
  | done (s : State)
  | moved (s : State)
  | hard (s : State) (h : Hard)
  | soft (s : State) (f : Soft)
  | wait (s : State)
  | aband (s : State) (lanes : W64)
  | beyond (addr : Nat)
  deriving Repr

/-- A meaning's stop. -/
def Res.ofStop (s : State) : Stop → Res
  | .hard h => .hard s h
  | .soft f => .soft s f
  | .wait => .wait s
  | .beyond a => .beyond a

/-- The registers that an operand names, as the scoreboard and R142 compare them. -/
def Opnd.names (wb : Nat) (o : Opnd) : List RegName :=
  match o.kind with
  | .v => (List.range o.run).map (fun i => .v (wb + o.num + i))
  | .s => (List.range o.run).map (fun i => .s (o.num + i))
  | .c => [.c o.num]
  | .g => [.g o.num]
  | _ => []

/-- The registers that a word reads or writes. -/
def touched (wb : Nat) (ops : List Opnd) : List RegName :=
  (ops.filter (fun o => o.reads || o.wrote)).flatMap (Opnd.names wb)

/-- The registers that a word writes. -/
def written (wb : Nat) (ops : List Opnd) : List RegName := (ops.filter (·.wrote)).flatMap (Opnd.names wb)

/-- The registers that a word reads. -/
def sources (wb : Nat) (ops : List Opnd) : List RegName := (ops.filter (·.reads)).flatMap (Opnd.names wb)

/-- The registers that a word reads beyond its operands: `c31` where a call spills a return address or `ret` reloads one (R53), `c29` where a transfer is held to its
code object (R169). -/
def Group.implicit (g : Group) (i : Instr) (m : W64) : List RegName :=
  let stack (n : Nat) : List RegName := if g.mode = 0 ∧ (g.exec m).any (fun l => decide (n ≤ (g.lane l).depth)) then [.c 31] else []
  match i with
  | .calli _ _ => stack 4
  | .callv _ _ => .c 29 :: stack 4
  | .calls _ _ => .c 29 :: stack 4
  | .jmpv _ _ => [.c 29]
  | .ret => stack 5
  | _ => []

/-- Every register that a word reads or writes as it issues for some lanes. -/
def Group.uses (g : Group) (i : Instr) (m : W64) : List RegName := touched g.regs.wb (shape i).ops ++ g.implicit i m

/-- R142: the registers of a list that a fixed-latency word still has open. -/
def Group.openRegs (g : Group) (rs : List RegName) : List RegName :=
  rs.filter (fun r => g.recent.any (fun x => decide (x.reg = r ∧ 0 < x.left)))

/-- The level number of R238. -/
def Level.num : Level → Nat
  | .u => 0
  | .s => 1
  | .h => 2

/-- STALLCHK.EN as it applies to the group: S and H teams run as if it held 0 (R240). -/
def State.stallEn (s : State) (g : Group) : Bool :=
  decide (g.level = .u) && (match s.context? g.part with
    | none => false
    | some c => c.stallchk.getLsbD 0)

/-- R147 steps 4 to 7: the first check that fails; `rs` are the registers that the word reads beyond its operands. -/
def State.precheck (s : State) (g : Group) (sh : Shape) (wb : Nat) (rs : List RegName) : Option Nat :=
  if g.level.num < sh.level then some fcPriv
  else if !sh.ops.all Opnd.good then some fcIllOp
  else if sh.ops.any (fun o => decide (o.kind = .v) && decide (g.alloc < wb + o.num + o.run)) then some fcWindow
  else if s.stallEn g && !(g.openRegs (touched wb sh.ops ++ rs)).isEmpty then some fcStall
  else none

/-- A register whose value is not defined: free values (R142 with EN = 0, R4); in bounds mode its bounds, tag and flag too (R101). -/
def State.freeLanes (s : State) (uid d alloc : Nat) : Nat → State
  | 0 => s
  | n + 1 =>
    let (f, s1) := (State.freeLanes s uid d alloc n).fresh d
    let (h, s2) := s1.fresh d
    let sh : Shadow := ⟨f.extractLsb' 32 32, if h.getLsbD 0 then .f else if h.getLsbD 1 then .z else .s, h.getLsbD 2⟩
    s2.onGroup uid (fun g => { g with
      regs := { g.regs with v := Tab.set 0 g.regs.v (vkey alloc n) (f.extractLsb' 0 32) }
      shadow := if g.mode = 1 then Tab.put g.shadow (vkey alloc n) sh else g.shadow })

def State.freeReg (s : State) (uid d : Nat) (r : RegName) : State :=
  match r with
  | .v n => s.freeLanes uid d n 64
  | .s n =>
    let (f, s1) := s.fresh d
    s1.onGroup uid (fun g => { g with regs := g.regs.ws n f })
  | .c n =>
    let (f, s1) := s.fresh d
    let (f2, s2) := s1.fresh d
    let (h, s3) := s2.fresh d
    s3.onGroup uid (fun g => { g with regs := g.regs.wc n ⟨f ++ f2, h.getLsbD 0⟩ })
  | .g n =>
    let (f, s1) := s.fresh d
    s1.onGroup uid (fun g => { g with regs := g.regs.wg n f })

def State.freeRegs (s : State) (uid d : Nat) : List RegName → State
  | [] => s
  | r :: rs => State.freeRegs (s.freeReg uid d r) uid d rs

/-- R134: the group has read a `tsum` token when a word reads its register; a word that overwrites the register loses the token. A token whose operation
still runs is neither: its register waits, and the word at hand is the one that started it. -/
def Group.readTokens (g : Group) (c : Ctx) (sh : Shape) : Group :=
  let src := sources c.regs.wb sh.ops
  let dst := written c.regs.wb sh.ops
  let runs (t : Nat × Nat) : Bool := g.pend.any (fun p => decide (p.why = .op t.2))
  { g with tsumRead := g.tsumRead ++ (g.tokens.filter (fun t => src.contains (.s t.1) && !runs t)).map (·.2),
           tokens := g.tokens.filter (fun t => runs t || !(src.contains (.s t.1) || dst.contains (.s t.1))) }

/-- The retirement of a word: its lanes go on to next(p); a fixed-latency destination opens its R142 window, a variable-latency one its
scoreboard entry; an instruction that waited holds its group no longer. A replayed entry leaves the log: lanes it had held go on, a pending
destination is written. -/
def Group.retire (g0 : Group) (c : Ctx) (sh : Shape) : Group :=
  let g := if c.replay then g0 else g0.readTokens c sh
  let dst := written c.regs.wb sh.ops
  if c.replay then
    let g1 := { g with log := g.log.tail, softOn := none, pend := g.pend.filter (fun p => !(decide (p.why = .log) && dst.contains p.reg)) }
    if sh.park then g1.onLanes c.mask (fun _ x => { x with state := .run, pc := nextPc c.pc }) else g1
  else
    let g1 := g.advance c.mask c.pc
    { g1 with memHold := if g1.memHold = some c.pc then none else g1.memHold,
              recent := g1.recent ++ (if sh.lat = 0 then [] else dst.map (fun r => Recent.mk r sh.lat)),
              pend := g1.pend ++ (if sh.lat = 0 ∧ ¬ sh.own then dst.map (fun r => Pend.mk r .result c.pc) else []) }

/-- A word that has placed its lanes itself leaves the log and holds its group no longer. -/
def Group.settle (g : Group) (c : Ctx) (sh : Shape) : Group :=
  if c.replay then
    let dst := written c.regs.wb sh.ops
    { g with log := g.log.tail, softOn := none, pend := g.pend.filter (fun p => !(decide (p.why = .log) && dst.contains p.reg)) }
  else { g.readTokens c sh with memHold := if g.memHold = some c.pc then none else g.memHold }

/-- R38: a log entry that meets a hard fault: the later entries are squashed, and their lanes stand at the oldest squashed word that holds them;
the entry's own lanes stand at its word (log entry 14). -/
def squash : List LogEntry → Group → Group
  | [], g => { g with log := [], pend := g.pend.filter (fun p => !decide (p.why = .log)), softOn := none }
  | e :: es, g => (squash es g).onLanes e.mask (fun _ x => { x with state := .run, pc := e.pc })

/-- R31: running lanes that stand at one PC are one entry. -/
def Group.merge (g : Group) : Group := { g with lanes := reform g.lanes g.lanes }

/-- R37, R351: the word enters the operand log; its lanes stay at it in DEFER, or go on, and its destinations wait for the log. -/
def Group.deferWord (g0 : Group) (c : Ctx) (sh : Shape) (late : List RegName) : Group :=
  let g := g0.readTokens c sh
  let g1 : Group := { g with log := g.log ++ [LogEntry.mk c.word c.pc c.mask c.regs c.rm late], memHold := if g.memHold = some c.pc then none else g.memHold,
                             pend := g.pend ++ (written c.regs.wb sh.ops).map (fun r => Pend.mk r .log c.pc) }
  if sh.park then g1.onLanes c.mask (fun _ x => { x with state := .defer }) else g1.advance c.mask c.pc

/-- R103, R106: the tiles of some lanes end with an outcome; the lanes leave the evaluation. -/
def Group.endTiles (g : Group) (m : W64) (e : TileEnd) : Group :=
  g.onLanes m (fun _ x => { x with state := .exit, tile := x.tile.map (fun t => { t with ended := some e }) })

/-- R110: the hard fault of an element dispatch, and of any word outside bounds mode. In bounds mode the tiles are abandoned instead (R103). -/
def failWord (s : State) (c : Ctx) (sh : Shape) (h : Hard) : Host.Outcome State Fault Refusal :=
  if c.g.mode = 1 then .next (s.onGroup c.uid (fun g => (g.endTiles c.mask .abandoned).settle c sh))
  else if c.replay then .next ((s.onGroup c.uid (fun g => (squash g.log g).merge)).takeFault c.uid c.mask h false)
  else .next (s.takeFault c.uid c.mask h false)

/-- The outcome of a meaning's answer; `late` are the registers that the word writes too early by R142. -/
def finish (sh : Shape) (c : Ctx) (late : List RegName) (r : Res) : Host.Outcome State Fault Refusal :=
  match r with
  | .done s => .next (s.onGroup c.uid (fun g => g.retire c sh))
  | .moved s => .next (s.onGroup c.uid (fun g => g.settle c sh))
  | .hard s h => failWord s c sh h
  | .soft s f =>
    let s1 := (s.postSoft c.g.part f).onGroup c.uid (fun g => { g with softOn := some f.page, retry := f.away })
    if c.replay then .next s1
    else .next ((s1.countU c.g.level c.g.part 5 1).onGroup c.uid (fun g => g.deferWord c sh late))
  | .wait s => .next (if c.replay || !(sh.mem || sh.empty) then s else s.onGroup c.uid (fun g => { g with memHold := some c.pc }))
  | .aband s m =>
    .next (s.onGroup c.uid (fun g =>
      let g1 := g.endTiles m .abandoned
      (g1.advance (c.mask &&& ~~~m) c.pc).settle c sh))
  | .beyond a => .fault (.noSuchAddress a)

/-- The registers and rounding control that a word reads. -/
def Cur.ctx (k : Cur) (g : Group) : Ctx :=
  match k.replay with
  | none => ⟨k.group, k.word, g, k.pc, k.mask, g.regs, g.rm, false⟩
  | some (x, rm) => ⟨k.group, k.word, g, k.pc, k.mask, x, rm, true⟩

/-- R142 with EN = 0: the registers that the word reads too early hold free values before it. -/
def State.early (s : State) (c : Ctx) (sh : Shape) : State :=
  s.freeRegs c.uid (s.domOf c.g) (c.g.openRegs (sources c.regs.wb sh.ops ++ c.g.implicit c.word c.mask))

/-- A meaning's answer with the registers of R142 undefined after it. -/
def Res.undefine (r : Res) (c : Ctx) (late : List RegName) : Res :=
  match r with
  | .done s => .done (s.freeRegs c.uid (s.domOf c.g) late)
  | .moved s => .moved (s.freeRegs c.uid (s.domOf c.g) late)
  | r => r

/-- The registers that the word writes too early by R142: those that are open as it issues, or as its log entry has them. -/
def Ctx.late (c : Ctx) (sh : Shape) : List RegName :=
  if c.replay then (c.g.log.head?.map (·.late)).getD [] else c.g.openRegs (written c.regs.wb sh.ops)

/-- Does the word give a result that a shadow unit checks: a floating-point result of class 0x4 or 0x5 (R96)? `cvt.f.n` gives one where its format word is valid. -/
def Ctx.checked (c : Ctx) : Bool :=
  match c.word with
  | .fadd _ _ _ | .fsub _ _ _ | .fmul _ _ _ | .ffma _ _ _ | .fmin _ _ _ | .fmax _ _ _ | .fabs _ _ | .fneg _ _ | .fdiv _ _ _ | .fsqrt _ _ | .frcp _ _
  | .fscale _ _ _ | .ffloor _ _ | .fceil _ _ | .ftrunc _ _ | .frint _ _ | .faddB2 _ _ _ | .fmulB2 _ _ _ | .ffmaB2 _ _ _ | .faddH2 _ _ _ | .fmulH2 _ _ _
  | .ffmaH2 _ _ _ | .fmaxB2 _ _ _ | .fminB2 _ _ _ | .cvtFS _ _ | .cvtFZ _ _ | .cvtB2F _ _ _ | .cvtH2F _ _ _ | .cvtFB2 _ _ _ | .cvtFH2 _ _ _
  | .fexp2 _ _ | .flog2 _ _ | .frsqrt _ _ | .fsinpi _ _ | .fcospi _ _ | .ftanh _ _ | .fsigm _ _ | .vredFadd _ _ | .vredFmin _ _ | .vredFmax _ _
  | .vscanFadd _ _ => true
  | .cvtFN _ _ b => (narrowOf ((c.regs.rs b.toNat).setWidth 16)).valid
  | _ => false

/-- R96: a unit of the group's core whose check by its shadow unit fails for a lane that executes the word. -/
def State.upsetAt (s : State) (c : Ctx) : Option (Nat × Nat) :=
  if c.checked then s.upset.find? (fun e => decide (e.1 = c.g.core) && c.runs e.2) else none

/-- Does a memory-class word enter the log without being performed: the log is not empty (R37)? -/
def mustLog (g : Group) (sh : Shape) : Bool := sh.mem && !g.log.isEmpty

/-- The issue of one instruction word of a shape: steps 4 to 7 of R147, abandoning in bounds mode, the undefined registers of R142, deferral behind the
operand log, the shadow check of R96, and the meaning. -/
def wordOf (sh : Shape) (s : State) (body : State → Ctx → Res) : Host.Outcome State Fault Refusal :=
  match s.cur with
  | none => .refused .noIssuer
  | some k =>
    match s.group? k.group with
    | none => .refused .noIssuer
    | some g =>
      let c := k.ctx g
      let more := g.implicit c.word c.mask
      match (if c.replay then none else s.precheck g sh c.regs.wb more) with
      | some cause => failWord s c sh (Hard.plain cause)
      | none =>
        let late := c.late sh
        if decide (g.mode = 1) && sh.aband then finish sh c late (.aband s c.mask)
        else
          let s1 := if c.replay || (g.openRegs (touched c.regs.wb sh.ops ++ more)).isEmpty then s else s.early c sh
          match s1.group? k.group with
          | none => .refused .noIssuer
          | some g1 =>
            let c1 := k.ctx g1
            if !c.replay && mustLog g sh then .next (s1.onGroup k.group (fun g => g.deferWord c1 sh late))
            else match s1.upsetAt c1 with
              | some e => failWord { s1 with upset := s1.upset.erase e } c1 sh { Hard.plain fcShadow with lane := some e.2 }
              | none => finish sh c1 late ((body s1 c1).undefine c1 late)

/-- The issue of an instruction. -/
def word (i : Instr) (s : State) (body : State → Ctx → Res) : Host.Outcome State Fault Refusal := wordOf (shape i) s body

/-- Write registers of the issuing group: vector registers by the window base in force when the word issued. -/
def Ctx.write (c : Ctx) (s : State) (f : Regs → Regs) : State :=
  s.onGroup c.uid (fun g => { g with regs := { f { g.regs with wb := c.regs.wb } with wb := g.regs.wb } })

end Sys2Proof.Machine
end

