-- ==== Sys2Proof/Machine/Sets.lean ====
section
/-! DEFINITION. Rejoin sets (spec/03_rejoin_sets.md R46 to R51, R57): the release of a set, and the six set instructions. All six abandon in
bounds mode. -/

namespace Sys2Proof.Machine

/-- The empty set. -/
def JSet.zero : JSet := ⟨0, 0⟩

def Group.set (g : Group) (n : Nat) : JSet := Tab.get JSet.zero g.js n
def Group.putSet (g : Group) (n : Nat) (j : JSet) : Group := { g with js := Tab.set JSet.zero g.js n j }

/-- A lane returns to RUN at the word after the one it waited at, with age 0: R47 says so of a set, and the model of every wait (log entry 110). -/
def Lane.resume (x : Lane) : Lane := { x with state := .run, pc := nextPc x.pc, age := 0, id := 0, park := .no }

/-- R47, R50: a set whose waiting lanes are all its members releases them. -/
def Group.checkRelease (g : Group) (n : Nat) : Group :=
  let j := g.set n
  if j.waiting ≠ 0 ∧ j.waiting = j.member then
    (g.putSet n { j with waiting := 0 }).onLanes j.waiting (fun _ x => if x.state = .waitSet then x.resume else x)
  else g

/-- `rjquit` of some lanes (R50). -/
def Group.quitSet (g : Group) (m : W64) (n : Nat) : Group :=
  let j := g.set n
  (g.putSet n ⟨j.member &&& ~~~m, j.waiting &&& ~~~m⟩).checkRelease n

/-- Lanes leave every set (R40, R48). -/
def Group.quitAll (g : Group) (m : W64) : Group := (List.range 16).foldl (fun g n => g.quitSet m n) g

/-- R58: the mask of the sets on which some lane waits. -/
def Group.waitedSets (g : Group) : W64 := maskOf (fun n => decide ((g.set n).waiting ≠ 0)) 16

/-- R50: the membership of the executing lanes by a condition; a set with waiting lanes faults (R51, R58). -/
def setMembers (i : Instr) (n : F7) (p : Ctx → Nat → Bool) (s : State) : Host.Outcome State Fault Refusal :=
  word i s fun s c =>
    if (c.g.set n.toNat).waiting ≠ 0 then .hard s { Hard.plain fcOrphan with extra := c.g.waitedSets }
    else
      let on := maskOf (fun l => c.runs l && p c l) 64
      .done (s.onGroup c.uid (fun g => g.putSet n.toNat { g.set n.toNat with member := ((g.set n.toNat).member &&& ~~~c.mask) ||| on }))

/-- R50. -/
def execRjset (d a : F7) (s : State) : Host.Outcome State Fault Refusal :=
  setMembers (.rjset d a) d (fun c l => decide (c.regs.rv a.toNat l ≠ 0)) s

/-- R50. -/
def execRjsetm (d a : F7) (s : State) : Host.Outcome State Fault Refusal :=
  setMembers (.rjsetm d a) d (fun c l => bit (c.regs.rs a.toNat) l) s

/-- R50. -/
def execRjenter (d : F7) (s : State) : Host.Outcome State Fault Refusal :=
  word (.rjenter d) s fun s c =>
    .done (s.onGroup c.uid (fun g => g.putSet d.toNat { g.set d.toNat with member := (g.set d.toNat).member ||| c.mask }))

/-- R50. -/
def execRjquit (d : F7) (s : State) : Host.Outcome State Fault Refusal :=
  word (.rjquit d) s fun s c => .done (s.onGroup c.uid (fun g => g.quitSet c.mask d.toNat))

/-- R50: members wait at the word, the others go on; then the release. A replayed `rjwait` takes its lanes out of DEFER first (R351). -/
def execRjwait (d : F7) (s : State) : Host.Outcome State Fault Refusal :=
  word (.rjwait d) s fun s c =>
    .moved (s.onGroup c.uid (fun g =>
      let j := g.set d.toNat
      let p := c.mask &&& j.member
      let g1 := g.onLanes (c.mask &&& ~~~p) (fun _ x => { x with state := .run, pc := nextPc c.pc })
      let g2 := g1.onLanes p (fun _ x => { x with state := .waitSet, pc := c.pc, id := d.toNat })
      (g2.putSet d.toNat { j with waiting := j.waiting ||| p }).checkRelease d.toNat))

/-- R50. -/
def execRjget (d a n : F7) (s : State) : Host.Outcome State Fault Refusal :=
  word (.rjget d a n) s fun s c =>
    let j := c.g.set a.toNat
    .done (c.write s (fun x => x.ws d.toNat (if n = 0 then j.member else j.waiting)))

end Sys2Proof.Machine
end

