-- ==== Sys2Proof/Machine/Barrier.lean ====
section
/-! DEFINITION. Publication points and hardware barriers (spec/08_ordering_by_goal.md R134, R135, R137; spec/12_ref_memory_sync_transfer.md R209 to
R211; spec/02_execution_model.md R20, R28, R29). All of their instructions abandon in bounds mode. -/

namespace Sys2Proof.Machine

/-! ### Levels of a launch (R286, R287) -/

def Launch.nlvl (l : Launch) : Nat := field l.record 84 4
def Launch.extent (l : Launch) (n : Nat) : Nat := field l.record (320 + 32 * (n - 3)) 16
def Launch.domain (l : Launch) (n : Nat) : Nat := field l.record (320 + 32 * (n - 3) + 24) 2
def Launch.scope (l : Launch) (n : Nat) : Nat :=
  if n ≤ 1 then 0 else if n = 2 then 1 else field l.record (320 + 32 * (n - 3) + 26) 3
/-- The launch watchdog W, in aclk; 0 for none (R211). -/
def Launch.watchdog (l : Launch) : Nat := field l.record 96 32

/-- The teams in a span of level n: the product of the extents of levels 3 to n (R28). -/
def Launch.teamsIn (l : Launch) (n : Nat) : Nat := (List.range (n - 2)).foldl (fun p k => p * l.extent (k + 3)) 1

/-- LVLn of a team, n from 2: its digit of TEAMID, level 2 the least significant; 0 at and above the top level (R20). -/
def Launch.levelId (l : Launch) (tid n : Nat) : Nat :=
  if l.nlvl ≤ n + 1 then 0 else tid / l.teamsIn n % l.extent (n + 1)

/-! ### Publication (R134) -/

/-- The engine operations that a publication of the group covers: those of waited batches, and `tsum` operations whose token it has read. -/
def Group.covered (g : Group) : List Nat :=
  (g.sealed.filter (fun b => decide (b.1 ≤ g.waited))).flatMap (·.2) ++ g.tsumRead

/-- Publish for a group at a scope of R135. -/
def State.publishGroup (s : State) (uid scope : Nat) : State :=
  match s.group? uid with
  | none => s
  | some g => s.publish (fun op => g.covered.contains op) (scope + 1)

/-- Publish for each of some groups. -/
def State.publishAll (s : State) (scope : Nat) : List Nat → State
  | [] => s
  | u :: us => State.publishAll (s.publishGroup u scope) scope us

/-! ### Arrival and release (R209, R210) -/

/-- Does every live lane of the group stand in the state with that id? -/
def Group.allIn (g : Group) (st : LaneState) (id : Nat) : Bool :=
  decide (g.live ≠ 0) && decide (g.lanesWith (fun x => decide (x.state = st ∧ x.id = id)) = g.live)

/-- The groups of a team, retired ones included: they stay listed until the team retires (R41, R42). -/
def State.teamGroups (s : State) (t : Nat) : List Nat := (s.groups.filter (fun e => decide (e.2.team = t))).map (·.1)

/-- The groups that arrive now: all their live lanes wait there. -/
def State.arriving (s : State) (us : List Nat) (st : LaneState) (id : Nat) : List Nat :=
  us.filter (fun u => match s.group? u with
    | none => false
    | some g => g.allIn st id)

/-- The watchdog time of the group's team. -/
def State.watchOf (s : State) (g : Group) : Nat := ((s.team? g.team).map (·.watch)).getD 0

/-- What counts the watchdog of a barrier for a group (R211): the time of its team. -/
def State.barClock (s : State) (u : Nat) : Nat := ((s.group? u).map s.watchOf).getD 0

/-- A barrier after the arrivals of some groups, in their order, each at its time. -/
def Barrier.arrive (b : Barrier) (now : Nat → Nat) (us : List Nat) : Barrier :=
  let new := us.filter (fun u => !b.arrived.contains u)
  { b with arrived := b.arrived ++ new, times := b.times ++ new.map now }

/-- A barrier with the arrivals of some groups alone. -/
def Barrier.keep (b : Barrier) (stay : Nat → Bool) : Barrier :=
  let es := (b.arrived.zip b.times).filter (fun e => stay e.1)
  { b with arrived := es.map (·.1), times := es.map (·.2) }

/-- The waiting lanes of some groups go on. -/
def State.freeWaiters (s : State) (st : LaneState) (id : Nat) : List Nat → State
  | [] => s
  | u :: us =>
    State.freeWaiters (s.onGroup u (fun g => g.onLanes (BitVec.allOnes 64) (fun _ x => if x.state = st ∧ x.id = id then x.resume else x))) st id us

/-- The release of a barrier: publication for every arrived group, the phase flips, the lanes return. -/
def State.releaseBar (s : State) (st : LaneState) (id scope : Nat) (us : List Nat) : State :=
  (s.publishAll scope us).freeWaiters st id us

/-- R209: team barrier `id` after a change of a group of the team. -/
def State.teamBarCheck (s : State) (t id : Nat) : State :=
  match s.team? t with
  | none => s
  | some tm =>
    let us := s.teamGroups t
    let b := (Tab.get Barrier.zero tm.bars id).arrive s.barClock (s.arriving us .waitBar id)
    let full := !us.isEmpty && us.all (fun u => b.arrived.contains u)
    let b' : Barrier := if full then ⟨!b.phase, [], []⟩ else b
    let s1 := s.onTeam t (fun tm => { tm with bars := Tab.set Barrier.zero tm.bars id b' })
    if full then s1.releaseBar .waitBar id 1 b.arrived else s1

/-- The key of a level unit's barrier. -/
def levelKey (n unit : Nat) : Nat := n * 2 ^ 40 + unit

/-- The level-n unit of a team or group: the group itself, the team itself, or the span. -/
def Launch.unitOf (l : Launch) (n tid team group : Nat) : Nat :=
  if n = 1 then group else if n = 2 then team else tid / l.teamsIn n

/-- The groups in a level unit, and whether every team of it still runs. -/
def State.unitGroups (s : State) (launch n unit : Nat) : List Nat × Bool :=
  match s.launch? launch with
  | none => ([], false)
  | some l =>
    if n = 1 then ([unit], true)
    else
      let ts := s.teams.filter (fun e => decide (e.2.launch = launch) && decide (l.unitOf n e.2.tid e.1 0 = unit))
      (ts.flatMap (fun e => s.teamGroups e.1), ts.all (fun e => !e.2.retired))

/-- The lowest level bound to DOMAIN. -/
def Launch.domainLevel (l : Launch) : Option Nat := ((List.range (l.nlvl - 3)).map (· + 3)).find? (fun n => decide (l.domain n = 3))

def Launch.devIndex (l : Launch) : Nat := field l.record 480 16

/-- Does this device hold the team of a TEAMID (R291): has its subtree at the lowest DOMAIN-bound level the device's index? -/
def Launch.holds (l : Launch) (tid : Nat) : Bool :=
  match l.domainLevel with
  | none => true
  | some n => decide (tid / l.teamsIn (n - 1) % l.extent n = l.devIndex)

/-- Does a level-n unit span devices (R291): does it hold subtrees of several indices at the lowest DOMAIN-bound level? -/
def Launch.spansDevices (l : Launch) (n : Nat) : Bool :=
  match l.domainLevel with
  | none => false
  | some m => decide (m ≤ n ∧ 1 < l.extent m)

/-- R210: a level barrier after a change. One that spans devices waits for the other devices' arrivals, which a flit brings (log entry 19):
`remote` says that it has. -/
def State.levelBarCheck (s : State) (launch n unit : Nat) (remote : Bool) : State :=
  match s.launch? launch with
  | none => s
  | some l =>
    let (us, alive) := s.unitGroups launch n unit
    let was := Tab.get Barrier.zero l.lvlBars (levelKey n unit)
    let b := (was.keep us.contains).arrive s.barClock (s.arriving us .waitLvl n)
    let full := alive && !us.isEmpty && us.all (fun u => b.arrived.contains u) && (remote || !l.spansDevices n)
    let b' : Barrier := if full then ⟨!b.phase, [], []⟩ else b
    let s1 := s.onLaunch launch (fun l => { l with lvlBars := Tab.set Barrier.zero l.lvlBars (levelKey n unit) b' })
    if full then s1.releaseBar .waitLvl n (l.scope n) b.arrived else s1

/-- The unit of a group at a level. -/
def State.groupUnit (s : State) (uid : Nat) (g : Group) (n : Nat) : Nat :=
  match s.launch? g.launch, s.team? g.team with
  | some l, some t => l.unitOf n t.tid g.team uid
  | _, _ => 0

/-- R40: the exit of lanes can complete an arrival on any barrier that others of the group wait on. -/
def State.barsAfterExit (s : State) (uid : Nat) : State :=
  match s.group? uid with
  | none => s
  | some g =>
    match lowestLane g.live with
    | none => s
    | some l =>
      let x := g.lane l
      if x.state = .waitBar then s.teamBarCheck g.team x.id
      else if x.state = .waitLvl then s.levelBarCheck g.launch x.id (s.groupUnit uid g x.id) false
      else s

/-! ### The instructions -/

/-- R209. -/
def execTeambar (n : F7) (s : State) : Host.Outcome State Fault Refusal :=
  word (.teambar n) s fun s c =>
    .moved ((s.onGroup c.uid (fun g => g.onLanes c.mask (fun _ x => { x with state := .waitBar, pc := c.pc, id := n.toNat }))).teamBarCheck c.g.team n.toNat)

/-- R210. -/
def execLvlbar (n : F7) (s : State) : Host.Outcome State Fault Refusal :=
  word (.lvlbar n) s fun s c =>
    if ((s.launch? c.g.launch).map (fun l => decide (l.nlvl ≤ n.toNat))).getD true then .hard s (Hard.plain fcIllOp)
    else
      let s1 := s.onGroup c.uid (fun g => g.onLanes c.mask (fun _ x => { x with state := .waitLvl, pc := c.pc, id := n.toNat }))
      .moved (s1.levelBarCheck c.g.launch n.toNat (s.groupUnit c.uid c.g n.toNat) false)

/-- R137. -/
def execFpub (n : F7) (s : State) : Host.Outcome State Fault Refusal :=
  word (.fpub n) s fun s c => .done (s.publishGroup c.uid n.toNat)

/-- What `fsys` of a group waits for on its connections (R137): its stores, and its flows that a `bwait` has ordered. -/
def State.fsysNeeds (s : State) (uid : Nat) (q : Posted) : Bool :=
  decide (q.group = uid) && (!q.engine || (((s.group? uid).map Group.covered).getD []).contains q.op)

/-- R137: every earlier HOSTIO and WINDOW access of the group, and the HOST and REMOTE writes of its waited flows, complete at their targets, where everyone sees
them from then on. -/
def State.drainConn (s : State) (uid : Nat) : State := s.landFor (s.fsysNeeds uid)

/-- R137. It waits while an access of the group through HOSTIO has not completed at the host (R333), for a flow that holds back an earlier store, and
for save frames that a write needs (R309). -/
def execFsys (n : F7) (s : State) : Host.Outcome State Fault Refusal :=
  word (.fsys n) s fun s c =>
    if c.g.host.isSome || s.stuck (s.fsysNeeds c.uid) then .wait (s.starvePosted (s.fsysNeeds c.uid)) else .done ((s.drainConn c.uid).publishGroup c.uid n.toNat)

end Sys2Proof.Machine
end

