-- ==== Sys2Proof/Machine/Interval.lean ====
section
/-! DEFINITION. Interval registers (spec/06_bounds_pass.md R101, R102, R103): reading under a tag, TOP, and the rules of the integer instructions. -/

namespace Sys2Proof.Machine

/-- An interval (R101). -/
structure Iv where
  lo  : W32
  hi  : W32
  tag : ITag
  nan : Bool
  deriving DecidableEq, Repr

/-- An interval that stands for one value. -/
def Iv.point (t : ITag) (x : W32) : Iv := ⟨x, x, t, false⟩

/-- Degenerate: it stands for exactly its value, under any tag. -/
def Iv.degen (a : Iv) : Bool := decide (a.lo = a.hi) && !a.nan

def fNegInf : W32 := 0xFF800000
def fPosInf : W32 := 0x7F800000
def fNaN : W32 := 0x7FC00000

/-- TOP of a tag (R101). -/
def Iv.top : ITag → Iv
  | .s => ⟨0x80000000, 0x7FFFFFFF, .s, false⟩
  | .z => ⟨0, 0xFFFFFFFF, .z, false⟩
  | .f => ⟨fNegInf, fPosInf, .f, true⟩

/-- Does a reader under the tag see the interval unchanged (R101)? -/
def Iv.keeps (a : Iv) (t : ITag) : Bool :=
  decide (a.tag = t) || a.degen ||
  (decide (a.tag ≠ .f) && decide (t ≠ .f) && decide (a.lo.toNat ≤ 0x7FFFFFFF) && decide (a.hi.toNat ≤ 0x7FFFFFFF))

/-- The interval as a consumer under a tag reads it. -/
def Iv.as (a : Iv) (t : ITag) : Iv := if a.keeps t then { a with tag := t } else Iv.top t

/-- The bounds of an integer interval. -/
def Iv.ilo (a : Iv) : Int := if a.tag = .z then a.lo.toNat else a.lo.toInt
def Iv.ihi (a : Iv) : Int := if a.tag = .z then a.hi.toNat else a.hi.toInt

/-- The hull of exact integer results, or TOP where one could overflow (R102). -/
def Iv.hullI (t : ITag) (xs : List Int) : Iv :=
  let lo := xs.foldl min (xs.headD 0)
  let hi := xs.foldl max (xs.headD 0)
  let fits := if t = .z then decide (0 ≤ lo ∧ hi ≤ 2 ^ 32 - 1) else decide (-(2 ^ 31) ≤ lo ∧ hi ≤ 2 ^ 31 - 1)
  if fits then ⟨BitVec.ofInt 32 lo, BitVec.ofInt 32 hi, t, false⟩ else Iv.top t

/-- The four products of the bounds. -/
def Iv.prods (a b : Iv) : List Int := [a.ilo * b.ilo, a.ilo * b.ihi, a.ihi * b.ilo, a.ihi * b.ihi]

/-! ### The rules on intervals that are not all degenerate (R103) -/

def ivAdd (a b : Iv) : Iv := let (a, b) := (a.as .s, b.as .s); Iv.hullI .s [a.ilo + b.ilo, a.ihi + b.ihi]
def ivSub (a b : Iv) : Iv := let (a, b) := (a.as .s, b.as .s); Iv.hullI .s [a.ilo - b.ihi, a.ihi - b.ilo]
def ivMul (a b : Iv) : Iv := Iv.hullI .s ((a.as .s).prods (b.as .s))
def ivMad (d a b : Iv) : Iv :=
  let ps := (a.as .s).prods (b.as .s)
  Iv.hullI .s (ps.map (· + (d.as .s).ilo) ++ ps.map (· + (d.as .s).ihi))

/-- Monotone in both operands: the function on the endpoints. -/
def ivMono (t : ITag) (f : W32 → W32 → W32) (a b : Iv) : Iv := ⟨f (a.as t).lo (b.as t).lo, f (a.as t).hi (b.as t).hi, t, false⟩

/-- Rising in the first operand, falling in the second. -/
def ivAnti (t : ITag) (f : W32 → W32 → W32) (a b : Iv) : Iv := ⟨f (a.as t).lo (b.as t).hi, f (a.as t).hi (b.as t).lo, t, false⟩

/-- Division: TOP for a divisor interval that holds 0, or where MIN could meet -1; else the corners. -/
def ivDiv (t : ITag) (a b : Iv) : Iv :=
  let (a, b) := (a.as t, b.as t)
  if b.ilo ≤ 0 ∧ 0 ≤ b.ihi then Iv.top t
  else if t = .s ∧ a.ilo = -(2 ^ 31) ∧ b.ilo ≤ -1 ∧ -1 ≤ b.ihi then Iv.top t
  else Iv.hullI t [a.ilo.tdiv b.ilo, a.ilo.tdiv b.ihi, a.ihi.tdiv b.ilo, a.ihi.tdiv b.ihi]

/-- TOP whatever the intervals: instructions exact on degenerate inputs only. -/
def ivTop1 (t : ITag) (_ : Iv) : Iv := Iv.top t
def ivTop2 (t : ITag) (_ _ : Iv) : Iv := Iv.top t
def ivTop3 (t : ITag) (_ _ _ : Iv) : Iv := Iv.top t

/-- A left shift by a degenerate amount; by 32 or more every value becomes 0 (R158), and so the interval the point 0 (log entry 112). -/
def ivShl (a b : Iv) : Iv :=
  if b.degen then
    if 32 ≤ b.lo.toNat then Iv.point .s 0 else Iv.hullI .s [(a.as .s).ilo * 2 ^ b.lo.toNat, (a.as .s).ihi * 2 ^ b.lo.toNat]
  else Iv.top .s

/-- A right shift by a degenerate amount, under Z or S. -/
def ivShr (t : ITag) (f : W32 → Nat → W32) (a b : Iv) : Iv :=
  if b.degen then ⟨f (a.as t).lo b.lo.toNat, f (a.as t).hi b.lo.toNat, t, false⟩ else Iv.top t

/-- A compare's result from what holds for every pair. -/
def ivBool (always never : Bool) : Iv := if always then Iv.point .s (BitVec.allOnes 32) else if never then Iv.point .s 0 else ⟨BitVec.allOnes 32, 0, .s, false⟩

def ivEq (a b : Iv) : Iv :=
  let (a, b) := (a.as .s, b.as .s)
  ivBool (a.degen && b.degen && decide (a.lo = b.lo)) (decide (a.ihi < b.ilo) || decide (b.ihi < a.ilo))
def ivNe (a b : Iv) : Iv :=
  let (a, b) := (a.as .s, b.as .s)
  ivBool (decide (a.ihi < b.ilo) || decide (b.ihi < a.ilo)) (a.degen && b.degen && decide (a.lo = b.lo))
def ivLt (t : ITag) (a b : Iv) : Iv := let (a, b) := (a.as t, b.as t); ivBool (decide (a.ihi < b.ilo)) (decide (b.ihi ≤ a.ilo))
def ivLe (t : ITag) (a b : Iv) : Iv := let (a, b) := (a.as t, b.as t); ivBool (decide (a.ihi ≤ b.ilo)) (decide (b.ihi < a.ilo))

/-- A compare rule with the maybe-NaN clause of R103: an operand that may be NaN, as it reads under the compare's tag, leaves the result open. -/
def ivNanOpen (t : ITag) (r : Iv → Iv → Iv) (a b : Iv) : Iv := if (a.as t).nan || (b.as t).nan then ⟨BitVec.allOnes 32, 0, .s, false⟩ else r a b

/-! ### Hulls and selection -/

/-- The order of a bound under a tag: integers by value, FP32 with -0 below +0 (R81). -/
def boundKey (t : ITag) (x : W32) : Int :=
  match t with
  | .s => x.toInt
  | .z => x.toNat
  | .f => if x.msb then -((x.toNat : Int) - 2 ^ 31) - 1 else x.toNat

/-- The lesser and the greater bound; a NaN bound (no non-NaN value can occur) gives the other. -/
def isNaN32 (x : W32) : Bool := decide (0x7F800000 < x.toNat % 2 ^ 31)
def boundMin (t : ITag) (x y : W32) : W32 :=
  if t = .f ∧ isNaN32 x then y else if t = .f ∧ isNaN32 y then x else if boundKey t x ≤ boundKey t y then x else y
def boundMax (t : ITag) (x y : W32) : W32 :=
  if t = .f ∧ isNaN32 x then y else if t = .f ∧ isNaN32 y then x else if boundKey t x ≤ boundKey t y then y else x

/-- The hull of two intervals under a tag. Under F a value that is NaN leaves the bounds and sets maybe-NaN, a degenerate one too (R101, R102,
log entry 18). -/
def Iv.hullAs (t : ITag) (a b : Iv) : Iv :=
  if t = .f ∧ isNaN32 a.lo ∧ isNaN32 b.lo then ⟨fNaN, fNaN, .f, true⟩
  else ⟨boundMin t a.lo b.lo, boundMax t a.hi b.hi, t, a.nan || b.nan || (decide (t = .f) && (isNaN32 a.lo || isNaN32 b.lo))⟩

/-- The hull of two intervals (R103, `vsel`; R104, `bhull`): under the first's tag, else under the second's, else TOP of tag S. -/
def Iv.hull (a b : Iv) : Iv :=
  if b.keeps a.tag then Iv.hullAs a.tag a b
  else if a.keeps b.tag then Iv.hullAs b.tag a b
  else { Iv.top .s with nan := a.nan || b.nan }

/-- `vsel` (R103): d is the mask. A mask of all ones or of 0 gives va or vb whole. An interval mask other than [-1, 0] stands for several masks: exact where va
and vb are the same value, else TOP (log entry 15). -/
def ivSel (d a b : Iv) : Iv :=
  if d.degen ∧ d.lo = BitVec.allOnes 32 then a
  else if d.degen ∧ d.lo = 0 then b
  else if d.tag = .s ∧ ¬ d.nan ∧ d.lo = BitVec.allOnes 32 ∧ d.hi = 0 then a.hull b
  else if a.degen ∧ b.degen ∧ d.degen then Iv.point .s ((d.lo &&& a.lo) ||| (~~~d.lo &&& b.lo))
  else if a.degen ∧ b.degen ∧ a.lo = b.lo then Iv.point .s a.lo
  else Iv.top .s

/-! ### The interval registers of a lane -/

/-- Lane l of vector register r as an interval. -/
def Ctx.iv (c : Ctx) (r l : Nat) : Iv :=
  let lo := c.regs.rv r l
  match Tab.find c.g.shadow (vkey (c.regs.wb + r) l) with
  | none => Iv.point .s lo
  | some x => ⟨lo, x.hi, x.tag, x.nan⟩

/-- Write intervals to lanes of a vector register. -/
def Ctx.writeIvs (c : Ctx) (s : State) (r : Nat) (f : Nat → Iv) : List Nat → State
  | [] => s
  | l :: ls =>
    let x := f l
    let s1 := s.onGroup c.uid (fun g =>
      { g with regs := { g.regs with v := Tab.set 0 g.regs.v (vkey (c.regs.wb + r) l) x.lo },
               shadow := Tab.put g.shadow (vkey (c.regs.wb + r) l) ⟨x.hi, x.tag, x.nan⟩ })
    Ctx.writeIvs c s1 r f ls

/-! ### Vector instructions of one shape -/

/-- A vector write of the executing lanes: values, or intervals in bounds mode. -/
def Ctx.setVec (c : Ctx) (s : State) (d : F7) (f : Nat → W32) (v : Nat → Iv) : Res :=
  if c.g.mode = 1 then .done (c.writeIvs s d.toNat v c.lanes)
  else .done (c.write s (fun x => x.wvs d.toNat f c.lanes))

/-- R102: exact on degenerate inputs; the rule of R103 otherwise. -/
def lift1 (t : ITag) (f : W32 → W32) (r : Iv → Iv) (a : Iv) : Iv := if a.degen then Iv.point t (f a.lo) else r a
def lift2 (t : ITag) (f : W32 → W32 → W32) (r : Iv → Iv → Iv) (a b : Iv) : Iv := if a.degen && b.degen then Iv.point t (f a.lo b.lo) else r a b
def lift3 (t : ITag) (f : W32 → W32 → W32 → W32) (r : Iv → Iv → Iv → Iv) (d a b : Iv) : Iv :=
  if d.degen && a.degen && b.degen then Iv.point t (f d.lo a.lo b.lo) else r d a b

/-- vd[l] := f va[l]; f may depend on the rounding control. -/
def vec1 (i : Instr) (d a : F7) (t : ITag) (f : Nat → W32 → W32) (r : Iv → Iv) (s : State) : Host.Outcome State Fault Refusal :=
  word i s fun s c =>
    c.setVec s d (fun l => f c.rm (c.regs.rv a.toNat l)) (fun l => lift1 t (f c.rm) r (c.iv a.toNat l))

/-- vd[l] := f va[l] vb[l]. -/
def vec2 (i : Instr) (d a b : F7) (t : ITag) (f : Nat → W32 → W32 → W32) (r : Iv → Iv → Iv) (s : State) : Host.Outcome State Fault Refusal :=
  word i s fun s c =>
    c.setVec s d (fun l => f c.rm (c.regs.rv a.toNat l) (c.regs.rv b.toNat l))
      (fun l => lift2 t (f c.rm) r (c.iv a.toNat l) (c.iv b.toNat l))

/-- vd[l] := f vd[l] va[l] vb[l]. -/
def vec3 (i : Instr) (d a b : F7) (t : ITag) (f : Nat → W32 → W32 → W32 → W32) (r : Iv → Iv → Iv → Iv) (s : State) :
    Host.Outcome State Fault Refusal :=
  word i s fun s c =>
    c.setVec s d (fun l => f c.rm (c.regs.rv d.toNat l) (c.regs.rv a.toNat l) (c.regs.rv b.toNat l))
      (fun l => lift3 t (f c.rm) r (c.iv d.toNat l) (c.iv a.toNat l) (c.iv b.toNat l))

/-- vd[l] := f va[l] k, with k a constant of the word. -/
def vecK (i : Instr) (d a : F7) (k : W32) (t : ITag) (f : W32 → W32 → W32) (r : Iv → Iv → Iv) (s : State) : Host.Outcome State Fault Refusal :=
  word i s fun s c =>
    c.setVec s d (fun l => f (c.regs.rv a.toNat l) k) (fun l => lift2 t f r (c.iv a.toNat l) (Iv.point .s k))

/-! ### Scalar instructions of one shape (R160): once for the group, exact in every mode -/

def sca1 (i : Instr) (d a : F7) (f : W64 → W64) (s : State) : Host.Outcome State Fault Refusal :=
  word i s fun s c => .done (c.write s (fun x => x.ws d.toNat (f (c.regs.rs a.toNat))))

def sca2 (i : Instr) (d a b : F7) (f : W64 → W64 → W64) (s : State) : Host.Outcome State Fault Refusal :=
  word i s fun s c => .done (c.write s (fun x => x.ws d.toNat (f (c.regs.rs a.toNat) (c.regs.rs b.toNat))))

def sca3 (i : Instr) (d a b : F7) (f : W64 → W64 → W64 → W64) (s : State) : Host.Outcome State Fault Refusal :=
  word i s fun s c => .done (c.write s (fun x => x.ws d.toNat (f (c.regs.rs d.toNat) (c.regs.rs a.toNat) (c.regs.rs b.toNat))))

end Sys2Proof.Machine
end

