-- ==== Sys2Proof/Machine/Control.lean ====
section
/-! DEFINITION. Classes 0x6 and 0x7, control (spec/10_ref_integer_control.md R163 to R177; spec/03_rejoin_sets.md R53; spec/02_execution_model.md R40
to R42; spec/06_bounds_pass.md R105, R106, R108). -/

namespace Sys2Proof.Machine

/-! ### Branches (R163 to R166) -/

/-- The target p + 4·off14. -/
def target (p : Pc) (o : BitVec 14) : Pc := p + sx 48 o * 4

/-- R34: taken lanes take the PC and the priority, the others go on. -/
def Group.branchTo (g : Group) (m taken : W64) (p t : Pc) (prio : Nat) : Group :=
  (g.onLanes (m &&& ~~~taken) (fun _ x => { x with pc := nextPc p })).onLanes taken (fun _ x => { x with pc := t, prio := prio })

/-- What a conditional branch decides for a lane: taken or not, undecided (R105), or the 65th of a bounds-mode lane. -/
inductive Decision where
  | go (taken : Bool)
  | undecided
  | over
  deriving DecidableEq, Repr

/-- The decision of a lane by the mode: in bounds mode by the interval and the count of R105; in settled mode by the path record (R108). -/
def Ctx.choose (c : Ctx) (l : Nat) (value : Bool) (interval : Option Bool) : Decision :=
  match (c.g.lane l).tile with
  | none => .go value
  | some t =>
    if c.g.mode = 1 then
      if 64 ≤ t.nbr then .over
      else match interval with
        | none => .undecided
        | some b => .go b
    else if c.g.mode = 2 && decide (t.nbr < t.ndec) then .go (bit t.path t.nbr)
    else .go value

/-- The path record after a decision (R105, R108). -/
def TileLane.decided (t : TileLane) (mode : Nat) (taken : Bool) : TileLane :=
  if mode = 1 then { t with path := t.path ||| (if taken then oneBit t.nbr else 0), ndec := t.nbr + 1, nbr := t.nbr + 1 }
  else { t with nbr := t.nbr + 1 }

/-- Does the decision take the branch? -/
def Decision.takes : Decision → Bool
  | .go b => b
  | _ => false

/-- R163: a branch by the decisions of its lanes; `cond` marks the conditional forms. A word-0 target that some lane takes faults; in bounds
mode it abandons the lanes that take it, without effect (R102, R103). -/
def branch (i : Instr) (prio : BitVec 4) (off : BitVec 14) (cond : Bool) (dec : Ctx → Nat → Decision) (s : State) :
    Host.Outcome State Fault Refusal :=
  word i s fun s c =>
    let t := target c.pc off
    let taken := maskOf (fun l => c.runs l && (dec c l).takes) 64
    let undec := maskOf (fun l => c.runs l && decide (dec c l = .undecided)) 64
    let full := maskOf (fun l => c.runs l && decide (dec c l = .over)) 64
    let bad := if isWord0 t then taken else 0
    let ends := undec ||| full ||| bad
    if c.g.mode ≠ 1 ∧ bad ≠ 0 then .hard s (Hard.plain fcIllCtl)
    else
      .moved (s.onGroup c.uid (fun g =>
        let g1 := g.branchTo c.mask taken c.pc t prio.toNat
        let g2 := if cond then g1.onLanes (c.mask &&& ~~~ends) (fun l x => { x with tile := x.tile.map (fun y => y.decided c.g.mode (bit taken l)) })
                  else g1
        (g2.endTiles undec .quarter).endTiles (full ||| bad) .abandoned))

/-- R105: what an interval says of being nonzero. Under S and Z it must exclude 0, under F only a degenerate interval decides. -/
def Iv.nonzero (a : Iv) : Option Bool :=
  if a.degen then some (decide (a.lo ≠ 0))
  else if a.tag = .f then none
  else if 0 < a.ilo ∨ a.ihi < 0 then some true
  else none

/-- R164. -/
def execBnz (a : F7) (p : BitVec 4) (o : BitVec 14) (s : State) : Host.Outcome State Fault Refusal :=
  branch (.bnz a p o) p o true (fun c l => c.choose l (decide (c.regs.rv a.toNat l ≠ 0)) (c.iv a.toNat l).nonzero) s

/-- R164. -/
def execBz (a : F7) (p : BitVec 4) (o : BitVec 14) (s : State) : Host.Outcome State Fault Refusal :=
  branch (.bz a p o) p o true (fun c l => c.choose l (decide (c.regs.rv a.toNat l = 0)) ((c.iv a.toNat l).nonzero.map (!·))) s

/-- R166. -/
def execBsnz (a : F7) (p : BitVec 4) (o : BitVec 14) (s : State) : Host.Outcome State Fault Refusal :=
  branch (.bsnz a p o) p o true
    (fun c l => c.choose l (decide (c.regs.rs a.toNat ≠ 0)) (some (decide (c.regs.rs a.toNat ≠ 0)))) s

/-- R166. -/
def execBsz (a : F7) (p : BitVec 4) (o : BitVec 14) (s : State) : Host.Outcome State Fault Refusal :=
  branch (.bsz a p o) p o true
    (fun c l => c.choose l (decide (c.regs.rs a.toNat = 0)) (some (decide (c.regs.rs a.toNat = 0)))) s

/-- R165. -/
def execBra (p : BitVec 4) (o : BitVec 14) (s : State) : Host.Outcome State Fault Refusal :=
  branch (.bra p o) p o false (fun _ _ => .go true) s

/-! ### Return stacks (R53) -/

/-- The kinds that loads and stores accept (R63). -/
def loadKinds : List Nat := [kMem, kCode, kTeam, kHostio, kWindow]
def storeKinds : List Nat := [kMem, kTeam, kHostio, kWindow]

/-- The slot of entry i of lane l in the call-stack object. -/
def stackSlot (i l : Nat) : Nat := 8 * (64 * i + l)

/-- The lanes whose call spills: their depth reaches 5. -/
def Ctx.spills (c : Ctx) : List Nat := c.lanes.filter (fun l => decide (4 ≤ (c.g.lane l).depth))

/-- The lanes whose return reloads. -/
def Ctx.reloads (c : Ctx) : List Nat := c.lanes.filter (fun l => decide (5 ≤ (c.g.lane l).depth))

/-- The accesses of the call stack (R53), checked as accesses with rights R and W. -/
def State.stackAccess (s : State) (c : Ctx) (u : Use) (accs : List Acc) : Except Stop (List (Acc × Trans)) × State :=
  let x := s.actor c.uid c.g
  let cap := c.regs.rc 31
  match s.capCheck x cap storeKinds (rR + rW) 8 accs with
  | (some h, s1) => (.error (.hard h), s1)
  | (none, s1) => s1.accessAt x true cap u 8 accs

/-- Write the spilled entries, each lane's oldest on-chip address; none where the commit buffer cannot take them (R45). -/
def State.spillAll (s : State) (c : Ctx) (ts : List (Acc × Trans)) : Option State :=
  s.storeAt (s.actor c.uid c.g) (c.regs.rc 31) 8 (fun l => toBytes 8 (((c.g.lane l).stack.getLast?).getD 0).toNat) ts

/-- Push next(p): the four newest stay on chip. -/
def Lane.push (x : Lane) (p : Pc) : Lane := { x with stack := (nextPc p :: x.stack).take 4, depth := x.depth + 1 }

/-- A call of lanes to their targets (R167, R169): a fifth return address in a dispatch abandons or faults (R100). -/
def callTo (s : State) (c : Ctx) (t : Nat → Pc) (prio : Option Nat) : Res :=
  let deep := maskOf (fun l => c.runs l && decide (4 ≤ (c.g.lane l).depth)) 64
  let go (m : W64) (g : Group) : Group :=
    g.onLanes m (fun l x => { x.push c.pc with state := .run, pc := t l, prio := prio.getD x.prio })
  if c.g.mode = 1 then .moved (s.onGroup c.uid (fun g => (go (c.mask &&& ~~~deep) g).endTiles deep .abandoned))
  else if c.g.mode ≠ 0 ∧ deep ≠ 0 then .hard s { Hard.plain fcStack with lane := lowestLane deep }
  else
    match s.stackAccess c .store (c.spills.map (fun l => ⟨l, stackSlot ((c.g.lane l).depth - 4) l⟩)) with
    | (.error e, s1) => Res.ofStop s1 e
    | (.ok ts, s1) =>
      match s1.spillAll c ts with
      | none => .hard s1 (Hard.plain fcHeld)
      | some s2 => .moved (s2.onGroup c.uid (go c.mask))

/-- R167. -/
def execCalli (p : BitVec 4) (o : BitVec 14) (s : State) : Host.Outcome State Fault Refusal :=
  word (.calli p o) s fun s c =>
    let t := target c.pc o
    if isWord0 t then .hard s (Hard.plain fcIllCtl) else callTo s c (fun _ => t) (some p.toNat)

/-- R169: the checks of an indirect transfer: R62 as a 4-byte access, then the word-0 target. -/
def State.jumpCheck (s : State) (c : Ctx) (cap : Cap) (offs : List Acc) : Option Hard × State :=
  let foreign := cap.tag && decide (cap.kind = kCode) && cap.has rX && decide (cap.obj ≠ (c.regs.rc 29).obj)
  let at0 : Hard := ⟨fcRights, offs.head?.map (·.lane), cap.obj, cap.base + (offs.head?.map (·.off)).getD 0, 0⟩
  if foreign then (some at0, s)
  else match s.capCheck (s.actor c.uid c.g) cap [kCode] rX 4 offs with
    | (some h, s1) => (some h, s1)
    | (none, s1) => ((firstAcc (fun a => decide ((cap.base + a.off) % 32 = 0)) offs).map (fun a => { Hard.plain fcIllCtl with lane := some a.lane }), s1)

/-- The offsets of a per-lane and of a group-uniform transfer. -/
def Ctx.laneOffs (c : Ctx) (f : Nat → Nat) : List Acc := c.lanes.map (fun l => ⟨l, f l⟩)

/-- R169. -/
def execCallv (d a : F7) (s : State) : Host.Outcome State Fault Refusal :=
  word (.callv d a) s fun s c =>
    let cap := c.regs.rc d.toNat
    let off (l : Nat) : Nat := (c.regs.rv a.toNat l).toNat
    match s.jumpCheck c cap (c.laneOffs off) with
    | (some h, s1) => .hard s1 h
    | (none, s1) => callTo s1 c (fun l => BitVec.ofNat 48 (cap.base + off l)) none

/-- R169. -/
def execCalls (d a : F7) (s : State) : Host.Outcome State Fault Refusal :=
  word (.calls d a) s fun s c =>
    let cap := c.regs.rc d.toNat
    let off : Nat := (c.regs.rs a.toNat).toNat
    match s.jumpCheck c cap (c.laneOffs (fun _ => off)) with
    | (some h, s1) => .hard s1 h
    | (none, s1) => callTo s1 c (fun _ => BitVec.ofNat 48 (cap.base + off)) none

/-- R169. -/
def execJmpv (d a : F7) (s : State) : Host.Outcome State Fault Refusal :=
  word (.jmpv d a) s fun s c =>
    let cap := c.regs.rc d.toNat
    let off (l : Nat) : Nat := (c.regs.rv a.toNat l).toNat
    match s.jumpCheck c cap (c.laneOffs off) with
    | (some h, s1) => .hard s1 h
    | (none, s1) => .moved (s1.onGroup c.uid (fun g => g.onLanes c.mask (fun l x => { x with pc := BitVec.ofNat 48 (cap.base + off l) })))

/-- Read the reloaded entries. -/
def State.reloadAll (s : State) (c : Ctx) : List (Acc × Trans) → List (Nat × Pc) × State
  | [] => ([], s)
  | (a, t) :: as =>
    let (bs, s1) := s.loadAcc (s.actor c.uid c.g) 8 t
    let (rs, s2) := State.reloadAll s1 c as
    ((a.lane, BitVec.ofNat 48 (ofBytes bs)) :: rs, s2)

/-- Pop: the newest address; a reloaded one becomes the oldest on chip. -/
def Lane.pop (x : Lane) (reload : Option Pc) : Lane :=
  { x with state := .run, pc := x.stack.headD 0, stack := x.stack.tail ++ reload.toList, depth := x.depth - 1 }

/-- R173. -/
def execRet (s : State) : Host.Outcome State Fault Refusal :=
  word .ret s fun s c =>
    let empty := maskOf (fun l => c.runs l && decide ((c.g.lane l).depth = 0)) 64
    if c.g.mode = 1 ∧ empty ≠ 0 then
      .moved (s.onGroup c.uid (fun g => (g.onLanes (c.mask &&& ~~~empty) (fun _ x => x.pop none)).endTiles empty .abandoned))
    else if empty ≠ 0 then .hard s { Hard.plain fcStack with lane := lowestLane empty }
    else
      match s.stackAccess c .load (c.reloads.map (fun l => ⟨l, stackSlot ((c.g.lane l).depth - 5) l⟩)) with
      | (.error e, s1) => Res.ofStop s1 e
      | (.ok ts, s1) =>
        let (rs, s2) := s1.reloadAll c ts
        .moved (s2.onGroup c.uid (fun g => g.onLanes c.mask (fun l x => x.pop ((rs.find? (fun r => decide (r.1 = l))).map (·.2)))))

/-! ### Exit (R40 to R42) -/

/-- R44: every held byte of a team in place. -/
def State.commitHeld (s : State) : List Held → State
  | [] => s
  | h :: hs => State.commitHeld (s.writeByte h.slot h.loc h.byte) hs

/-- The held bytes that a team commits: none goes through a key slot that has been revoked since, or that a `keyrev` is revoking (R261, R262, log entry 108). -/
def State.committed (s : State) (tm : Team) : List Held := tm.held.filter (fun h => !s.keyHeld tm.part h.slot && !s.keyBad tm.part h.slot)

def State.commitTags (s : State) : List Held → State
  | [] => s
  | h :: hs => State.commitTags (if h.tag then s.setTag h.loc true else s) hs

/-- The claim numbers of a team with accepted operations. -/
def State.inflight (s : State) (t k : Nat) : Nat :=
  (s.copies.filter (fun e => decide (e.2.team = t) && decide (e.2.claim = some k))).length +
  (s.contribs.filter (fun e => decide (e.team = t) && decide (e.claim = k))).length

/-- R42: the claim registers of a retired team: FREE, each once its flows have ended. -/
def State.freeClaims (s : State) (t : Nat) : State :=
  let busy := (List.range 16).filter (fun k => decide (0 < s.inflight t k))
  s.onTeam t (fun tm => { tm with claims := tm.claims.filter (fun e => busy.contains e.1) })

/-- R124: parked senders of a channel go on: a slot has become free, or its destination team has retired. -/
def State.freeSenders (s : State) : List ChanWait → State
  | [] => s
  | w :: ws => State.freeSenders (s.onGroup w.group (fun g => g.onLanes w.mask (fun _ x => if x.state = .park then x.resume else x))) ws

/-- Who owns the free values of a team: its context, or its partition's service team (R4). -/
def State.domTeam (s : State) (t : Team) : Nat := s.domAt t.level t.part

/-- R42, R44: the retirement of a team: held bytes are committed at this point of T, when they reach their homes (R276), and what it held is freed. -/
def State.retireTeam (s : State) (t : Nat) : State :=
  match s.team? t with
  | none => s
  | some tm =>
    let hs := s.committed tm
    let as := hs.flatMap (fun h => h.loc.addrs 1)
    let ls := hs.map (·.loc)
    let s0 := s.engineHot (s.domTeam tm) tm.core none ls
    let s1 := ((((s0.commitHeld hs).commitTags hs).versionsAll ls).unmark as).queueHook s0 as
    let s2 := s1.onTeam t (fun tm => { tm with retired := true, held := [], tmem := [], ttags := [], wbuf := [], acc := [], accBad := [], bars := [], pass := none })
    let s3 := { s2 with groups := s2.groups.filter (fun e => decide (e.2.team ≠ t)) }
    let ws := match s3.launch? tm.launch with
      | none => []
      | some l => (l.chans.filter (fun e => decide (e.2.dst = tm.tid))).flatMap (·.2.senders)
    let chans (cs : Tab Chan) : Tab Chan := cs.map (fun e => (e.1, if e.2.dst = tm.tid then { e.2 with fifo := [], senders := [] } else e.2))
    ((s3.onLaunch tm.launch (fun l => { l with chans := chans l.chans })).freeClaims t).freeSenders ws

/-- R42: has the group retired, and with it every group of its team? -/
def State.lastOut (s : State) (uid : Nat) : Bool :=
  match s.group? uid with
  | none => false
  | some g => g.retired && (s.teamGroups g.team).all (fun u => ((s.group? u).map Group.retired).getD true)

/-- R41: a group whose last lane has exited frees its registers and log; the last group retires the team. -/
def State.retireGroup (s : State) (uid : Nat) : State :=
  match s.group? uid with
  | none => s
  | some g =>
    if !g.retired then s
    else
      let s1 := s.onGroup uid (fun g => { g with regs := Regs.zero, shadow := [], js := [], log := [], pend := [], recent := [], memHold := none,
                                                 openOps := [], sealed := [], tokens := [], tsumRead := [] })
      if s.lastOut uid then s1.retireTeam g.team else s1

/-- R106: in bounds mode `exit` ends the tile by whether it did element work. -/
def Group.exitTiles (g : Group) (m : W64) : Group :=
  g.onLanes m (fun _ x => { x with state := .exit, tile := x.tile.map (fun t => { t with ended := some (if t.work then .settled else .retired) }) })

/-- Exited lanes: every field of their record 0 (R305); a dispatch lane keeps what it stands for. -/
def Group.exitLanes (g : Group) (m : W64) : Group := (g.onLanes m (fun _ x => { Lane.exited with tile := x.tile })).quitAll m

/-- The places of the bytes that a team holds back (R44). -/
def State.heldPlaces (s : State) (t : Nat) : List Loc := ((s.team? t).map (fun tm => (s.committed tm).map (·.loc))).getD []

/-- R170, R40. Where it retires the team, the bytes that the team holds must copy pages, and save frames are short, it waits (R309). -/
def execExit (s : State) : Host.Outcome State Fault Refusal :=
  word .exit s fun s c =>
    if c.g.mode = 1 then .moved (s.onGroup c.uid (fun g => g.exitTiles c.mask))
    else
      let s1 := s.onGroup c.uid (fun g => g.exitLanes c.mask)
      if s1.lastOut c.uid && (s.snapShort (s.heldPlaces c.g.team)).isSome then .wait (s.starveAny (s.heldPlaces c.g.team))
      else .moved ((s1.barsAfterExit c.uid).retireGroup c.uid)

/-! ### Breakpoints and traps (R168, R175, R334) -/

/-- Is lane-stop on for the group's context? S and H teams run as if STOPMODE held 0 (R240). -/
def State.laneStop (s : State) (g : Group) : Bool :=
  decide (g.level = .u) && (match s.context? g.part with
    | none => false
    | some c => c.stopmode.getLsbD 0)

/-- A BRK record for each parked lane (R334, R338). -/
def State.brkRecords (s : State) (c : Ctx) (code : Nat) : List Nat → State
  | [] => s
  | l :: ls =>
    let tid := ((s.team? c.g.team).map (·.tid)).getD 0
    State.brkRecords (s.trace c.g.part (traceQ0 1 code c.g.gid tid) (traceQ1 c.pc l) 0) c code ls

/-- R168. -/
def execBrk (n : F7) (s : State) : Host.Outcome State Fault Refusal :=
  word (.brk n) s fun s c =>
    let s1 := s.onGroup c.uid (fun g => g.onLanes c.mask (fun _ x => { x with state := .brk, stepping := false, stepped := false }))
    if s.laneStop c.g then .moved (s1.brkRecords c n.toNat c.lanes)
    else .hard s1 { Hard.plain fcBreak with extra := BitVec.ofNat 64 n.toNat }

/-- R175. -/
def execTrap (n : F7) (s : State) : Host.Outcome State Fault Refusal :=
  word (.trap n) s fun s _ => .hard s { Hard.plain fcTrap with extra := BitVec.ofNat 64 n.toNat }

/-! ### The rest of class 0x7 -/

/-- R174. -/
def execSetprio (n : F7) (s : State) : Host.Outcome State Fault Refusal :=
  word (.setprio n) s fun s c => .done (s.onGroup c.uid (fun g => g.onLanes c.mask (fun _ x => { x with prio := n.toNat })))

/-- R176, R26. -/
def execWbase (n : F7) (s : State) : Host.Outcome State Fault Refusal :=
  word (.wbase n) s fun s c =>
    if c.g.alloc ≤ 8 * n.toNat then .hard s (Hard.plain fcWindow)
    else .done (s.onGroup c.uid (fun g => { g with regs := { g.regs with wb := 8 * n.toNat } }))

/-- R171. -/
def execFrnd (n : F7) (s : State) : Host.Outcome State Fault Refusal :=
  word (.frnd n) s fun s c => .done (s.onGroup c.uid (fun g => { g with rm := n.toNat }))

/-- R172. -/
def execNop (s : State) : Host.Outcome State Fault Refusal := word .nop s fun s _ => .done s

/-- R177: the entry that holds the yielding lanes is passed over at the next selection. -/
def execYield (s : State) : Host.Outcome State Fault Refusal :=
  word .yield s fun s c => .done (s.onGroup c.uid (fun g => { g with yielded := some (nextPc c.pc) }))

end Sys2Proof.Machine
end

