-- ==== Sys2Proof/Machine/Memory.lean ====
section
/-! DEFINITION. Classes 0x8 to 0xA, loads and stores (spec/12_ref_memory_sync_transfer.md R196 to R202), with the bounds-mode rules of
spec/06_bounds_pass.md R103. -/

namespace Sys2Proof.Machine

/-! ### The accesses of a word -/

/-- One access for each executing lane, at its vector offset (R196). -/
def Ctx.vecAccs (c : Ctx) (a : F7) (imm : Nat) : List Acc := c.lanes.map (fun l => ⟨l, (c.regs.rv a.toNat l).toNat + imm⟩)

/-- The one access of a scalar offset, as the access of the lowest executing lane (R196). -/
def Ctx.scaAccs (c : Ctx) (a : F7) (imm : Nat) : List Acc := [⟨(lowestLane c.mask).getD 0, (c.regs.rs a.toNat).toNat + imm⟩]

/-- The checks of R62, then those of R266 and R197, for every access. Of an S or H group `c31` never takes the soft path (R273). -/
def State.access (s : State) (c : Ctx) (r : BitVec 5) (kinds : List Nat) (need : Nat) (u : Use) (w : Nat) (accs : List Acc) :
    Except Stop (List (Acc × Trans)) × State :=
  let x := s.actor c.uid c.g
  let cap := c.regs.rc r.toNat
  match s.capCheck x cap kinds need w accs with
  | (some h, s1) => (.error (.hard h), s1)
  | (none, s1) => s1.accessAt x (decide (r.toNat = 31) && decide (x.stack = 2)) cap u w accs

/-- The bytes of each access, ascending (R130). -/
def State.loadEach (s : State) (x : Actor) (w : Nat) : List (Acc × Trans) → List (Nat × List Byte) × State
  | [] => ([], s)
  | (a, t) :: as =>
    let (bs, s1) := s.loadAcc x w t
    let (rs, s2) := State.loadEach s1 x w as
    ((a.lane, bs) :: rs, s2)

/-- Word i of the bytes that a lane loaded. -/
def loadedWord (f : List Byte → Nat) (bs : List Byte) (i : Nat) : W32 := BitVec.ofNat 32 (f ((bs.drop (4 * i)).take 4))

/-- The bytes that lane l loaded. -/
def bytesOf (rs : List (Nat × List Byte)) (l : Nat) : List Byte := ((rs.find? (fun r => decide (r.1 = l))).map (·.2)).getD []

/-- Write the loaded words of a lane list to n registers from d on. -/
def Ctx.writeWords (c : Ctx) (s : State) (d n : Nat) (v : Nat → Nat → W32) (ls : List Nat) : State :=
  c.write s (fun x => (List.range n).foldl (fun x i => x.wvs (d + i) (fun l => v l i) ls) x)

/-- The same as intervals of tag S (R103). -/
def Ctx.writeWordIvs (c : Ctx) (s : State) (d n : Nat) (v : Nat → Nat → Iv) (ls : List Nat) : State :=
  (List.range n).foldl (fun s i => c.writeIvs s (d + i) (fun l => v l i) ls) s

/-- The registers that an access of w bytes fills. -/
def wordsOf (w : Nat) : Nat := if w ≤ 4 then 1 else w / 4

/-! ### Vector loads (R199) -/

/-- One lane of a bounds-mode load (R103): TOP for an offset that is not degenerate or meets a soft fault; the lane is abandoned where element
mode would fault hard. -/
inductive LaneLoad where
  | value (bs : List Byte)
  | top
  | fail
  deriving DecidableEq, Repr

/-- The bounds-mode accesses lane by lane; a wait holds the whole word. A soft fault posts its record (R271, log entry 20). -/
def State.boundsLoads (s : State) (c : Ctx) (r : BitVec 5) (w : Nat) (offs : Nat → Option Nat) : List Nat → Except Stop (List (Nat × LaneLoad)) × State
  | [] => (.ok [], s)
  | l :: ls =>
    let one : Except Stop LaneLoad × State :=
      match offs l with
      | none => (.ok .top, s)
      | some o =>
        match s.access c r loadKinds rR .load w [⟨l, o⟩] with
        | (.error (.hard _), s1) => (.ok .fail, s1)
        | (.error (.soft f), s1) => (.ok .top, s1.postSoft c.g.part f)
        | (.error e, s1) => (.error e, s1)
        | (.ok ts, s1) =>
          let (rs, s2) := s1.loadEach (s1.actor c.uid c.g) w ts
          (.ok (.value (bytesOf rs l)), s2)
    match one with
    | (.error e, s1) => (.error e, s1)
    | (.ok v, s1) =>
      match State.boundsLoads s1 c r w offs ls with
      | (.error e, s2) => (.error e, s2)
      | (.ok vs, s2) => (.ok ((l, v) :: vs), s2)

/-- The interval of word i of a lane of a bounds-mode load. -/
def LaneLoad.iv (f : List Byte → Nat) (v : LaneLoad) (i : Nat) : Iv :=
  match v with
  | .value bs => Iv.point .s (loadedWord f bs i)
  | _ => Iv.top .s

/-- The end of a bounds-mode load: the failed lanes are abandoned, the others take their intervals. -/
def boundsLoaded (s : State) (c : Ctx) (d n : Nat) (f : List Byte → Nat) (vs : List (Nat × LaneLoad)) : Res :=
  let failed := maskOf (fun l => vs.any (fun e => decide (e.1 = l) && decide (e.2 = .fail))) 64
  let ok := c.lanes.filter (fun l => !bit failed l)
  let at_ (l : Nat) : LaneLoad := ((vs.find? (fun e => decide (e.1 = l))).map (·.2)).getD .top
  let s1 := c.writeWordIvs s d n (fun l i => (at_ l).iv f i) ok
  if failed = 0 then .done s1 else .aband s1 failed

/-- A vector load of w bytes a lane (R199). -/
def vecLoad (i : Instr) (d a : F7) (r : BitVec 5) (imm : BitVec 6) (w : Nat) (f : List Byte → Nat) (s : State) : Host.Outcome State Fault Refusal :=
  word i s fun s c =>
    if c.g.mode = 1 then
      let off (l : Nat) : Option Nat := if (c.iv a.toNat l).degen then some ((c.iv a.toNat l).lo.toNat + imm.toNat * w) else none
      match s.boundsLoads c r w off c.lanes with
      | (.error e, s1) => Res.ofStop s1 e
      | (.ok vs, s1) => boundsLoaded s1 c d.toNat (wordsOf w) f vs
    else
      match s.access c r loadKinds rR .load w (c.vecAccs a (imm.toNat * w)) with
      | (.error e, s1) => Res.ofStop s1 e
      | (.ok ts, s1) =>
        let (rs, s2) := s1.loadEach (s1.actor c.uid c.g) w ts
        .done (c.writeWords s2 d.toNat (wordsOf w) (fun l i => loadedWord f (bytesOf rs l) i) c.lanes)

/-- The sign-extended value of n bytes, as a 32-bit number. -/
def sextBytes (n : Nat) (bs : List Byte) : Nat := ((BitVec.ofNat (8 * n) (ofBytes bs)).signExtend 32).toNat

/-- R199. -/
def execVldBZ (d a : F7) (c : BitVec 5) (i : BitVec 6) (s : State) : Host.Outcome State Fault Refusal :=
  vecLoad (.vldBZ d a c i) d a c i 1 ofBytes s

/-- R199. -/
def execVldBS (d a : F7) (c : BitVec 5) (i : BitVec 6) (s : State) : Host.Outcome State Fault Refusal :=
  vecLoad (.vldBS d a c i) d a c i 1 (sextBytes 1) s

/-- R199. -/
def execVldHZ (d a : F7) (c : BitVec 5) (i : BitVec 6) (s : State) : Host.Outcome State Fault Refusal :=
  vecLoad (.vldHZ d a c i) d a c i 2 ofBytes s

/-- R199. -/
def execVldHS (d a : F7) (c : BitVec 5) (i : BitVec 6) (s : State) : Host.Outcome State Fault Refusal :=
  vecLoad (.vldHS d a c i) d a c i 2 (sextBytes 2) s

/-- R199. -/
def execVldW (d a : F7) (c : BitVec 5) (i : BitVec 6) (s : State) : Host.Outcome State Fault Refusal :=
  vecLoad (.vldW d a c i) d a c i 4 ofBytes s

/-- R199. -/
def execVldD (d a : F7) (c : BitVec 5) (i : BitVec 6) (s : State) : Host.Outcome State Fault Refusal :=
  vecLoad (.vldD d a c i) d a c i 8 ofBytes s

/-- R199. -/
def execVldQ (d a : F7) (c : BitVec 5) (i : BitVec 6) (s : State) : Host.Outcome State Fault Refusal :=
  vecLoad (.vldQ d a c i) d a c i 16 ofBytes s

/-- R199: one access for the group. -/
def execVldbc (d a : F7) (c : BitVec 5) (i : BitVec 6) (s : State) : Host.Outcome State Fault Refusal :=
  word (.vldbc d a c i) s fun s x =>
    match s.access x c loadKinds rR .load 4 (x.scaAccs a (i.toNat * 4)) with
    | (.error (.soft f), s1) =>
      if x.g.mode = 1 then .done (x.writeIvs (s1.postSoft x.g.part f) d.toNat (fun _ => Iv.top .s) x.lanes) else .soft s1 f
    | (.error e, s1) => Res.ofStop s1 e
    | (.ok ts, s1) =>
      let (rs, s2) := s1.loadEach (s1.actor x.uid x.g) 4 ts
      let v := BitVec.ofNat 32 (ofBytes ((rs.map (·.2)).headD []))
      x.setVec s2 d (fun _ => v) (fun _ => Iv.point .s v)

/-! ### Stores (R200, R201) -/

/-- Perform stores of w bytes at resolved places, or raise HELD_OVERFLOW (R45). -/
def storeAll (s : State) (c : Ctx) (r : BitVec 5) (w : Nat) (f : Nat → List Byte) (ts : List (Acc × Trans)) : Res :=
  match s.storeAt (s.actor c.uid c.g) (c.regs.rc r.toNat) w f ts with
  | none => .hard s (Hard.plain fcHeld)
  | some s1 => .done s1

/-- A store through a capability. -/
def storeWord (s : State) (c : Ctx) (r : BitVec 5) (w : Nat) (f : Nat → List Byte) (accs : List Acc) : Res :=
  match s.access c r storeKinds rW .store w accs with
  | (.error e, s1) => Res.ofStop s1 e
  | (.ok ts, s1) => storeAll s1 c r w f ts

/-- The bytes that lane l stores: the low w bytes of its registers from d on. -/
def Ctx.storeBytes (c : Ctx) (d w l : Nat) : List Byte :=
  ((List.range (wordsOf w)).flatMap (fun i => toBytes 4 (c.regs.rv (d + i) l).toNat)).take w

/-- A vector store of w bytes a lane (R200). -/
def vecStore (i : Instr) (d a : F7) (r : BitVec 5) (imm : BitVec 6) (w : Nat) (s : State) : Host.Outcome State Fault Refusal :=
  word i s fun s c => storeWord s c r w (c.storeBytes d.toNat w) (c.vecAccs a (imm.toNat * w))

/-- R200. -/
def execVstB (d a : F7) (c : BitVec 5) (i : BitVec 6) (s : State) : Host.Outcome State Fault Refusal :=
  vecStore (.vstB d a c i) d a c i 1 s

/-- R200. -/
def execVstH (d a : F7) (c : BitVec 5) (i : BitVec 6) (s : State) : Host.Outcome State Fault Refusal :=
  vecStore (.vstH d a c i) d a c i 2 s

/-- R200. -/
def execVstW (d a : F7) (c : BitVec 5) (i : BitVec 6) (s : State) : Host.Outcome State Fault Refusal :=
  vecStore (.vstW d a c i) d a c i 4 s

/-- R200. -/
def execVstD (d a : F7) (c : BitVec 5) (i : BitVec 6) (s : State) : Host.Outcome State Fault Refusal :=
  vecStore (.vstD d a c i) d a c i 8 s

/-- R200. -/
def execVstQ (d a : F7) (c : BitVec 5) (i : BitVec 6) (s : State) : Host.Outcome State Fault Refusal :=
  vecStore (.vstQ d a c i) d a c i 16 s

/-- A scalar load (R201): performed in every mode; in bounds mode a soft fault abandons the tiles (R103). -/
def scaLoad (i : Instr) (d a : F7) (r : BitVec 5) (imm : BitVec 6) (w : Nat) (f : List Byte → W64) (s : State) : Host.Outcome State Fault Refusal :=
  word i s fun s c =>
    match s.access c r loadKinds rR .load w (c.scaAccs a (imm.toNat * w)) with
    | (.error (.soft e), s1) => if c.g.mode = 1 then .aband (s1.postSoft c.g.part e) c.mask else .soft s1 e
    | (.error e, s1) => Res.ofStop s1 e
    | (.ok ts, s1) =>
      let (rs, s2) := s1.loadEach (s1.actor c.uid c.g) w ts
      .done (c.write s2 (fun x => x.ws d.toNat (f ((rs.map (·.2)).headD []))))

/-- R201. -/
def execSldD (d a : F7) (c : BitVec 5) (i : BitVec 6) (s : State) : Host.Outcome State Fault Refusal :=
  scaLoad (.sldD d a c i) d a c i 8 (fun bs => BitVec.ofNat 64 (ofBytes bs)) s

/-- R201. -/
def execSldWS (d a : F7) (c : BitVec 5) (i : BitVec 6) (s : State) : Host.Outcome State Fault Refusal :=
  scaLoad (.sldWS d a c i) d a c i 4 (fun bs => (BitVec.ofNat 32 (ofBytes bs)).signExtend 64) s

/-- R201. -/
def execSldWZ (d a : F7) (c : BitVec 5) (i : BitVec 6) (s : State) : Host.Outcome State Fault Refusal :=
  scaLoad (.sldWZ d a c i) d a c i 4 (fun bs => BitVec.ofNat 64 (ofBytes bs)) s

/-- R201. -/
def execSstD (d a : F7) (c : BitVec 5) (i : BitVec 6) (s : State) : Host.Outcome State Fault Refusal :=
  word (.sstD d a c i) s fun s x => storeWord s x c 8 (fun _ => toBytes 8 (x.regs.rs d.toNat).toNat) (x.scaAccs a (i.toNat * 8))

/-- R201. -/
def execSstW (d a : F7) (c : BitVec 5) (i : BitVec 6) (s : State) : Host.Outcome State Fault Refusal :=
  word (.sstW d a c i) s fun s x => storeWord s x c 4 (fun _ => toBytes 4 (x.regs.rs d.toNat).toNat) (x.scaAccs a (i.toNat * 4))

/-! ### Capabilities in memory (R202) -/

/-- The kinds that `cld` and `cst` accept (R63). -/
def capKinds : List Nat := [kMem, kTeam]

/-- R202: the 16 bytes and the granule's tag as one access; in bounds mode a soft fault abandons (R103). -/
def execCld (d a : F7) (c : BitVec 5) (i : BitVec 6) (s : State) : Host.Outcome State Fault Refusal :=
  word (.cld d a c i) s fun s x =>
    match s.access x c capKinds (rR + rL) .cld 16 (x.scaAccs a (i.toNat * 16)) with
    | (.error (.soft e), s1) => if x.g.mode = 1 then .aband (s1.postSoft x.g.part e) x.mask else .soft s1 e
    | (.error e, s1) => Res.ofStop s1 e
    | (.ok ts, s1) =>
      match ts with
      | [] => .done s1
      | (_, t) :: _ =>
        let me := s1.actor x.uid x.g
        let tag := s1.loadTag me t
        let (bs, s2) := s1.loadAcc me 16 t
        .done (x.write s2 (fun y => y.wc d.toNat ⟨BitVec.ofNat 128 (ofBytes bs), tag⟩))

/-- R202. -/
def execCst (d a : F7) (c : BitVec 5) (i : BitVec 6) (s : State) : Host.Outcome State Fault Refusal :=
  word (.cst d a c i) s fun s x =>
    match s.access x c capKinds (rW + rS) .cst 16 (x.scaAccs a (i.toNat * 16)) with
    | (.error e, s1) => Res.ofStop s1 e
    | (.ok ts, s1) =>
      match ts with
      | [] => .done s1
      | (_, t) :: _ =>
        let me := s1.actor x.uid x.g
        let places := (List.range 16).map (fun n => (t.loc.add n, t.slot))
        if me.held && s1.heldFull me places then .hard s1 (Hard.plain fcHeld)
        else .done ((s1.storeCap me t (x.regs.rc d.toNat)).queueHook s1 (if me.held then [] else t.loc.addrs 16))

end Sys2Proof.Machine
end

