-- ==== Sys2Proof/Machine/Atomics.lean ====
section
/-! DEFINITION. Class 0xB, atomics (spec/12_ref_memory_sync_transfer.md R203 to R205; spec/23_program_host_counter.md R332, R333), with the steps
that answer an atomic of a HOSTIO capability. -/

namespace Sys2Proof.Machine

/-! ### Read-modify-write -/

/-- The new value of a word: from the lane, the word's old value m. -/
abbrev Rmw := Nat → Nat → Nat

/-- The kinds that atomics accept: those of R203, whose HOSTIO atomics R204 describes (log entry 21). -/
def atomKinds : List Nat := [kMem, kTeam, kHostio]

/-- One read-modify-write of a place. -/
def State.rmw (s : State) (x : Actor) (w : Nat) (f : Nat → Nat) (t : Trans) : Nat × State :=
  let s0 := s.hotness x.obs.dom (dieReq x.obs.core) true t.loc
  let (bs, s1) := s0.fetchBytes x t.slot t.loc w
  let m := ofBytes bs
  (m, (s1.writeBytesAt t.slot t.loc (toBytes w (f m))).queueHook s1 (t.loc.addrs w))

/-- The accesses of an atomic in ascending lane order; the old values by lane. -/
def State.rmwEach (s : State) (x : Actor) (w : Nat) (f : Rmw) : List (Acc × Trans) → List (Nat × Nat) × State
  | [] => ([], s)
  | (a, t) :: as =>
    let (m, s1) := s.rmw x w (f a.lane) t
    let (rs, s2) := State.rmwEach s1 x w f as
    ((a.lane, m) :: rs, s2)

/-- The accesses of an atomic as one block of T (R130). -/
def State.rmwAll (s : State) (x : Actor) (w : Nat) (f : Rmw) (ts : List (Acc × Trans)) : List (Nat × Nat) × State :=
  let (rs, s1) := s.rmwEach x w f ts
  (rs, s1.versionsAll (ts.map (·.2.loc)))

/-- The old value that lane l received. -/
def oldOf (rs : List (Nat × Nat)) (l : Nat) : Nat := ((rs.find? (fun r => decide (r.1 = l))).map (·.2)).getD 0

/-! ### Atomics at the host (R204, R332, R333) -/

/-- The AtomicOp of R204, as the key of the connection's record: FetchAdd 32 and 64, Swap 32, CAS 32 and 64. -/
def atomPair : Instr → Option Nat
  | .aadd _ _ _ _ => some 0
  | .saadd _ _ _ _ => some 1
  | .axchg _ _ _ _ => some 2
  | .acas _ _ _ _ => some 3
  | .sacas _ _ _ _ => some 4
  | _ => none

/-- The record's values (R332). -/
def recUnknown : Nat := 0
def recAccepted : Nat := 1
def recRefused : Nat := 2

/-- The record of the pair on the partition's connection; an atomic without an AtomicOp is handled as REFUSED. -/
def State.atomRec (s : State) (p : Nat) : Option Nat → Nat
  | none => recRefused
  | some k => match s.part? p with
    | none => recUnknown
    | some x => Tab.get 0 x.atomrec k

/-- Is a lone request of the pair outstanding on the partition's connection? -/
def State.loneOut (s : State) (p : Nat) (k : Option Nat) : Bool :=
  s.groups.any (fun e => decide (e.2.part = p) && (match e.2.host with
    | none => false
    | some r => r.lone && decide (r.pair = k)))

/-- Is the fallback mode SERVICE? S and H teams run as if ATOMMODE held FAULT (R240). -/
def State.atomService (s : State) (g : Group) : Bool :=
  decide (g.level = .u) && (match s.context? g.part with
    | none => false
    | some c => c.atommode.getLsbD 0)

/-- The lanes of a request that are neither performed nor refused. -/
def HostReq.left (r : HostReq) (done : W64) : List Nat := (r.accs.map (·.1)).filter (fun l => !bit done l && !bit r.refused l)

/-- A refusal under SERVICE: the unperformed lanes' request goes over Pewter, and the lanes park; those of a replayed entry have gone on. -/
def State.goService (s : State) (uid : Nat) (r : HostReq) : State :=
  s.onGroup uid (fun g =>
    let g1 : Group := { g with host := some { r with service := true, lone := false, refused := 0 }, memHold := if r.replay then g.memHold else some r.pc }
    if r.replay then g1 else g1.onLanes r.mask (fun _ x => { x with state := .park, park := .service, pc := r.pc }))

/-- The fault of a refusal under FAULT: EXTRA holds the mask of the word's performed lanes (R205). -/
def atomFault (g : Group) (mask : W64) : Hard := { Hard.plain fcAtomic with extra := g.atomDone &&& mask }

/-- An atomic through a HOSTIO capability (R204): it sends a lone request, or every lane's, or is refused at once; meanwhile its word waits. -/
def hostAtomic (i : Instr) (s : State) (c : Ctx) (ts : List (Acc × Trans)) : Res :=
  match c.g.host with
  | some _ => .wait s
  | none =>
    let k := atomPair i
    let r : HostReq := ⟨i, c.pc, c.mask, c.regs, c.rm, c.replay, k, false, false, 0, (ts.head?.map (·.2.slot)).getD 0, ts.map (fun e => (e.1.lane, e.2.loc))⟩
    let send (lone : Bool) : Res := .wait (s.onGroup c.uid (fun g => { g with host := some { r with lone := lone } }))
    if s.loneOut c.g.part k then .wait s
    else if s.atomRec c.g.part k = recRefused then
      if s.atomService c.g then .wait (s.goService c.uid r) else .hard s (atomFault c.g c.mask)
    else send (decide (s.atomRec c.g.part k = recUnknown))

/-! ### The instructions -/

/-- An atomic through `[cN, …]`: the checks, then the block of T, the connection, or HELD_OVERFLOW (R45). -/
def atomicWord (i : Instr) (s : State) (c : Ctx) (r : BitVec 5) (w : Nat) (f : Rmw) (accs : List Acc) (fin : State → List (Nat × Nat) → State) : Res :=
  match s.access c r atomKinds (rR + rW + rA) .atomic w accs with
  | (.error e, s1) => Res.ofStop s1 e
  | (.ok ts, s1) =>
    let x := s1.actor c.uid c.g
    if x.held then .hard s1 (Hard.plain fcHeld)
    else if (c.regs.rc r.toNat).kind = kHostio then hostAtomic i s1 c ts
    else
      let (rs, s2) := s1.rmwAll x w f ts
      .done (fin s2 rs)

/-- The new value as 32-bit words. -/
def rmw32 (f : W32 → W32 → W32) (m x : Nat) : Nat := (f (BitVec.ofNat 32 m) (BitVec.ofNat 32 x)).toNat

/-- The new value that each atomic's lane writes, by R203's table; `c` gives its operands. -/
def Ctx.rmwOf (c : Ctx) : Instr → Rmw
  | .aadd _ _ _ b => fun l m => rmw32 (· + ·) m (c.regs.rv b.toNat l).toNat
  | .aminS _ _ _ b => fun l m => rmw32 (fun m x => if m.toInt ≤ x.toInt then m else x) m (c.regs.rv b.toNat l).toNat
  | .amaxS _ _ _ b => fun l m => rmw32 (fun m x => if x.toInt ≤ m.toInt then m else x) m (c.regs.rv b.toNat l).toNat
  | .aminZ _ _ _ b => fun l m => rmw32 (fun m x => if m.toNat ≤ x.toNat then m else x) m (c.regs.rv b.toNat l).toNat
  | .amaxZ _ _ _ b => fun l m => rmw32 (fun m x => if x.toNat ≤ m.toNat then m else x) m (c.regs.rv b.toNat l).toNat
  | .aand _ _ _ b => fun l m => rmw32 (· &&& ·) m (c.regs.rv b.toNat l).toNat
  | .aor _ _ _ b => fun l m => rmw32 (· ||| ·) m (c.regs.rv b.toNat l).toNat
  | .axor _ _ _ b => fun l m => rmw32 (· ^^^ ·) m (c.regs.rv b.toNat l).toNat
  | .axchg _ _ _ b => fun l _ => (c.regs.rv b.toNat l).toNat
  | .acas d _ _ b => fun l m => if m = (c.regs.rv d.toNat l).toNat then (c.regs.rv b.toNat l).toNat else m
  | .afadd _ _ _ b => fun l m => rmw32 (f32add rmRne) m (c.regs.rv b.toNat l).toNat
  | .saadd _ _ _ b => fun _ m => (BitVec.ofNat 64 m + c.regs.rs b.toNat).toNat
  | .sacas d _ _ b => fun _ m => if m = (c.regs.rs d.toNat).toNat then (c.regs.rs b.toNat).toNat else m
  | _ => fun _ m => m

/-- Write the old values of some lanes to the destination. -/
def Ctx.writeOld (c : Ctx) (s : State) (scalar : Bool) (d : Nat) (rs : List (Nat × Nat)) : State :=
  if scalar then match rs with
    | [] => s
    | (_, m) :: _ => c.write s (fun x => x.ws d (BitVec.ofNat 64 m))
  else c.write s (fun x => x.wvs d (fun l => BitVec.ofNat 32 (oldOf rs l)) (rs.map (·.1)))

/-- A vector atomic (R203, f 0 to 10). -/
def vecAtomic (i : Instr) (d a : F7) (r : BitVec 5) (s : State) : Host.Outcome State Fault Refusal :=
  word i s fun s c => atomicWord i s c r 4 (c.rmwOf i) (c.vecAccs a 0) (fun s rs => c.writeOld s false d.toNat rs)

/-- A scalar atomic (R203, f 11 and 12). -/
def scaAtomic (i : Instr) (d a : F7) (r : BitVec 5) (s : State) : Host.Outcome State Fault Refusal :=
  word i s fun s c => atomicWord i s c r 8 (c.rmwOf i) (c.scaAccs a 0) (fun s rs => c.writeOld s true d.toNat rs)

/-- R203. -/
def execAadd (d a : F7) (c b : BitVec 5) (s : State) : Host.Outcome State Fault Refusal :=
  vecAtomic (.aadd d a c b) d a c s

/-- R203. -/
def execAminS (d a : F7) (c b : BitVec 5) (s : State) : Host.Outcome State Fault Refusal :=
  vecAtomic (.aminS d a c b) d a c s

/-- R203. -/
def execAmaxS (d a : F7) (c b : BitVec 5) (s : State) : Host.Outcome State Fault Refusal :=
  vecAtomic (.amaxS d a c b) d a c s

/-- R203. -/
def execAminZ (d a : F7) (c b : BitVec 5) (s : State) : Host.Outcome State Fault Refusal :=
  vecAtomic (.aminZ d a c b) d a c s

/-- R203. -/
def execAmaxZ (d a : F7) (c b : BitVec 5) (s : State) : Host.Outcome State Fault Refusal :=
  vecAtomic (.amaxZ d a c b) d a c s

/-- R203. -/
def execAand (d a : F7) (c b : BitVec 5) (s : State) : Host.Outcome State Fault Refusal :=
  vecAtomic (.aand d a c b) d a c s

/-- R203. -/
def execAor (d a : F7) (c b : BitVec 5) (s : State) : Host.Outcome State Fault Refusal :=
  vecAtomic (.aor d a c b) d a c s

/-- R203. -/
def execAxor (d a : F7) (c b : BitVec 5) (s : State) : Host.Outcome State Fault Refusal :=
  vecAtomic (.axor d a c b) d a c s

/-- R203. -/
def execAxchg (d a : F7) (c b : BitVec 5) (s : State) : Host.Outcome State Fault Refusal :=
  vecAtomic (.axchg d a c b) d a c s

/-- R203. -/
def execAcas (d a : F7) (c b : BitVec 5) (s : State) : Host.Outcome State Fault Refusal :=
  vecAtomic (.acas d a c b) d a c s

/-- R203. -/
def execAfadd (d a : F7) (c b : BitVec 5) (s : State) : Host.Outcome State Fault Refusal :=
  vecAtomic (.afadd d a c b) d a c s

/-- R203. -/
def execSaadd (d a : F7) (c b : BitVec 5) (s : State) : Host.Outcome State Fault Refusal :=
  scaAtomic (.saadd d a c b) d a c s

/-- R203. -/
def execSacas (d a : F7) (c b : BitVec 5) (s : State) : Host.Outcome State Fault Refusal :=
  scaAtomic (.sacas d a c b) d a c s

/-! ### The answers of the host -/

/-- The destination of an atomic: is it scalar, and its number. -/
def atomDest : Instr → Bool × Nat
  | .saadd d _ _ _ => (true, d.toNat)
  | .sacas d _ _ _ => (true, d.toNat)
  | .aadd d _ _ _ => (false, d.toNat)
  | .aminS d _ _ _ => (false, d.toNat)
  | .amaxS d _ _ _ => (false, d.toNat)
  | .aminZ d _ _ _ => (false, d.toNat)
  | .amaxZ d _ _ _ => (false, d.toNat)
  | .aand d _ _ _ => (false, d.toNat)
  | .aor d _ _ _ => (false, d.toNat)
  | .axor d _ _ _ => (false, d.toNat)
  | .axchg d _ _ _ => (false, d.toNat)
  | .acas d _ _ _ => (false, d.toNat)
  | .afadd d _ _ _ => (false, d.toNat)
  | _ => (false, 0)

/-- The word of a request, as its meaning saw it. -/
def HostReq.ctx (r : HostReq) (uid : Nat) (g : Group) : Ctx := ⟨uid, r.word, g, r.pc, r.mask, r.regs, r.rm, r.replay⟩

/-- Perform one lane of a request at the host, behind the group's earlier writes on the connection (R136), and write its old value. -/
def State.hostLane (s : State) (uid : Nat) (g : Group) (r : HostReq) (l : Nat) : State :=
  match r.accs.find? (fun e => decide (e.1 = l)) with
  | none => s
  | some (_, p) =>
    let c := r.ctx uid g
    let (sc, d) := atomDest r.word
    let w := if sc then 8 else 4
    let (bs, s1) := (s.landFor (ownBehind g.part uid p)).readBytes (s.actor uid g).obs r.slot p w
    let m := ofBytes bs
    let s2 := s1.writeBytes r.slot p (toBytes w (c.rmwOf r.word l m))
    (c.writeOld s2 sc d [(l, m)]).onGroup uid (fun g => { g with atomDone := g.atomDone ||| oneBit l })

/-- Perform the lanes of a list, ascending. -/
def State.hostLanes (s : State) (uid : Nat) (r : HostReq) : List Nat → State
  | [] => s
  | l :: ls =>
    match s.group? uid with
    | none => s
    | some g => State.hostLanes (s.hostLane uid g r l) uid r ls

/-- Every lane is performed: the instruction retires. -/
def hostDone (s : State) (uid : Nat) (r : HostReq) : Host.Outcome State Fault Refusal :=
  let s1 := s.onGroup uid (fun g => { g with host := none, atomDone := g.atomDone &&& ~~~r.mask })
  match s1.group? uid with
  | none => .next s1
  | some g =>
    let s2 := if r.service && !r.replay then s1.onGroup uid (fun g => g.onLanes r.mask (fun _ x => { x with state := .run, park := .no })) else s1
    let c := r.ctx uid g
    let late := if r.replay then c.late (shape r.word) else []
    finish (shape r.word) c late ((Res.done s2).undefine c late)

/-- A refusal has been answered for every lane: by ATOMMODE as it stands now (R240). A group that another word's fault has stopped meets this one when it runs
again (R308). -/
def hostRefused (s : State) (uid : Nat) (r : HostReq) : Host.Outcome State Fault Refusal :=
  match s.group? uid with
  | none => .next s
  | some g =>
    if s.atomService g then .next (s.goService uid r)
    else
      let s1 := s.onGroup uid (fun g => { g with host := none })
      if g.fault.isSome then .next (s1.onGroup uid (fun g => { g with memHold := none }))
      else failWord s1 (r.ctx uid g) (shape r.word) (atomFault g r.mask)

/-- ATOMICOP_COMPLETION (R332): the host answers the group's next outstanding request, with success or with UR or CA. None comes once the secure state has
ended (R321). -/
def execAtomicopCompletion (group : Nat) (ok : Bool) (s : State) : Host.Outcome State Fault Refusal :=
  match s.group? group with
  | none => .next s
  | some g =>
    match g.host with
    | none => .next s
    | some r =>
      if r.service || s.hostCut g.part then .next s
      else
        match r.left g.atomDone with
        | [] => .next s
        | l :: _ =>
          if s.stuck (fun q => r.accs.any (fun e => ownBehind g.part group e.2 q)) then .next s
          else
          let note (v : Nat) (s : State) : State := match r.pair with
            | none => s
            | some k => if r.lone then s.onPart g.part (fun x => { x with atomrec := Tab.set 0 x.atomrec k v }) else s
          let r' : HostReq := { r with lone := false, refused := if ok then r.refused else r.refused ||| oneBit l }
          let s1 := if ok then note recAccepted (s.hostLane group g r l) else note recRefused s
          let s2 := s1.onGroup group (fun g => { g with host := some r' })
          if r.lone && !ok then hostRefused s2 group r'
          else
            match s2.group? group with
            | none => .next s2
            | some g2 =>
              if !(r'.left g2.atomDone).isEmpty then .next s2
              else if r'.refused = 0 then hostDone s2 group r'
              else hostRefused s2 group r'

/-- SERVICE_REPLY (R333): the host agent has performed the unperformed lanes in ascending order, behind the group's earlier writes on the connection (R136). A stopped
context receives it at resume. -/
def execServiceReply (group : Nat) (s : State) : Host.Outcome State Fault Refusal :=
  match s.group? group with
  | none => .next s
  | some g =>
    match g.host with
    | none => .next s
    | some r =>
      if !r.service || !((s.context? g.part).map (fun c => decide (c.state = .running))).getD false ||
        s.stuck (fun q => r.accs.any (fun e => ownBehind g.part group e.2 q)) then .next s
      else hostDone (s.hostLanes group r (r.left g.atomDone)) group r

end Sys2Proof.Machine
end

