-- ==== Sys2Proof/Machine/Octets.lean ====
section
/-! DEFINITION. Fetching octets (spec/04_memory_capabilities_tensors.md R77, R78; spec/17_translation_and_migration.md R275; spec/09_encoding_and_assembly.md
R138, R139): the checks of a fetch, the bytes that it finds, and the octets that a group holds. -/

namespace Sys2Proof.Machine

/-- What a fetch of an octet gives: the octet, a hard fault, nothing yet (an absent or a migrating page stalls the group; a revocation under way holds the
fetch), or an address that does not exist. -/
inductive OctetAt where
  | held (o : Octet)
  | hard (h : Hard)
  | stall
  | later
  | beyond (addr : Nat)
  deriving DecidableEq, Repr

/-- n bytes from a place as an observer's fetch finds them: with the engine writes that are not published to it, or without (R133). -/
def State.codeBytes (s : State) (o : Obs) (new : Bool) (l : Loc) : Nat → List Byte × State
  | 0 => ([], s)
  | n + 1 =>
    let us := s.unpubAt l
    let may := mayRead o (s.rawByte l) us
    let (b, s1) : Byte × State := match us.find? (fun u => u.undefinedTo us o) with
      | some u => s.freeByte (s.dom u.part)
      | none => (if new then may.getLast?.getD 0 else may.headD 0, s)
    let (bs, s2) := State.codeBytes s1 o new (l.add 1) n
    (b :: bs, s2)

/-- The 32 bytes at a place as a fetch under key slot k finds them now, from one version of them (R77). -/
def State.codeNow (s : State) (o : Obs) (k : Nat) (l : Loc) : List Byte × State :=
  if !s.readable k l then (List.replicate 32 0, s)
  else if s.unpub.any (fun u => (List.range 32).any (fun i => decide (u.loc = l.add i))) then
    let (f, s1) := s.fresh o.dom
    s1.codeBytes o (f.getLsbD 0) l 32
  else s.codeBytes o false l 32

/-- Choose among the versions of an octet that a core may fetch (R77). -/
def State.chooseOctet (s : State) (d : Nat) (now : List Byte) : List ILine → List Byte × State
  | [] => (now, s)
  | l :: ls =>
    if l.bytes = now then State.chooseOctet s d now ls
    else
      let (f, s') := s.fresh d
      if f.getLsbD 0 then (l.bytes, s') else State.chooseOctet s' d now ls

/-- The 32 bytes of an octet as a core fetches them for an observer, and its instruction cache after. -/
def State.fetchOctet (s : State) (o : Obs) (t : Trans) : List Byte × State :=
  let (now, s1) := s.codeNow o t.slot t.loc
  match t.loc with
  | .dev a =>
    let (bs, s2) := s1.chooseOctet o.dom now (s1.icache.filter (fun l => decide (l.core = o.core ∧ l.addr = a)))
    let line : ILine := ⟨o.core, a, bs⟩
    (bs, if s2.icache.contains line then s2 else { s2 with icache := s2.icache ++ [line] })
  | _ => (now, s1)

/-- R62, R139, R275: the checks of `c29` for an octet: its tag, its kind, right X, its window. -/
def fetchCheck (c : Cap) (o : Nat) : Option Hard :=
  let h (cause : Nat) : Hard := ⟨cause, none, c.obj, o, 0⟩
  if !c.tag then some (h fcTag)
  else if c.kind ≠ kCode then some (h fcRights)
  else if !c.has rX then some (h fcExec)
  else if o < c.base ∨ c.base + c.length < o + 32 then some (h fcBounds)
  else none

/-- R275, R266, R261: the fetch of the octet at offset o of the code object, the checks of `c29` made. -/
def State.fetchAt (s : State) (uid : Nat) (g : Group) (o : Nat) : OctetAt × State :=
  let c := g.regs.rc 29
  let x := s.actor uid g
  let (r, s1) := s.translate x.obs.dom (g.core / 8) g.part x.tb kCode c.obj o 32
  match r with
  | .object n => (.hard ⟨fcObject, none, c.obj, o, BitVec.ofNat 64 n⟩, s1)
  | .page st a => (.stall, s1.postSoft g.part ⟨decide (st = 2), false, true, c.obj, if st = 2 then a else o / s.pageOf x c.obj * s.pageOf x c.obj, false⟩)
  | .migrating => (.stall, s1)
  | .beyond m => (.beyond m, s1)
  | .at t =>
    if s1.keyHeld g.part t.slot then (.later, s1)
    else if s1.keyBad g.part t.slot then (.hard ⟨fcKey, none, c.obj, o, 0⟩, s1)
    else if s1.marked t.loc 32 then (.hard ⟨fcUncorr, none, c.obj, o, 0⟩, s1)
    else
      let (bs, s2) := s1.fetchOctet x.obs t
      (.held ⟨c.obj, o, bs, t.exec && t.xbit⟩, s2)

/-- The octet that a group holds at an offset of its code object. -/
def Group.octetOf (g : Group) (o : Nat) : Option Octet := g.octets.find? (fun h => decide (h.obj = (g.regs.rc 29).obj ∧ h.addr = o))

/-- R275: the octet from which a group issues, and with it the next one, where the group has fetched that. -/
def Group.holdOctet (g : Group) (h : Octet) : Group :=
  { g with octets := h :: (g.octets.filter (fun x => decide (x.obj = h.obj ∧ x.addr = h.addr + 32))).take 1 }

/-- R78, R275: lanes that a word at `pc` sends anywhere but onward in its octet or to next(p) find nothing fetched before there. -/
def Group.dropJumped (g : Group) (pc : Pc) (m : W64) : Group :=
  let jumped (x : Lane) : Bool := decide (x.state = .run ∧ x.pc ≠ nextPc pc ∧ ¬ (x.pc.toNat / 32 = pc.toNat / 32 ∧ pc.toNat < x.pc.toNat))
  let ts := ((lanesOf m 64).map g.lane).filter jumped
  { g with octets := g.octets.filter (fun h => !ts.any (fun x => decide (x.pc.toNat / 32 * 32 = h.addr))) }

/-- R275: has a group fetched the octet after its current one already? A free choice; its bytes and its permission are those of now. -/
def State.prefetch (s : State) (uid : Nat) : State :=
  match s.group? uid with
  | none => s
  | some g =>
    match g.octets with
    | [] => s
    | h :: _ =>
      if g.octets.any (fun x => decide (x.obj = h.obj ∧ x.addr = h.addr + 32)) ∨ (fetchCheck (g.regs.rc 29) (h.addr + 32)).isSome ∨ h.obj ≠ (g.regs.rc 29).obj then s
      else
        let (f, s1) := s.fresh (s.domOf g)
        if f.getLsbD 0 then
          match s1.fetchAt uid g (h.addr + 32) with
          | (.held n, s2) => s2.onGroup uid (fun g => { g with octets := [h, n] })
          | _ => s1
        else s1

/-- The same for every group with a property, before the instruction caches that serve it change. -/
def State.prefetchAll (s : State) (hit : Group → Bool) : State :=
  (s.groups.filter (fun e => hit e.2)).foldl (fun s e => s.prefetch e.1) s

end Sys2Proof.Machine
end

