-- ==== Sys2Proof/Machine/Sync.lean ====
section
/-! DEFINITION. Class 0xC, synchronisation: team barrier objects (spec/12_ref_memory_sync_transfer.md R207, R208), channels (R212,
spec/07_claims_and_flows.md R124), timed waits and service calls (R213, R125), instruction-cache invalidation (R78), with the steps that end
their waits: timeouts, watchdogs, expiry, replies (R211, R213, R125). -/

namespace Sys2Proof.Machine

/-! ### Team barrier objects (R207, R208) -/

/-- The place of the object at a team-memory offset, or the fault of R67: an 8-byte access through the team's allocation. -/
def tbPlace (s : State) (c : Ctx) (o : Nat) : Except Hard Loc :=
  let x := s.actor c.uid c.g
  let h (cause : Nat) : Hard := ⟨cause, lowestLane c.mask, 0, o, 0⟩
  if x.tm < o + 8 then .error (h fcBounds)
  else if o % 8 ≠ 0 then .error (h fcAlign)
  else .ok (.team x.team o)

/-- The object's value as the group loads it. -/
def tbLoad (s : State) (c : Ctx) (l : Loc) : W64 × State :=
  let (bs, s1) := s.fetchBytes (s.actor c.uid c.g) 0 l 8
  (BitVec.ofNat 64 (ofBytes bs), s1)

/-- A store of the object. -/
def tbStore (s : State) (l : Loc) (v : W64) : State := s.writeBytes 0 l (toBytes 8 v.toNat)

/-- An object from EXPECTED, PHASE and PENDING (R207); bit 63 stands as it was. -/
def tbWord (old : W64) (expected : Nat) (phase : Bool) (pending : Nat) : W64 :=
  BitVec.ofNat 64 (field old 63 1 * 2 ^ 63 + expected % 2 ^ 31 * 2 ^ 32 + (if phase then 2 ^ 31 else 0) + pending % 2 ^ 31)

/-- R208. -/
def execTbinit (a b : F7) (s : State) : Host.Outcome State Fault Refusal :=
  word (.tbinit a b) s fun s c =>
    let n := (c.regs.rs b.toNat).toNat
    match tbPlace s c (c.regs.rs a.toNat).toNat with
    | .error h => .hard s h
    | .ok l => if n = 0 ∨ 2 ^ 31 ≤ n then .hard s (Hard.plain fcIllOp) else .done (tbStore s l (tbWord 0 n false n))

/-- R208: one atomic on the object. -/
def execTbarrive (d a b : F7) (s : State) : Host.Outcome State Fault Refusal :=
  word (.tbarrive d a b) s fun s c =>
    let n := (c.regs.rs b.toNat).toNat
    match tbPlace s c (c.regs.rs a.toNat).toNat with
    | .error h => .hard s h
    | .ok l =>
      let (v, s1) := tbLoad s c l
      let pending := field v 0 31
      if n = 0 ∨ pending < n then .hard s1 (Hard.plain fcIllOp)
      else
        let v' := if pending = n then tbWord v (field v 32 31) (!v.getLsbD 31) (field v 32 31)
                  else tbWord v (field v 32 31) (v.getLsbD 31) (pending - n)
        .done (c.write (tbStore s1 l v') (fun x => x.ws d.toNat (if v.getLsbD 31 then 1 else 0)))

/-- R208: with the phase unchanged, the lanes stay at the word, in RUN. -/
def execTbwait (a b : F7) (s : State) : Host.Outcome State Fault Refusal :=
  word (.tbwait a b) s fun s c =>
    match tbPlace s c (c.regs.rs a.toNat).toNat with
    | .error h => .hard s h
    | .ok l =>
      let (v, s1) := tbLoad s c l
      let p := if v.getLsbD 31 ≠ (c.regs.rs b.toNat).getLsbD 0 then nextPc c.pc else c.pc
      .moved (s1.onGroup c.uid (fun g => g.onLanes c.mask (fun _ x => { x with state := .run, pc := p })))

/-- R208. -/
def execTbtest (d a b : F7) (s : State) : Host.Outcome State Fault Refusal :=
  word (.tbtest d a b) s fun s c =>
    match tbPlace s c (c.regs.rs a.toNat).toNat with
    | .error h => .hard s h
    | .ok l =>
      let (v, s1) := tbLoad s c l
      .done (c.write s1 (fun x => x.ws d.toNat (ones (decide (v.getLsbD 31 ≠ (c.regs.rs b.toNat).getLsbD 0)))))

/-! ### Channels (R124, R212) -/

/-- The channel number of a Q operand. -/
def chanNo (q : F7) : Nat := q.toNat - 64

/-- The channel of the group's launch, if declared. -/
def State.chan (s : State) (g : Group) (q : Nat) : Option Chan := (s.launch? g.launch).bind (fun l => Tab.find l.chans q)

/-- Change a channel. -/
def State.onChan (s : State) (launch q : Nat) (f : Chan → Chan) : State :=
  s.onLaunch launch (fun l => { l with chans := Tab.modify l.chans q f })

/-- Has every team of that TEAMID in the launch retired? -/
def State.teamGone (s : State) (launch tid : Nat) : Bool :=
  s.teams.any (fun e => decide (e.2.launch = launch ∧ e.2.tid = tid) && e.2.retired)

/-- The slot that a `send` fills: the executing lanes' values, 0 elsewhere. -/
def Ctx.slotOf (c : Ctx) (a : F7) : List W32 := (List.range 64).map (fun l => if c.runs l then c.regs.rv a.toNat l else 0)

/-- Park lanes at the word. -/
def Ctx.park (c : Ctx) (s : State) (w : Park) (since : Nat) : State :=
  s.onGroup c.uid (fun g => g.onLanes c.mask (fun _ x => { x with state := .park, park := w, pc := c.pc, since := since }))

/-- A parked `recv` takes a slot: its lanes go on with the value, and the register waits no longer. -/
def State.deliver (s : State) (w : ChanWait) (v : List W32) : State :=
  s.onGroup w.group (fun g =>
    let ls := lanesOf w.mask g.width
    let g1 : Group := { g with regs := { ({ g.regs with wb := 0 } : Regs).wvs w.vd (fun l => v.getD l 0) ls with wb := g.regs.wb },
                               pend := g.pend.filter (fun p => !decide (p.reg = .v w.vd ∧ p.why = .reply)) }
    g1.onLanes w.mask (fun _ x => if x.state = .park then x.resume else x))

/-- Does the team of that TEAMID stand on another device (R291)? -/
def State.teamAway (s : State) (launch tid : Nat) : Bool := ((s.launch? launch).map (fun l => !l.holds tid)).getD false

/-- A message that another device has sent fills a slot of a channel, or goes to its first parked `recv`. -/
def State.chanTakes (s : State) (launch q : Nat) (v : List W32) : State :=
  match (s.launch? launch).bind (fun l => Tab.find l.chans q) with
  | none => s
  | some ch =>
    match ch.takers with
    | w :: ws => (s.onChan launch q (fun ch => { ch with takers := ws })).deliver w v
    | [] => if ch.fifo.length < ch.slots then s.onChan launch q (fun ch => { ch with fifo := ch.fifo ++ [v] }) else s

/-- R212. A slot of another device is free or not as that device has it: a free choice (R291, log entry 79). -/
def execSend (d a : F7) (s : State) : Host.Outcome State Fault Refusal :=
  word (.send d a) s fun s c =>
    let q := chanNo d
    match s.chan c.g q with
    | none => .hard s (Hard.plain fcIllOp)
    | some ch =>
      if ch.src ≠ s.tidOf c.g then .hard s (Hard.plain fcIllOp)
      else if s.heldMode c.g.launch && decide (ch.dst ≠ s.tidOf c.g) then .hard s (Hard.plain fcHeld)
      else if s.teamGone c.g.launch ch.dst then .done s
      else
        let v := c.slotOf a
        let wait (s : State) : Res :=
          .moved (c.park (s.onChan c.g.launch q (fun ch => { ch with senders := ch.senders ++ [⟨c.uid, c.mask, 0, v⟩] })) (.send q) (s.watchOf c.g))
        if s.teamAway c.g.launch ch.dst then
          let (f, s1) := s.fresh (s.domOf c.g)
          if ch.senders.isEmpty && f.getLsbD 0 then .done s1 else wait s1
        else
        match ch.takers with
        | w :: ws => .done ((s.onChan c.g.launch q (fun ch => { ch with takers := ws })).deliver w v)
        | [] =>
          if ch.fifo.length < ch.slots then .done (s.onChan c.g.launch q (fun ch => { ch with fifo := ch.fifo ++ [v] }))
          else wait s

/-- R212: a slot taken lets the first parked `send` fill one. -/
def execRecv (d a : F7) (s : State) : Host.Outcome State Fault Refusal :=
  word (.recv d a) s fun s c =>
    let q := chanNo a
    match s.chan c.g q with
    | none => .hard s (Hard.plain fcIllOp)
    | some ch =>
      if ch.dst ≠ s.tidOf c.g then .hard s (Hard.plain fcIllOp)
      else
        let s1 := s.onTeam c.g.team (fun t => { t with tookRecv := true })
        match ch.fifo with
        | v :: vs =>
          let s2 := c.write s1 (fun x => x.wvs d.toNat (fun l => v.getD l 0) c.lanes)
          match ch.senders with
          | [] => .done (s2.onChan c.g.launch q (fun ch => { ch with fifo := vs }))
          | w :: ws => .done ((s2.onChan c.g.launch q (fun ch => { ch with fifo := vs ++ [w.reg], senders := ws })).freeSenders [w])
        | [] =>
          let vd := c.regs.wb + d.toNat
          let s2 := s1.onChan c.g.launch q (fun ch => { ch with takers := ch.takers ++ [⟨c.uid, c.mask, vd, []⟩] })
          let s3 := s2.onGroup c.uid (fun g => { g with pend := g.pend ++ [⟨.v vd, .reply, c.pc⟩] })
          .moved (c.park s3 (.recv q) (s.watchOf c.g))

/-- The word of `qstat`. -/
def chanWordOf (full slots : Nat) : W64 := BitVec.ofNat 64 (full + (slots - full) * 2 ^ 16)

/-- R212. How many slots of another device are full is a free value (R291, log entry 79). -/
def execQstat (d a : F7) (s : State) : Host.Outcome State Fault Refusal :=
  wordOf (shQstat d a) s fun s c =>
    match s.chan c.g (chanNo a) with
    | none => .hard s (Hard.plain fcIllOp)
    | some ch =>
      if s.teamAway c.g.launch ch.dst then
        let (f, s1) := s.fresh (s.domOf c.g)
        .done (c.write s1 (fun x => x.ws d.toNat (chanWordOf (f.toNat % (ch.slots + 1)) ch.slots)))
      else .done (c.write s (fun x => x.ws d.toNat (chanWordOf ch.fifo.length ch.slots)))

/-! ### Timed waits, service calls, instruction caches -/

/-- R213. -/
def execTmwait (a : F7) (s : State) : Host.Outcome State Fault Refusal :=
  wordOf (shTmwait a) s fun s c =>
    let t := c.regs.rs a.toNat
    if t.toNat ≤ s.timebase.toNat then .done s else .moved (c.park s (.tmwait t) (s.watchOf c.g))

/-- R213, R125: one request for the group; the lanes park until the reply. -/
def execSvc (d a n : F7) (s : State) : Host.Outcome State Fault Refusal :=
  wordOf (shSvc d a n) s fun s c =>
    if s.heldMode c.g.launch then .hard s (Hard.plain fcHeld)
    else
      let vd := c.regs.wb + d.toNat
      let s1 := s.onGroup c.uid (fun g => { g with pend := g.pend ++ [⟨.v vd, .reply, c.pc⟩] })
      .moved (c.park s1 (.svc vd n.toNat (c.lanes.map (fun l => c.regs.rv a.toNat l))) s.aclk)

/-- The cores in a scope of `icinv` around a core (R78). -/
def State.icScope (s : State) (p core scope other : Nat) : Bool :=
  if scope ≤ 1 then decide (other = core)
  else if scope = 2 then decide (other / 8 = core / 8)
  else (match s.part? p with
    | none => decide (other = core)
    | some x => Part.hasCore p x other) && (decide (scope ≠ 3) || decide (other / 64 = core / 64))

/-- R78. What a group has fetched before the retirement stands (R275). -/
def execIcinv (n : F7) (s : State) : Host.Outcome State Fault Refusal :=
  wordOf (shIcinv n) s fun s c =>
    let hit (core : Nat) : Bool := s.icScope c.g.part c.g.core n.toNat core
    let s1 := s.prefetchAll (fun g => hit g.core)
    .done { s1 with icache := s1.icache.filter (fun l => !hit l.core) }

/-! ### The ends of waits -/

/-- Does the context of a group run, so that its times count and its replies arrive (R211, R125)? -/
def State.ctxRuns (s : State) (p : Nat) : Bool := ((s.context? p).map (fun c => decide (c.state = .running))).getD false

/-- Does an engine go on with an operation of a group: its context runs, or is stopping and the engine has not acknowledged (R293)? Service teams
are never stopped. -/
def State.engineRuns (s : State) (uid engine : Nat) (kind : EngineKind) : Bool :=
  match s.group? uid with
  | none => !s.saved.any (fun e => (Tab.find e.2.groups uid).isSome)
  | some g => decide (g.level ≠ .u) || (match s.context? g.part with
    | none => false
    | some c => decide (c.state = .running) || (decide (c.state = .stopping) && !c.acks.contains (engine, kind)))

/-- Does the context let the group issue: it runs, or it is stopping and the group's issue slot has not acknowledged (R293)? Service teams are
never stopped. -/
def State.mayRun (s : State) (g : Group) : Bool :=
  if g.level = .u then
    match s.context? g.part with
    | none => false
    | some c => decide (c.state = .running) || (decide (c.state = .stopping) && !c.acks.contains (4 * g.core + g.slot, .issueSlot))
  else true

/-- Is aclk running (R346)? -/
def State.clocked (s : State) : Bool := decide (s.pf.current ≤ 1)

/-- R213: the lanes whose deadline has come. -/
def State.expired (s : State) (g : Group) : W64 :=
  g.lanesWith (fun x => decide (x.state = .park) && (match x.park with
    | .tmwait t => decide (t.toNat ≤ s.timebase.toNat)
    | _ => false))

/-- TMWAIT_EXPIRY (R213). -/
def execTmwaitExpiry (group : Nat) (s : State) : Host.Outcome State Fault Refusal :=
  match s.group? group with
  | none => .next s
  | some g =>
    if decide (g.level = .u) && !s.ctxRuns g.part then .next s
    else .next (s.onGroup group (fun g => g.onLanes (s.expired g) (fun _ x => x.resume)))

/-- Is the lane parked in `svc`, and since when? -/
def Lane.svcSince (x : Lane) : Option Nat :=
  match x.state, x.park with
  | .park, .svc _ _ _ => some x.since
  | _, _ => none

/-- The earliest `svc` of a group: the least time among its parked lanes. The manual does not say which of several requests a reply answers (log entry 116). -/
def firstSvc : List Lane → Option Nat
  | [] => none
  | x :: xs =>
    match x.svcSince, firstSvc xs with
    | none, r => r
    | some a, none => some a
    | some a, some b => some (min a b)

/-- SVC_REPLY (R125): the reply to the group's oldest request writes each lane its value and releases the lanes. -/
def execSvcReply (group : Nat) (vals : List W32) (s : State) : Host.Outcome State Fault Refusal :=
  match s.group? group with
  | none => .next s
  | some g =>
    match firstSvc g.lanes with
    | none => .next s
    | some t =>
      if decide (g.level = .u) && !s.ctxRuns g.part then .next s
      else
        let m := g.lanesWith (fun x => decide (x.svcSince = some t))
        let vd := match (lowestLane m).map (fun l => (g.lane l).park) with
          | some (.svc vd _ _) => vd
          | _ => 0
        .next (s.deliver ⟨group, m, vd, []⟩ vals)

/-- The groups of a team by the launch record: the sum of the COUNT fields of its roles (R287). -/
def Launch.groupsPerTeam (l : Launch) : Nat := (List.range 4).foldl (fun n k => n + field l.record (32 * k + 208) 8) 0

/-- The groups that a level unit is created with. -/
def Launch.groupsIn (l : Launch) (n : Nat) : Nat := if n ≤ 1 then 1 else l.groupsPerTeam * l.teamsIn n

/-- Saturation of the counts of R211. -/
def sat28 (n : Nat) : Nat := min n (2 ^ 28 - 1)

/-- The EXTRA field of BARRIER_TIMEOUT (R211). -/
def barExtra (id : Nat) (lvl : Bool) (arrived expected : Nat) : W64 :=
  BitVec.ofNat 64 (id % 16 + (if lvl then 16 else 0) + sat28 arrived * 2 ^ 8 + sat28 expected * 2 ^ 36)

/-- A barrier phase that has not completed W aclk after its first arrival: the fault names the first group that arrived. At a barrier that spans devices the arrivals
known here, and counted, are this device's (log entry 19). -/
def barFault (s : State) (w : Nat) (b : Barrier) (id : Nat) (lvl : Bool) (expected : Nat) : State :=
  match b.arrived with
  | [] => s
  | u :: _ =>
    match s.group? u with
    | none => s
    | some g =>
      if w ≠ 0 ∧ s.ctxRuns g.part ∧ g.fault = none ∧ b.first + w ≤ s.watchOf g then
        s.takeFault u 0 { Hard.plain fcBarrier with extra := barExtra id lvl b.arrived.length expected } true
      else s

/-- BARRIER_TIMEOUT (R211). -/
def execBarrierTimeout (bar : BarRef) (s : State) : Host.Outcome State Fault Refusal :=
  match bar with
  | .team t id =>
    match s.team? t with
    | none => .next s
    | some tm =>
      match s.launch? tm.launch with
      | none => .next s
      | some l => .next (barFault s l.watchdog (Tab.get Barrier.zero tm.bars id) id false l.groupsPerTeam)
  | .level launch n unit =>
    match s.launch? launch with
    | none => .next s
    | some l => .next (barFault s l.watchdog (Tab.get Barrier.zero l.lvlBars (levelKey n unit)) n true (l.groupsIn n))

/-- The channel a lane is parked on. -/
def Lane.chanOf (x : Lane) : Option Nat :=
  match x.state, x.park with
  | .park, .send q => some q
  | .park, .recv q => some q
  | _, _ => none

/-- The channel of the first lane of a group that has stayed parked on it for w aclk. -/
def lateChan (w now : Nat) (xs : List Lane) : Option Nat :=
  (xs.find? (fun x => x.chanOf.isSome && decide (x.since + w ≤ now))).bind (·.chanOf)

/-- WATCHDOG (R211). -/
def execWatchdog (group : Nat) (s : State) : Host.Outcome State Fault Refusal :=
  match s.group? group with
  | none => .next s
  | some g =>
    match s.launch? g.launch with
    | none => .next s
    | some l =>
      if l.watchdog = 0 ∨ !s.ctxRuns g.part ∨ g.fault ≠ none then .next s
      else match lateChan l.watchdog (s.watchOf g) g.lanes with
        | none => .next s
        | some q => .next (s.takeFault group 0 { Hard.plain fcWatchdog with extra := BitVec.ofNat 64 q } true)

end Sys2Proof.Machine
end

