-- ==== Sys2Proof/Machine/Engine.lean ====
section
/-! DEFINITION. Engine accesses (spec/08_ordering_by_goal.md R132, R133): what an engine reads and writes, the acceptance and the end of an
operation, tokens and batches (spec/07_claims_and_flows.md R121 to R123). -/

namespace Sys2Proof.Machine

/-- Who owns the free values of an operation of a group: the group's context, running or stopped, or its partition's service team (R4). -/
def State.domOp (s : State) (uid p : Nat) : Nat :=
  match s.group? uid, s.saved.find? (fun e => (Tab.find e.2.groups uid).isSome) with
  | some g, _ => s.domOf g
  | none, some e => s.ctxDom e.1
  | none, none => s.dom p

/-- The engines of a core as observers (R135), for an operation of a group. -/
def State.engineObs (s : State) (uid p core : Nat) : Obs := ⟨0, 0, core, p, 0, s.domOp uid p⟩

/-- The bytes at some places, each with its key slot, as an engine reads them. -/
def State.engineRead (s : State) (o : Obs) : List (Loc × Nat) → List Byte × State
  | [] => ([], s)
  | (l, k) :: ls =>
    let (b, s1) := s.readByte o k l
    let (bs, s2) := State.engineRead s1 o ls
    (b :: bs, s2)

/-- An engine's byte i: what it held at acceptance, or any value written since (R132). -/
def State.engineChoice (s : State) (d : Nat) (old : Byte) : List Byte → Byte × State
  | [] => (old, s)
  | b :: bs =>
    let (f, s1) := s.fresh d
    if f.getLsbD 0 then (b, s1) else State.engineChoice s1 d old bs

/-- The bytes of an operation from its snapshot and the writes seen since. -/
def State.engineBytes (s : State) (d : Nat) (seen : List (Nat × Byte)) : Nat → List Byte → List Byte × State
  | _, [] => ([], s)
  | n, b :: bs =>
    let (v, s1) := s.engineChoice d b ((seen.filter (fun e => decide (e.1 = n))).map (·.2))
    let (vs, s2) := State.engineBytes s1 d seen (n + 1) bs
    (v :: vs, s2)

/-- Free bytes, one for each place that a property names (R120). -/
def State.blur (s : State) (d : Nat) (hit : Loc → Bool) : List (Loc × Nat) → List Byte → List Byte × State
  | l :: ls, b :: bs =>
    let (v, s1) : Byte × State := if hit l.1 then s.freeByte d else (b, s)
    let (vs, s2) := State.blur s1 d hit ls bs
    (v :: vs, s2)
  | _, _ => ([], s)

/-- The operations that a core's copy engine has accepted (R121). -/
def State.accepted (s : State) (core : Nat) : Nat := (s.copies.filter (fun e => decide (e.2.core = core))).length

/-- The issuer of an accepted operation. -/
def CopyOp.issuer (c : CopyOp) (op : Nat) : Issuer := ⟨op, c.part, c.core, c.team, c.group⟩

/-- R122: the token of an operation goes to its group's register, unless the group has retired; the scoreboard clears it. One issued before a
dispatch of the bounds pass belongs to the state that the dispatch restores; one that a dispatch has discarded (R100) goes nowhere. -/
def Group.takeToken (g : Group) (op sd : Nat) (v : W64) : Group :=
  if g.pend.any (fun p => decide (p.why = .op op)) then
    { g with regs := g.regs.ws sd v, pend := g.pend.filter (fun p => !decide (p.why = .op op)),
             dispatch := g.dispatch.map (fun d => if op < d.mark then { d with regs := d.regs.ws sd v } else d) }
  else g

/-- The token of an operation reaches its group, in the running context or in a saved one (R128). -/
def State.token (s : State) (uid op sd : Nat) (v : W64) : State :=
  let s1 := s.onGroup uid (fun g => g.takeToken op sd v)
  { s1 with saved := s1.saved.map (fun e => (e.1, { e.2 with groups := Tab.modify e.2.groups uid (fun g => g.takeToken op sd v) })) }

/-- A token of R122: status and bytes moved. -/
def tokenWord (status moved : Nat) : W64 := BitVec.ofNat 64 (status + moved * 2 ^ 8)
def tkDone : Nat := 1
def tkSevered : Nat := 2
def tkWithdrawn : Nat := 3

/-- Does an operation still run: a flow, a `tsum`, or a contribution? -/
def State.opRuns (s : State) (op : Nat) : Bool :=
  (Tab.find s.copies op).isSome || s.mats.any (fun e => decide (e.1 = op)) || s.contribs.any (fun c => decide (c.op = op))

/-- Have all of some operations ended? -/
def State.allEnded (s : State) (ops : List Nat) : Bool := ops.all (fun o => !s.opRuns o)

end Sys2Proof.Machine
end

