-- ==== Sys2Proof/Machine/Claims.lean ====
section
/-! DEFINITION. Claims and flows (spec/07_claims_and_flows.md R112 to R123; spec/12_ref_memory_sync_transfer.md R214 to R218): the walk of `bclaim`, its
reservations, flows with their ends, batches, and the revocation and severing of claims. -/

namespace Sys2Proof.Machine

/-! ### Routes (R112) -/

def routeOf (a b : Nat) : Option Nat :=
  let near (k : Nat) : Bool := decide (k = kMem ∨ k = kTeam)
  if near a && near b then some 0
  else if near a && decide (b = kWbuf) then some 1
  else if (decide (a = kHostio) && near b) || (near a && decide (b = kHostio)) then some 2
  else if (decide (a = kWindow) && near b) || (near a && decide (b = kWindow)) then some 3
  else if near a && decide (b = kColl) then some 4
  else none

def rtHost : Nat := 2
def rtRemote : Nat := 3
def rtColl : Nat := 4

/-! ### Windows -/

/-- The parts of a window that lie each in one 64 KiB chunk: first offset and length. -/
def chunks : Nat → Nat → Nat → List (Nat × Nat)
  | 0, _, _ => []
  | n + 1, off, len =>
    if len = 0 then []
    else
      let k := min len (2 ^ 16 - off % 2 ^ 16)
      (off, k) :: chunks n (off + k) (len - k)

/-- The chunks of a capability's window. -/
def Cap.chunks (c : Cap) : List (Nat × Nat) := Machine.chunks (c.length / 2 ^ 16 + 2) c.base c.length

/-- The walks of some chunks of an object through a capability of kind k; the owner of a peer object is asked (R326). -/
def State.walkChunks (s : State) (x : Actor) (k o : Nat) : List (Nat × Nat) → List (Walk Trans × Nat × Nat) × State
  | [] => ([], s)
  | (off, n) :: cs =>
    let (r0, s0) := s.translate x.obs.dom (x.obs.core / 8) x.obs.part x.tb k o off n
    let (r, s1) := s0.askOwner x.obs.dom x.obs.part off r0
    let (rs, s2) := State.walkChunks s1 x k o cs
    ((r, off, n) :: rs, s2)

/-- The walk of a window: team memory and weight buffer name the team's own store; an empty window still needs its object. -/
def State.walkWindow (s : State) (x : Actor) (c : Cap) : List (Walk Trans × Nat × Nat) × State :=
  let own (l : Loc) : List (Walk Trans × Nat × Nat) := [(.at ⟨l, 0, plVault, false, false, false, false, none⟩, c.base, c.length)]
  if c.kind = kTeam then (own (.team x.team c.base), s)
  else if c.kind = kWbuf then (own (.wbuf x.team c.base), s)
  else if c.length = 0 then
    (match s.objEntry x.tb c.obj with
      | .object r => [(.object r, c.base, 0)]
      | .page st a => [(.page st a, c.base, 0)]
      | .beyond m => [(.beyond m, c.base, 0)]
      | _ => [], s)
  else s.walkChunks x c.kind c.obj c.chunks

/-- The spans of a walk that has found every chunk. -/
def spansOf : List (Walk Trans × Nat × Nat) → List Span
  | [] => []
  | (.at t, off, n) :: rs => ⟨off, n, t⟩ :: spansOf rs
  | _ :: rs => spansOf rs

/-- The place of an object offset in some spans, with its key slot. -/
def placeIn (x : Nat) : List Span → Option (Loc × Nat)
  | [] => none
  | p :: ps => if p.off ≤ x ∧ x < p.off + p.len then some (p.tr.loc.add (x - p.off), p.tr.slot) else placeIn x ps

/-! ### The COLL header (R126, R329) -/

def hNcontrib (h : BitVec 512) : Nat := field h 0 16
def hIndex (h : BitVec 512) : Nat := field h 16 16
def hOp (h : BitVec 512) : Nat := field h 32 4
def hCollid (h : BitVec 512) : Nat := field h 40 24
def hTimeout (h : BitVec 512) : Nat := field h 64 64
def hDest (h : BitVec 512) : Cap := ⟨h.extractLsb' 128 128, true⟩
def hNode (h : BitVec 512) (i : Nat) : Nat := field h (256 + 16 * i) 16
def hNnodes (h : BitVec 512) : Nat := field h 504 4
def hFanin (h : BitVec 512) : Nat := field h 508 4

/-- Does a header keep the layout of R126 and R329? `dtag` is the tag of its DEST. -/
def headerGood (h : BitVec 512) (dtag : Bool) : Bool :=
  decide (2 ≤ hNcontrib h ∧ hNcontrib h ≤ 4096 ∧ hIndex h < hNcontrib h ∧ hOp h ≤ 3 ∧ field h 36 4 = 0 ∧ 1 ≤ hTimeout h) &&
  dtag && decide ((hDest h).kind = kMem ∨ (hDest h).kind = kTeam) &&
  decide (2 ≤ hFanin h ∧ hFanin h ≤ 8 ∧ 1 ≤ hNnodes h ∧ field h 496 8 = 0)

/-- The nodes from node i up to the root, node 0: the parent of node i is node ⌊(i − 1)/FANIN⌋. -/
def hUp (h : BitVec 512) : Nat → Nat → List Nat
  | 0, i => [i]
  | n + 1, i => if i = 0 then [0] else i :: hUp h n ((i - 1) / hFanin h)

/-- The other ends of this device's hops along a row of devices. -/
def hops : List Nat → List Nat
  | a :: b :: ds =>
    let me := Config.deviceId.toNat
    (if a = me ∧ b ≠ me then [b] else if b = me ∧ a ≠ me then [a] else []) ++ hops (b :: ds)
  | _ => []

/-- The devices to which a contribution made here crosses a link of this device, on its way from node INDEX mod NNODES up to the root. -/
def hCrossed (h : BitVec 512) : List Nat :=
  (hops (Config.deviceId.toNat :: (hUp h 15 (hIndex h % hNnodes h)).map (hNode h))).eraseDups

/-- The devices to which the tree has links of this device at all: between a node here and its parent or a child. -/
def hLinks (h : BitVec 512) : List Nat :=
  (hCrossed h ++ ((List.range (hNnodes h)).drop 1).flatMap (fun i => hops [hNode h i, hNode h ((i - 1) / hFanin h)])).eraseDups

/-! ### Reservations (R114) -/

/-- Does a claim hold its reservations: HELD, or REVOKED or SEVERED while its flows have not ended (R115)? -/
def State.reserves (s : State) (t k : Nat) (c : Claim) : Bool :=
  decide (c.state = 1) || (decide (3 ≤ c.state) && decide (0 < s.inflight t k))

/-- The claims of a partition that hold reservations, with the core of each. -/
def State.holders (s : State) (p : Nat) : List (Nat × Claim) :=
  (s.teams.filter (fun e => decide (e.2.part = p))).flatMap (fun e =>
    (e.2.claims.filter (fun k => s.reserves e.1 k.1 k.2)).map (fun k => (e.2.core, k.2)))

/-- The vaults and the units of GDDR7 that some spans map to; GDDR7 changes its unit every 2 KiB at most (R70), and 32 steps meet every unit. -/
def vaultsOf (ps : List Span) : List Nat :=
  (ps.filterMap (fun p => match p.tr.loc with
    | .dev a => Config.vaultOf a
    | _ => none)).eraseDups
def State.unitsOf (s : State) (ps : List Span) : List Nat :=
  (ps.flatMap (fun p => match p.tr.loc with
    | .dev a => if (Config.vaultOf a).isSome then [] else
      (List.range (min ((a % 2048 + p.len + 2047) / 2048) 32)).filterMap (fun i => s.unitOf (a / 2048 * 2048 + 2048 * i))
    | _ => [])).eraseDups

/-- The other devices that a claim's data crosses to. -/
def peersOf (ps : List Span) (header : Option (BitVec 512)) : List Nat :=
  ((ps.filterMap (fun p => p.tr.peer)) ++ (match header with
    | none => []
    | some h => hCrossed h)).eraseDups.filter (fun d => decide (d ≠ Config.deviceId.toNat))

/-- A port of the partition that is up, reaches the device and has the shares free that a claim needs there: a lane slot where it crosses the port, a share of the
node buffer where its tree has a node's link there. -/
def State.pickPort (s : State) (p dev : Nat) (held : List (Nat × Claim)) (lane node : Bool) : Option Nat :=
  let count (f : Claim → Bool) : Nat := (held.filter (fun e => f e.2)).length
  (s.portsTo p dev).find? (fun n =>
    (match Tab.find s.ports n with
      | none => false
      | some q => q.up) && (!lane || decide (count (fun c => c.ports.contains n) < 64)) && (!node || decide (count (fun c => c.nodes.contains n) < 8)))

/-- A port for each device, from those that the claim's data crosses to and those of its tree's links. -/
def State.pickPorts (s : State) (p : Nat) (held : List (Nat × Claim)) (cross links : List Nat) : List Nat → Option (List (Nat × Nat))
  | [] => some []
  | d :: ds =>
    match s.pickPort p d held (cross.contains d) (links.contains d), State.pickPorts s p held cross links ds with
    | some n, some ns => some ((d, n) :: ns)
    | _, _ => none

/-- The windows of a claim: source and destination, and a COLL object with its header's DEST. -/
def Claim.spans (c : Claim) : List Span := c.smap ++ c.dmap ++ c.cmap

/-- R114: can the reservations be granted now? The ports that the claim takes, by device, or none. The spec does not map bytes to L2 slices or routes to
crossbar ports: a share of theirs that could be exhausted is refused or granted by a free choice (log entry 22). -/
def State.reserve (s : State) (p core : Nat) (ps : List Span) (cross links : List Nat) : Option (List (Nat × Nat)) × State :=
  let held := s.holders p
  let count (f : Claim → Bool) : Nat := (held.filter (fun e => f e.2)).length
  let buffer := decide (64 ≤ (held.filter (fun e => decide (e.1 = core))).length)
  let vault := (vaultsOf ps).any (fun v => decide (32 ≤ count (fun c => (vaultsOf c.spans).contains v)))
  let maybe := (s.unitsOf ps).any (fun u => decide (32 ≤ count (fun c => (s.unitsOf c.spans).contains u))) || decide (64 ≤ held.length)
  match s.pickPorts p held cross links (cross ++ links).eraseDups with
  | none => (none, s)
  | some ns =>
    if buffer || vault then (none, s)
    else if maybe then
      let (f, s1) := s.fresh (s.dom p)
      (if f.getLsbD 0 then none else some ns, s1)
    else (some ns, s)

/-! ### The walk of bclaim (R113) -/

/-- The first walk of a list with a property. -/
def firstWalk (f : Walk Trans → Bool) (rs : List (Walk Trans × Nat × Nat)) : Option (Walk Trans × Nat × Nat) := rs.find? (fun r => f r.1)

/-- Checks 4 and 5 over the walks of one window. -/
def isObject : Walk Trans → Bool
  | .object _ => true
  | _ => false
def isAbsent : Walk Trans → Bool
  | .at _ => false
  | .object _ => false
  | _ => true

/-- The stop of a chunk that a walk has not found. -/
def chunkStop (s : State) (x : Actor) (c : Cap) (lane : Option Nat) (r : Walk Trans × Nat × Nat) : Stop :=
  match r.1 with
  | .object n => .hard ⟨fcObject, lane, c.obj, r.2.1, BitVec.ofNat 64 n⟩
  | w => walkStop x false c (s.pageOf x c.obj) ⟨lane.getD 0, r.2.1 - c.base⟩ w

/-- Checks 4 to 6 of R113 over some windows: every span, or the first failing check. -/
def windowsStop (s : State) (x : Actor) (lane : Option Nat) (ws : List (Cap × List (Walk Trans × Nat × Nat))) : Option Stop :=
  let first (f : Walk Trans → Bool) : Option Stop := ws.findSome? (fun w => (firstWalk f w.2).map (chunkStop s x w.1 lane))
  match first isObject with
  | some e => some e
  | none =>
    match first isAbsent with
    | some e => some e
    | none =>
      let spans (w : Cap × List (Walk Trans × Nat × Nat)) : List Span := if w.1.kind = kTeam ∨ w.1.kind = kWbuf then [] else spansOf w.2
      if ws.any (fun w => (spans w).any (fun p => s.keyHeld x.obs.part p.tr.slot)) then some .wait
      else ws.findSome? (fun w => ((spans w).find? (fun p => s.keyBad x.obs.part p.tr.slot)).map (fun p => .hard ⟨fcKey, lane, w.1.obj, p.off, 0⟩))

/-- What a successful walk records. -/
structure Walked where
  smap   : List Span
  dmap   : List Span
  cmap   : List Span
  ports  : List Nat
  nodes  : List Nat
  header : Option (BitVec 512)
  deriving DecidableEq, Repr

/-- The header of a COLL object: its bytes and the tag of DEST, through the object's walk. -/
def State.collHeader (s : State) (x : Actor) (t : Trans) : BitVec 512 × Bool × State :=
  let (bs, s1) := (s.engineHot x.obs.dom x.obs.core none ((List.range 64).map t.loc.add)).fetchBytes x t.slot t.loc 64
  (BitVec.ofNat 512 (ofBytes bs), s.loadTag x { t with loc := t.loc.add 16 }, s1)

/-- Checks 7 and 8 of R113. -/
def claimLinks (s : State) (x : Actor) (lane : Option Nat) (smap dmap cmap : List Span) (header : Option (BitVec 512)) : Except Stop Walked × State :=
  let ps := smap ++ dmap ++ cmap
  let cross := peersOf ps header
  let links := (header.map hLinks).getD []
  let ports (ds : List Nat) (ns : List (Nat × Nat)) : List Nat := (ns.filter (fun e => ds.contains e.1)).map (·.2)
  if cross.any (fun d => !s.linkUp x.obs.part d) then (.error (.hard { Hard.plain fcSevered with lane := lane }), s)
  else
    match s.reserve x.obs.part x.obs.core ps cross links with
    | (none, s1) => (.error (.hard { Hard.plain fcLimit with lane := lane }), s1)
    | (some ns, s1) => (.ok ⟨smap, dmap, cmap, ports cross ns, ports links ns, header⟩, s1)

/-- What a COLL object's header says wrong (R126, R113; log entries 23 and 115). -/
def headerFault (x : Actor) (lane : Option Nat) (h : BitVec 512) (dtag : Bool) : Option Hard :=
  let d := hDest h
  if !headerGood h dtag then some { Hard.plain fcIllOp with lane := lane }
  else if !d.has (rW + rC) then some ⟨fcRights, lane, d.obj, d.base, 0⟩
  else if d.kind = kTeam ∧ x.tm < d.base + d.length then some ⟨fcBounds, lane, d.obj, d.base, 0⟩
  else none

/-- The header of a COLL capability whose object has been walked, read and checked. -/
def claimHeader (s : State) (x : Actor) (lane : Option Nat) (b : Cap) : Except Stop (BitVec 512) × State :=
  match s.translate x.obs.dom (x.obs.core / 8) x.obs.part x.tb b.kind b.obj 0 64 with
  | (.at t, s1) =>
    let (h, dtag, s2) := s1.collHeader x t
    match headerFault x lane h dtag with
    | some e => (.error (.hard e), s2)
    | none => (.ok h, s2)
  | (r, s1) => (.error (chunkStop s1 x b lane (r, 0, 0)), s1)

/-- Checks 4 to 8 of R113, which a re-walk makes again with the header that it recorded (R119). The header of a COLL object is read once its pages are there, and
its DEST is walked as the destination (log entry 23). -/
def claimWalk (s : State) (x : Actor) (lane : Option Nat) (a b : Cap) (known : Option (BitVec 512)) : Except Stop Walked × State :=
  let (ra, s1) := s.walkWindow x a
  let (rb, s2) := s1.walkWindow x b
  match windowsStop s2 x lane [(a, ra), (b, rb)] with
  | some e => (.error e, s2)
  | none =>
    if b.kind ≠ kColl then claimLinks s2 x lane (spansOf ra) (spansOf rb) [] none
    else
      let hd : Except Stop (BitVec 512) × State := match known with
        | some h => (.ok h, s2)
        | none => claimHeader s2 x lane b
      match hd with
      | (.error e, s3) => (.error e, s3)
      | (.ok h, s3) =>
        let (rd, s4) := s3.walkWindow x (hDest h)
        match windowsStop s4 x lane [(hDest h, rd)] with
        | some e => (.error e, s4)
        | none => claimLinks s4 x lane (spansOf ra) (spansOf rd) (spansOf rb) (some h)

/-- The kinds that `bclaim` accepts as source and destination (R63). -/
def claimSrc : List Nat := [kMem, kTeam, kHostio, kWindow]
def claimDst : List Nat := [kMem, kTeam, kWbuf, kColl, kHostio, kWindow]

/-- Check 2 of R113 on one capability: R62 steps 1 and 2. -/
def capStep (s : State) (x : Actor) (lane : Option Nat) (kinds : List Nat) (need : Nat) (c : Cap) : Option Hard × State :=
  let h (cause : Nat) : Hard := ⟨cause, lane, c.obj, c.base, 0⟩
  if !c.tag then (some (h fcTag), s)
  else if !kinds.contains c.kind || !c.has need then (some (h fcRights), s)
  else
    let (far, s1) := s.onPeer x c c.base
    (if far && !c.has rG then some (h fcRights) else none, s1)

/-- Check 2 on the source, then on the destination. The manual gives no order between the two (log entry 115). -/
def capSteps (s : State) (x : Actor) (lane : Option Nat) (a b : Cap) : Option Hard × State :=
  match capStep s x lane claimSrc (rC + rR) a with
  | (some h, s1) => (some h, s1)
  | (none, s1) => capStep s1 x lane claimDst (rC + rW) b

/-- Check 2 of R113, its last part: a window past the team's allocation. -/
def allocStep (x : Actor) (lane : Option Nat) (c : Cap) : Option Hard :=
  if (c.kind = kTeam ∧ x.tm < c.base + c.length) ∨ (c.kind = kWbuf ∧ x.wb < c.base + c.length) then some ⟨fcBounds, lane, c.obj, c.base, 0⟩ else none

/-- The claim registers of a team, whose context may have stopped. -/
def State.claim (s : State) (t k : Nat) : Claim := ((s.anyTeam t).map (fun tm => Tab.get Claim.free tm.claims k)).getD Claim.free
def State.putClaim (s : State) (t k : Nat) (c : Claim) : State := s.onAnyTeam t (fun tm => { tm with claims := Tab.set Claim.free tm.claims k c })

/-- The claim of a walk: HELD, by R113. -/
def Walked.claim (w : Walked) (route : Nat) (a b : Cap) : Claim :=
  let ps := w.smap ++ w.dmap
  let onHost (p : Span) : Bool := match p.tr.loc with
    | .host _ => true
    | _ => false
  { state := 1, cause := 0, route := route, src := a, dst := b, smap := w.smap, dmap := w.dmap, cmap := w.cmap, host := decide (route = rtHost) || ps.any onHost,
    ports := w.ports, nodes := w.nodes,
    wins := (ps.filterMap (fun p => match p.tr.loc with
      | .peer d i _ => some (d, i)
      | _ => none)).eraseDups,
    header := w.header.getD 0 }

/-- R214. HELD_OVERFLOW (R45) comes after the checks of the walk, among which the manual does not place it (log entry 115). -/
def execBclaim (d a b : F7) (s : State) : Host.Outcome State Fault Refusal :=
  wordOf (shBclaim d a b) s fun s c =>
    let x := s.actor c.uid c.g
    let lane := lowestLane c.mask
    let ca := c.regs.rc a.toNat
    let cb := c.regs.rc b.toNat
    if (s.claim c.g.team d.toNat).state ≠ 0 then .hard s (Hard.plain fcIllOp)
    else
      match capSteps s x lane ca cb with
      | (some h, s1) => .hard s1 h
      | (none, s1) =>
        match (allocStep x lane ca).orElse (fun _ => allocStep x lane cb) with
        | some h => .hard s1 h
        | none =>
          match routeOf ca.kind cb.kind with
          | none => .hard s1 (Hard.plain fcRoute)
          | some route =>
            match claimWalk s1 x lane ca cb none with
            | (.error e, s2) => Res.ofStop s2 e
            | (.ok w, s2) => if x.held then .hard s2 (Hard.plain fcHeld) else .done (s2.putClaim c.g.team d.toNat (w.claim route ca cb))

/-! ### Flows (R120, R121, R216) -/

/-- A flow specification: offsets, rows, strides. -/
structure FlowSpec where
  src    : Nat
  dst    : Nat
  bytes  : Nat
  rows   : Nat
  sst    : Nat
  dstr   : Nat
  pad    : Nat
  deriving DecidableEq, Repr

/-- The specification in four scalars from sb on (R120). -/
def Regs.flowSpec (x : Regs) (b : Nat) : FlowSpec :=
  ⟨(x.rs b).toNat, (x.rs (b + 1)).toNat, field (x.rs (b + 2)) 0 32, field (x.rs (b + 2)) 32 16, field (x.rs (b + 3)) 0 32, field (x.rs (b + 3)) 32 32,
   field (x.rs (b + 2)) 48 16⟩

/-- R120: does the specification raise FLOW_RANGE for windows of these lengths? -/
def FlowSpec.bad (f : FlowSpec) (slen dlen : Nat) : Bool :=
  decide (f.bytes < 32 ∨ f.rows = 0 ∨ 2 ^ 20 < f.bytes * f.rows ∨ f.pad ≠ 0 ∨ f.bytes % 32 ≠ 0 ∨ f.src % 32 ≠ 0 ∨ f.dst % 32 ≠ 0 ∨ f.sst % 32 ≠ 0 ∨
    f.dstr % 32 ≠ 0) ||
  decide (1 < f.rows ∧ f.dstr < f.bytes) ||
  decide (slen < f.src + (f.rows - 1) * f.sst + f.bytes) || decide (dlen < f.dst + (f.rows - 1) * f.dstr + f.bytes)

/-- The offsets of its bytes, in row order. -/
def flowOffsets (start stride bytes rows : Nat) : List Nat :=
  (List.range rows).flatMap (fun n => (List.range bytes).map (fun j => start + n * stride + j))

/-- The places of some window offsets. -/
def placesOf (base : Nat) (ps : List Span) (xs : List Nat) : List (Loc × Nat) := xs.filterMap (fun x => placeIn (base + x) ps)

/-- R117, R119: a flow or round on a DORMANT claim re-walks it first; a HELD claim stands. -/
def rewalk (s : State) (x : Actor) (lane : Option Nat) (t k : Nat) (cl : Claim) : Except Stop Claim × State :=
  if cl.state = 2 then
    match claimWalk s x lane cl.src cl.dst (if cl.route = rtColl then some cl.header else none) with
    | (.error e, s1) => (.error e, s1)
    | (.ok w, s1) =>
      let c := w.claim cl.route cl.src cl.dst
      (.ok c, s1.putClaim t k c)
  else (.ok cl, s)

/-- A new operation of a group: it is open in the group's batch, and its token's register waits. -/
def State.openOp (s : State) (c : Ctx) (op : Nat) (sd : Nat) (batch : Bool) : State :=
  s.onGroup c.uid (fun g => { g with openOps := if batch then g.openOps ++ [op] else g.openOps, pend := g.pend ++ [⟨.s sd, .op op, c.pc⟩] })

/-- The acceptance of a flow by the core's copy engine (R121). Reads and writes on routes HOST and REMOTE travel on a connection, in the group's order (R136):
the place of its write on the connection is taken now. -/
def acceptFlow (s : State) (c : Ctx) (sd k : Nat) (cl : Claim) (f : FlowSpec) : State :=
  let (op, s0) := s.newUid
  let src := placesOf cl.src.base cl.smap (flowOffsets f.src f.sst f.bytes f.rows)
  let dst := placesOf cl.dst.base cl.dmap (flowOffsets f.dst f.dstr f.bytes f.rows)
  let mine (q : Posted) : Bool := src.any (fun e => ownBehind c.g.part c.uid e.1 q)
  let s0 := if s0.stuck mine then s0 else s0.landFor mine
  let d := s0.domOf c.g
  let (bs, s1) := (s0.engineHot d c.g.core none (src.map (·.1))).engineRead (s0.engineObs c.uid c.g.part c.g.core) src
  let o : CopyOp := { core := c.g.core, part := c.g.part, launch := c.g.launch, team := c.g.team, group := c.uid, sd := sd, claim := some k,
                      srcs := src.map (·.1), snap := bs, seen := [], dsts := dst, entry := none }
  let s2 := { s1 with copies := Tab.put s1.copies op o }
  let s3 := match ((dst.head?.map (·.1)).bind Loc.far).filter (fun _ => decide (cl.route = rtHost ∨ cl.route = rtRemote)) with
    | some dev => { s2 with posted := s2.posted ++ [Posted.mk c.g.part dev c.uid c.g.team c.g.core op true false []], unpub := s2.unpub ++ (o.issuer op).ahead true dst bs }
    | none => { s2 with unpub := s2.unpub ++ ((o.issuer op).ahead false dst bs).filter (fun (u : Unpub) => !queueReg s2.queues u.loc) }
  s3.openOp c op sd true

/-- R216. A flow that finds two operations accepted waits (R121), as does one whose copy engine has stopped (R293). -/
def execBflow (d a b : F7) (s : State) : Host.Outcome State Fault Refusal :=
  wordOf (shBflow d a b) s fun s c =>
    let x := s.actor c.uid c.g
    let lane := lowestLane c.mask
    let k := a.toNat
    let cl := s.claim c.g.team k
    let f := c.regs.flowSpec b.toNat
    if cl.state = 0 then .hard s (Hard.plain fcIllOp)
    else if 3 ≤ cl.state then .hard s (Hard.plain fcRevoked)
    else if cl.route = rtColl then .hard s (Hard.plain fcRoute)
    else if f.bad cl.src.length cl.dst.length then .hard s (Hard.plain fcRange)
    else
      match rewalk s x lane c.g.team k cl with
      | (.error e, s1) => Res.ofStop s1 e
      | (.ok cl', s1) =>
        if x.held then .hard s1 (Hard.plain fcHeld)
        else if 2 ≤ s1.accepted c.g.core ∨ !s1.engineRuns c.uid c.g.core .copyEngine then .wait s1
        else .done (acceptFlow s1 c d.toNat k cl' f)

/-! ### The end of a flow (R122) -/

/-- R42: a claim register of a retired team becomes FREE once its flows have ended. -/
def State.freeLate (s : State) (t k : Nat) : State :=
  if ((s.anyTeam t).map (·.retired)).getD true && decide (s.inflight t k = 0) then s.putClaim t k Claim.free else s

/-- Is the operation the oldest accepted on its claim (R121)? -/
def State.firstOnClaim (s : State) (op : Nat) (c : CopyOp) : Bool :=
  !s.copies.any (fun e => decide (e.1 < op ∧ e.2.team = c.team ∧ e.2.claim = c.claim))

/-- Some bytes of a flow, its own overlapped ones undefined (R120), are written, or go out on the connection on which it has its place. -/
def State.putBytes (s : State) (op : Nat) (c : CopyOp) (ds : List (Loc × Nat)) (bs : List Byte) : State :=
  if s.posted.any (fun q => decide (q.op = op)) then
    { s with posted := s.posted.map (fun q => if q.op = op then { q with writes := (ds.zip bs).map (fun (e : (Loc × Nat) × Byte) => (e.1.1, e.1.2, e.2)) } else q),
             unpub := (ds.zip bs).foldl (fun us e => makeWrite (c.issuer op) e.1.1 e.2 us) s.unpub }
  else (s.engineStore (c.issuer op) ds bs).unmark (ds.flatMap (fun d => d.1.addrs 1))

/-- The bytes of a flow up to a count have moved, and it runs no more. -/
def State.moveBytes (s : State) (op : Nat) (c : CopyOp) (n : Nat) : State :=
  let d := s.domOp c.group c.part
  let ds := c.dsts.take n
  let (bs0, s1) := s.engineBytes d c.seen 0 (c.snap.take n)
  let (bs, s2) := s1.blur d c.srcs.contains ds bs0
  let s3 := ({ s2 with copies := Tab.del s2.copies op }.engineHot d c.core none (ds.map (fun (e : Loc × Nat) => e.1))).putBytes op c ds bs
  { s3 with unpub := dropAhead op s3.unpub }.countU (((s.anyTeam c.team).map (fun (t : Team) => t.level)).getD .s) c.part 4 n

/-- A flow has ended: its token, and its claim. -/
def State.flowDone (s : State) (op : Nat) (c : CopyOp) (v : W64) : State :=
  let s1 := s.token c.group op c.sd v
  match c.claim with
  | none => s1
  | some k => s1.freeLate c.team k

/-- FLOW_END: an accepted flow, the oldest on its claim, ends DONE. -/
def execFlowEnd (op : Nat) (s : State) : Host.Outcome State Fault Refusal :=
  match Tab.find s.copies op with
  | none => .next s
  | some c =>
    if c.claim.isNone || !s.firstOnClaim op c then .next s
    else if (s.snapShort (c.dsts.map (·.1))).isSome then .next (s.starveAny (c.dsts.map (·.1)))
    else .next ((s.moveBytes op c c.dsts.length).flowDone op c (tokenWord tkDone c.dsts.length))

/-! ### Severing and revoking (R117, R118) -/

/-- Bytes of no stated value: undefined for every observer until they are written again (R118). -/
def State.undefBytes (s : State) (x : Issuer) (ds : List (Loc × Nat)) : State :=
  let ds := ds.filter (fun d => !queueReg s.queues d.1)
  let s1 := ds.foldl (fun s d => (s.stamp d.2 d.1).setTag d.1 false) s
  { s1 with unpub := s1.unpub ++ ds.map (fun d => { x.entry d.1 [] true with dead := some (s1.place + 1) }), place := s1.place + 1 }

/-- How many bytes a flow that is severed has moved: a free count if it has started, and if none before it holds it back on its connection (R118, R136). -/
def State.movedBefore (s : State) (op : Nat) (c : CopyOp) : Nat × State :=
  let (f, s1) := s.fresh (s.domOp c.group c.part)
  let others (q : Posted) : Bool := s.unmade q && decide (q.op ≠ op)
  let back := (dueFor (fun q => decide (q.op = op)) s.posted).any others
  (if s.firstOnClaim op c && !back then f.toNat % (c.dsts.length + 1) else 0, s1)

/-- A flow ends SEVERED: what it has moved has reached its destination, and nothing more does (R118). -/
def State.severOp (s : State) (op : Nat) (c : CopyOp) : State :=
  let (n, s1) := s.movedBefore op c
  let s2 := s1.moveBytes op c n
  let s3 := if n = 0 then { s2 with posted := s2.posted.filter (fun q => decide (q.op ≠ op)) } else s2.landFor (fun q => decide (q.op = op))
  (s3.undefBytes (c.issuer op) (c.dsts.drop n)).flowDone op c (tokenWord tkSevered n)

/-- Sever the flows of some claims, the latest first on each, so that only the oldest has moved bytes. -/
def State.severOps (s : State) (hit : Nat → Nat → Bool) : List (Nat × CopyOp) → State
  | [] => s
  | (op, c) :: cs =>
    let s1 := State.severOps s hit cs
    match c.claim with
    | none => s1
    | some k => if hit c.team k then s1.severOp op c else s1

/-- Set the state of the covered claims of a partition that are HELD or DORMANT. -/
def State.markClaims (s : State) (p : Nat) (hit : Claim → Bool) (state cause : Nat) : State :=
  { s with teams := s.teams.map (fun e => (e.1, if e.2.part = p then
      { e.2 with claims := e.2.claims.map (fun k => (k.1, if (k.2.state = 1 ∨ k.2.state = 2) ∧ hit k.2 then { k.2 with state := state, cause := cause } else k.2)) }
      else e.2)) }

/-- The operations accepted on claims of a partition with a property. -/
def State.opsOn (s : State) (p : Nat) (hit : Claim → Bool) : List Nat :=
  let on (t : Nat) (k : Nat) : Bool := decide ((s.claim t k).state ≠ 0) && hit (s.claim t k)
  ((s.copies.filter (fun e => decide (e.2.part = p) && (match e.2.claim with
    | none => false
    | some k => on e.2.team k))).map (·.1)) ++
  ((s.contribs.filter (fun c => decide (c.part = p) && on c.team c.claim)).map (·.op))

/-- R117: the covered claims become REVOKED with a cause. -/
def State.revoke (s : State) (p : Nat) (hit : Claim → Bool) (cause : Nat) : State := s.markClaims p hit 3 cause

/-- R117, R118: the covered claims become SEVERED with a cause, and their flows end at once. -/
def State.sever (s : State) (p : Nat) (hit : Claim → Bool) (cause : Nat) : State :=
  let on (t k : Nat) : Bool := decide (((s.anyTeam t).map (·.part)).getD 16 = p) && decide ((s.claim t k).state ≠ 0) && hit (s.claim t k)
  (s.severOps on s.copies).markClaims p hit 4 cause

/-- Does a claim's window on the object meet offsets from lo to lo + n - 1? -/
def Claim.covers (c : Claim) (o lo n : Nat) : Bool :=
  let one (x : Cap) : Bool := decide (x.kind ≠ kTeam ∧ x.kind ≠ kWbuf ∧ x.obj = o ∧ x.base < lo + n ∧ lo < x.base + x.length)
  one c.src || one c.dst || (decide (c.route = rtColl) && one (hDest c.header))

/-- Does a claim use a key slot? -/
def Claim.usesKey (c : Claim) (k : Nat) : Bool := (c.smap ++ c.dmap ++ c.cmap).any (fun p => !p.tr.loc.isTeam && decide (p.tr.slot = k))

/-! ### Batches (R123, R217) -/

/-- R217. -/
def execBseal (d : F7) (s : State) : Host.Outcome State Fault Refusal :=
  wordOf (shBseal d) s fun s c =>
    let n := c.g.batch + 1
    let s1 := s.onGroup c.uid (fun g => { g with batch := n, sealed := g.sealed ++ [(n, g.openOps)], openOps := [] })
    .done (c.write s1 (fun x => x.ws d.toNat (BitVec.ofNat 64 n)))

/-- R217: every flow and round of the batches has ended; it orders their writes for the group itself. -/
def execBwait (a : F7) (s : State) : Host.Outcome State Fault Refusal :=
  wordOf (shBwait a) s fun s c =>
    let n := (c.regs.rs a.toNat).toNat
    if c.g.batch < n then .hard s (Hard.plain fcIllOp)
    else
      let ops := (c.g.sealed.filter (fun b => decide (b.1 ≤ n))).flatMap (·.2)
      if !s.allEnded ops then .wait s
      else .done ((s.onGroup c.uid (fun g => { g with waited := max g.waited n })).publish (fun op => ops.contains op) 0)

/-! ### brelease and bstat (R218) -/

/-- R218. -/
def execBrelease (a : F7) (s : State) : Host.Outcome State Fault Refusal :=
  wordOf (shBrelease a) s fun s c =>
    if s.inflight c.g.team a.toNat ≠ 0 then .wait s else .done (s.putClaim c.g.team a.toNat Claim.free)

/-- The word of R116. -/
def claimWord (c : Claim) (inflight : Nat) : W64 :=
  BitVec.ofNat 64 (c.state + c.cause * 2 ^ 8 + (if c.state = 0 then 0 else c.route) * 2 ^ 16 + inflight % 2 ^ 16 * 2 ^ 32)

/-- R218. -/
def execBstat (d a : F7) (s : State) : Host.Outcome State Fault Refusal :=
  wordOf (shBstat d a) s fun s c =>
    .done (c.write s (fun x => x.ws d.toNat (claimWord (s.claim c.g.team a.toNat) (s.inflight c.g.team a.toNat))))

end Sys2Proof.Machine
end

