-- ==== Sys2Proof/Machine/Collective.lean ====
section
/-! DEFINITION. Collective rounds (spec/07_claims_and_flows.md R126 to R128; spec/12_ref_memory_sync_transfer.md R219; spec/05_number_formats.md R92):
`coll`, and the steps that start and end a round. -/

namespace Sys2Proof.Machine

/-- The fields of a header that every contributor of a collective writes equally: TREE, OP, NCONTRIB, TIMEOUT, COLLID (R126). -/
def headerKey (h : BitVec 512) : List Nat := [field h 256 256, hOp h, hNcontrib h, hTimeout h, hCollid h]

/-- The counter of a contributor's rounds: its collective, its context (as the owner of its free values) and its COLL object (log entry 44). -/
def roundCounter (h : BitVec 512) (d obj : Nat) : Nat := ((hNode h 0 * 2 ^ 24 + hCollid h) * 2 ^ 54 + d) * 2 ^ 32 + obj

/-- The round of a collective with a number, if this device knows of it. -/
def State.findRound (s : State) (root collid number : Nat) : Option (Nat × Round) :=
  s.rounds.find? (fun e => decide (e.2.root.toNat = root ∧ e.2.collid = collid ∧ e.2.number = number))

/-- The contributions held here for a round. -/
def State.roundContribs (s : State) (r : Nat) : List Contrib := s.contribs.filter (fun c => decide (c.round = r))

/-- A contribution's issuer. -/
def Contrib.issuer (c : Contrib) : Issuer := ⟨c.op, c.part, c.core, c.team, c.group⟩

/-- A contribution ends without data: its token reports no byte (R128). -/
def State.endContrib (s : State) (c : Contrib) (status : Nat) : State :=
  let s1 := { s with contribs := s.contribs.filter (fun x => decide (x.op ≠ c.op)), unpub := dropAhead c.op s.unpub }
  (s1.token c.group c.op c.sd (tokenWord status 0)).freeLate c.team c.claim

/-- The contributions of a round end without data: WITHDRAWN, or SEVERED for those that `cut` names (R128). -/
def State.endContribs (s : State) (cut : Contrib → Bool) : List Contrib → State
  | [] => s
  | c :: cs => State.endContribs (s.endContrib c (if cut c then tkSevered else tkWithdrawn)) cut cs

/-- A round is over without data; a contribution that comes later finds it so. -/
def State.dropRound (s : State) (r : Nat) (cut : Contrib → Bool) : State :=
  let s1 := s.endContribs cut (s.roundContribs r)
  { s1 with rounds := Tab.modify s1.rounds r (fun x => { x with ended := true }) }

/-- Drop some rounds. -/
def State.dropRounds (s : State) (cut : Contrib → Bool) : List Nat → State
  | [] => s
  | r :: rs => State.dropRounds (s.dropRound r cut) cut rs

/-- The open rounds that wait for the contribution of a team's COLL claims, the team's context owning d. -/
def State.roundsDue (s : State) (d : Nat) (t : Team) : List Nat :=
  (t.claims.filter (fun k => decide (k.2.state ≠ 0 ∧ k.2.route = rtColl))).filterMap (fun k =>
    let h := k.2.header
    ((s.findRound (hNode h 0) (hCollid h) (Tab.get 0 s.roundNo (roundCounter h d k.2.dst.obj) + 1)).filter (fun r => !r.2.ended)).map (·.1))

/-- R128: some teams, whose context owns d, withdraw: the open rounds to which they have contributed end, and those that wait for them. -/
def State.withdraw (s : State) (d : Nat) (hit : Nat → Bool) : State :=
  let made := (s.contribs.filter (fun c => hit c.team)).map (·.round)
  let due := ((s.teams ++ s.saved.flatMap (·.2.teams)).filter (fun e => hit e.1)).flatMap (fun e => s.roundsDue d e.2)
  s.dropRounds (fun _ => false) (made ++ due).eraseDups

/-- R128: the loss of a link on the tree: SEVERED for every contributor whose claim crosses it, WITHDRAWN for the others. `tree` says of a round and its header whether the
link is its tree's. -/
def State.cutRounds (s : State) (cut : Contrib → Bool) (tree : Nat → BitVec 512 → Bool) : State :=
  let made := (s.contribs.filter cut).map (·.round)
  let open_ := (s.rounds.filter (fun e => !e.2.ended && tree e.1 e.2.header)).map (·.1)
  s.dropRounds cut (made ++ open_).eraseDups

/-- The contributions to a round leave their ports, unless their contexts have stopped (R128, R293). -/
def State.sendContribs (s : State) (r : Nat) : State :=
  { s with contribs := s.contribs.map (fun c => if c.round = r ∧ s.engineRuns c.group (0x100 + c.core / 64) .collective then { c with sent := true } else c) }

/-- R219: does a specification raise FLOW_RANGE? -/
def collBad (src dst n slen dlen : Nat) : Bool :=
  decide (n = 0 ∨ n % 8 ≠ 0 ∨ 262144 < n ∨ src % 32 ≠ 0 ∨ dst % 32 ≠ 0 ∨ slen < src + 4 * n ∨ dlen < dst + 4 * n)

/-- R219, R127: a round after a contribution with a start tick: it starts at the earliest of its contributors' ticks, at once where one has passed (log entry 44). -/
def Round.joined (r : Round) (begins now : W64) : Round :=
  if r.begun then r
  else
    let t := if begins.toNat < r.start.toNat then begins else r.start
    { r with start := t, begun := decide (t.toNat ≤ now.toNat) }

/-- The acceptance of a contribution: it joins the next round of its contributor; one that differs from the round's first contribution, or
repeats its INDEX, withdraws, and the round with it; one that comes after the round has ended WITHDRAWN ends so too. -/
def acceptColl (s : State) (c : Ctx) (sd k : Nat) (cl : Claim) (src dst n : Nat) (start : W64) : State :=
  let h := cl.header
  let d := s.domOf c.g
  let key := roundCounter h d cl.dst.obj
  let number := Tab.get 0 s.roundNo key + 1
  let s0 := { s with roundNo := Tab.put s.roundNo key number }
  let (op, s1) := s0.newUid
  let found := s1.findRound (hNode h 0) (hCollid h) number
  let (rid, s2) := match found with
    | some (r, _) => (r, s1)
    | none => s1.newUid
  let begins : W64 := if start = 0 then s2.timebase else start
  let r0 := (found.map (·.2)).getD ⟨BitVec.ofNat 16 (hNode h 0), hCollid h, number, h, begins, false, false⟩
  let r := r0.joined begins s2.timebase
  let sp := placesOf cl.src.base cl.smap ((List.range (4 * n)).map (src + ·))
  let dp := placesOf (hDest h).base cl.dmap ((List.range (4 * n)).map (dst + ·))
  let (bs, s3) := (s2.engineHot d c.g.core none (sp.map (·.1))).engineRead (s2.engineObs c.uid c.g.part c.g.core) sp
  let x : Contrib := { op := op, round := rid, part := c.g.part, launch := c.g.launch, core := c.g.core, group := c.uid, team := c.g.team, claim := k,
                       sd := sd, index := hIndex h, srcs := sp.map (·.1), snap := bs, seen := [], dsts := dp, sent := false }
  let clash := r.ended || decide (headerKey h ≠ headerKey r.header) || (s3.roundContribs rid).any (fun y => decide (y.index = x.index))
  let s4 := ({ s3 with rounds := Tab.put s3.rounds rid r, contribs := s3.contribs ++ [x], unpub := s3.unpub ++ x.issuer.blank dp }).openOp c op sd true
  if clash then s4.dropRound rid (fun _ => false) else if r.begun then s4.sendContribs rid else s4

/-- R219. -/
def execColl (d a b : F7) (s : State) : Host.Outcome State Fault Refusal :=
  wordOf (shColl d a b) s fun s c =>
    let x := s.actor c.uid c.g
    let lane := lowestLane c.mask
    let k := a.toNat
    let cl := s.claim c.g.team k
    let src := (c.regs.rs b.toNat).toNat
    let dst := (c.regs.rs (b.toNat + 1)).toNat
    let n := (c.regs.rs (b.toNat + 2)).toNat
    if cl.state = 0 then .hard s (Hard.plain fcIllOp)
    else if 3 ≤ cl.state then .hard s (Hard.plain fcRevoked)
    else if cl.route ≠ rtColl then .hard s (Hard.plain fcRoute)
    else if collBad src dst n cl.src.length (hDest cl.header).length then .hard s (Hard.plain fcRange)
    else
      match rewalk s x lane c.g.team k cl with
      | (.error e, s1) => Res.ofStop s1 e
      | (.ok cl', s1) =>
        if x.held then .hard s1 (Hard.plain fcHeld)
        else .done (acceptColl s1 c d.toNat k cl' src dst n (c.regs.rs (b.toNat + 3)))

/-! ### The steps of a round -/

/-- ROUND_START (R127): the start tick has come. -/
def execRoundStart (round : Nat) (s : State) : Host.Outcome State Fault Refusal :=
  match Tab.find s.rounds round with
  | none => .next s
  | some r =>
    .next (if !r.ended && decide (r.start.toNat ≤ s.timebase.toNat) then { s with rounds := Tab.put s.rounds round { r with begun := true } }.sendContribs round else s)

/-- The little-endian words of some bytes. -/
def wordsIn : Nat → List Byte → List W32
  | 0, _ => []
  | n + 1, bs => BitVec.ofNat 32 (ofBytes (bs.take 4)) :: wordsIn n (bs.drop 4)

/-- The levels of R92's tree over n contributors: the least k with n ≤ 2^k. -/
def treeDepth (n : Nat) : Nat := ((List.range 13).find? (fun k => decide (n ≤ 2 ^ k))).getD 13

/-- One element of a round from its contributions by index (R126, R92). -/
def reduceWord (op : Nat) (xs : List W32) : W32 :=
  if op = 1 then
    let k := treeDepth xs.length
    BitVec.ofNat 32 (fp32.enc rmRne (treeSum fp32 k (xs.map ofW ++ List.replicate (2 ^ k - xs.length) (.fin false 0 0))))
  else
    let f : W32 → W32 → W32 := if op = 0 then (· + ·) else if op = 2 then (fun a b => if a.toInt ≤ b.toInt then b else a) else f32max
    match xs with
    | [] => 0
    | x :: xs => xs.foldl f x

/-- Element i of every contribution. -/
def column (i : Nat) (vs : List (List W32)) : List W32 := vs.map (fun v => v.getD i 0)

/-- n free words. -/
def State.freeWords (s : State) (d : Nat) : Nat → List W32 × State
  | 0 => ([], s)
  | n + 1 =>
    let (f, s1) := s.fresh d
    let (fs, s2) := State.freeWords s1 d n
    (f.extractLsb' 0 32 :: fs, s2)

/-- The data of each contribution held here, by index. -/
def State.gather (s : State) : List Contrib → List (Nat × List W32) × State
  | [] => ([], s)
  | c :: cs =>
    let (bs, s1) := s.engineBytes (s.domOp c.group c.part) c.seen 0 c.snap
    let (rs, s2) := State.gather s1 cs
    ((c.index, wordsIn (bs.length / 4) bs) :: rs, s2)

/-- The destination of a contribution is written, and its token (R127). -/
def State.deliverRound (s : State) (vals : List W32) : List Contrib → State
  | [] => s
  | c :: cs =>
    let n := c.dsts.length
    let s1 := { s with contribs := s.contribs.filter (fun x => decide (x.op ≠ c.op)) }
    let s2 := ((s1.engineHot (s.domOp c.group c.part) c.core none (c.dsts.map (·.1))).engineStore c.issuer c.dsts (vals.flatMap (fun w => toBytes 4 w.toNat))).unmark
      (c.dsts.flatMap (fun d => d.1.addrs 1))
    State.deliverRound ((s2.token c.group c.op c.sd (tokenWord tkDone n)).freeLate c.team c.claim) vals cs

/-- Has a contributor withdrawn (R126, R128): another device's contribution repeats an INDEX, or its index is none of the header's, which stands for a contributor
that has withdrawn there or whose header differs; or a contributor here is a service team that a fault has stopped? -/
def State.roundBroken (s : State) (n : Nat) (cs : List Contrib) (remote : List Nat) : Bool :=
  remote.any (fun i => decide (n ≤ i) || cs.any (fun c => decide (c.index = i))) || decide (remote.eraseDups.length ≠ remote.length) ||
  cs.any (fun c => ((s.team? c.team).map (·.stopped)).getD false)

/-- ROUND_DONE (R127): the root decides the round: the contributions held here and those that other devices bring, by index. -/
def execRoundDone (round : Nat) (remote : List (Nat × List W32)) (s0 : State) : Host.Outcome State Fault Refusal :=
  match Tab.find s0.rounds round with
  | none => .next s0
  | some r =>
    let s := if r.begun then s0.sendContribs round else s0
    let cs := s.roundContribs round
    let n := hNcontrib r.header
    let idx := cs.map (·.index) ++ remote.map (·.1)
    let places := cs.flatMap (fun c => c.dsts.map (fun (d : Loc × Nat) => d.1))
    if r.ended then .next s
    else if s.roundBroken n cs (remote.map (·.1)) then .next (s.dropRound round (fun _ => false))
    else if !r.begun || !cs.all (·.sent) || !(decide (idx.length = n) && (List.range n).all (fun i => idx.contains i)) then .next s
    else if (s.snapShort places).isSome then .next (s.starveAny places)
    else
      let (mine, s1) := s.gather cs
      let all := mine ++ remote
      let vs := (List.range n).map (fun i => ((all.find? (fun e => decide (e.1 = i))).map (·.2)).getD [])
      let len := (vs.map List.length).foldl max 0
      let same := vs.all (fun v => decide (v.length = len))
      let d := (cs.head?.map (fun c => s.domOp c.group c.part)).getD domDevice
      let (vals, s2) := if same then ((List.range len).map (fun i => reduceWord (hOp r.header) (column i vs)), s1) else s1.freeWords d len
      let s3 := s2.deliverRound vals cs
      .next { s3 with rounds := Tab.del s3.rounds round }

/-- TIMEOUT (R128): the round's time has passed and some contribution is missing here. -/
def execTimeout (round : Nat) (s : State) : Host.Outcome State Fault Refusal :=
  match Tab.find s.rounds round with
  | none => .next s
  | some r =>
    if !r.ended && r.begun && decide (r.start.toNat + hTimeout r.header ≤ s.timebase.toNat) &&
      decide (((s.roundContribs round).filter (·.sent)).length < hNcontrib r.header)
    then .next (s.dropRound round (fun _ => false)) else .next s

end Sys2Proof.Machine
end

