-- ==== Sys2Proof/Machine/Tensor.lean ====
section
/-! DEFINITION. Tensors (spec/04_memory_capabilities_tensors.md R71 to R76; spec/13_ref_matrix_bounds_system.md R221 to R224, R231 to R233;
spec/12_ref_memory_sync_transfer.md R220): descriptors, elements, `tset`, `tget`, `gset`, the accumulator instructions, `tsum`, residency. -/

namespace Sys2Proof.Machine

/-! ### Descriptors (R71, R72) -/

def TEntry.data (e : TEntry) : Cap := ⟨e.desc.extractLsb' 0 128, e.dtag⟩
def TEntry.scales (e : TEntry) : Cap := ⟨e.desc.extractLsb' 128 128, e.stag⟩
def TEntry.summary (e : TEntry) : Cap := ⟨e.desc.extractLsb' 256 128, e.utag⟩
def TEntry.format (e : TEntry) : Narrow := narrowOf (e.desc.extractLsb' 384 16)
def TEntry.comp (e : TEntry) : Nat := field e.desc 400 8
def TEntry.sfmt (e : TEntry) : Nat := field e.desc 408 4
def TEntry.sblock (e : TEntry) : Nat := 16 * 2 ^ field e.desc 412 2
def TEntry.rank (e : TEntry) : Nat := field e.desc 416 8
def TEntry.resprio (e : TEntry) : Nat := field e.desc 424 3
def TEntry.eltype (e : TEntry) : Nat := field e.desc 432 8
def TEntry.dim (e : TEntry) (n : Nat) : Nat := field e.desc (448 + 32 * n) 32
def TEntry.stride (e : TEntry) (n : Nat) : Nat := field e.desc (576 + 64 * (n - 1)) 64
def TEntry.tileh (e : TEntry) : Nat := field e.desc 800 16
def TEntry.tilew (e : TEntry) : Nat := field e.desc 816 16

def elNarrow : Nat := 0
def elFp16 : Nat := 1
def elBf16 : Nat := 2
def elFp32 : Nat := 3
def elInt32 : Nat := 4

/-- R72: does the descriptor break a rule of `tset`? -/
def TEntry.bad (e : TEntry) : Bool :=
  let fw := field e.desc 384 16
  decide (field e.desc 768 32 ≠ 0 ∨ field e.desc 832 192 ≠ 0 ∨ field e.desc 440 8 ≠ 0 ∨ field e.desc 427 5 ≠ 0 ∨ field e.desc 414 2 ≠ 0) ||
  decide (4 < e.eltype ∨ 2 < e.comp ∨ 2 < e.sfmt ∨ field e.desc 412 2 = 3) ||
  (if e.eltype = elNarrow then !e.format.valid else decide (fw ≠ 0)) ||
  decide (e.rank = 0 ∨ 4 < e.rank) || (List.range 4).any (fun n => decide (e.dim n = 0 ∨ (e.rank ≤ n ∧ e.dim n ≠ 1))) ||
  (e.utag && decide (e.dim 0 % 64 ≠ 0)) ||
  decide ((e.tileh = 0) ≠ (e.tilew = 0)) ||
  decide (e.tileh ≠ 0 ∧ e.tilew ≠ 0 ∧ (e.rank = 1 ∨ e.dim 1 % e.tileh ≠ 0 ∨ e.dim 0 % e.tilew ≠ 0)) ||
  !e.dtag || (decide (e.sfmt ≠ 0) && !e.stag)

/-! ### Elements (R73) -/

/-- The storage width of an element in bits. -/
def TEntry.bits (e : TEntry) : Nat :=
  if e.eltype = elNarrow then (if e.format.bits ≤ 4 then 4 else 8)
  else if e.eltype = elFp16 ∨ e.eltype = elBf16 then 16
  else 32

/-- The position of an element of an uncompressed tensor in bits from the start of DATA. -/
def TEntry.bitOff (e : TEntry) (i3 i2 i1 i0 : Nat) : Nat :=
  let base := i3 * e.stride 3 + i2 * e.stride 2
  if e.tilew = 0 then 8 * (base + i1 * e.stride 1) + i0 * e.bits
  else
    let t := i1 / e.tileh * (e.dim 0 / e.tilew) + i0 / e.tilew
    8 * base + (t * e.tileh * e.tilew + i1 % e.tileh * e.tilew + i0 % e.tilew) * e.bits

/-- The bytes that hold an element: the first, and how many. -/
def TEntry.byteOff (e : TEntry) (i3 i2 i1 i0 : Nat) : Nat := e.bitOff i3 i2 i1 i0 / 8
def TEntry.elBytes (e : TEntry) : Nat := if e.bits ≤ 8 then 1 else e.bits / 8

/-- The code of an element from the bytes that hold it. -/
def TEntry.code (e : TEntry) (i3 i2 i1 i0 : Nat) (bs : List Byte) : Nat :=
  ofBytes bs / 2 ^ (e.bitOff i3 i2 i1 i0 % 8) % 2 ^ e.bits

/-- The value of a code: FP32 and INT32 stand for themselves (R73, R84, R86). -/
def TEntry.value (e : TEntry) (code : Nat) : Fp :=
  if e.eltype = elNarrow then e.format.dec code
  else if e.eltype = elFp16 then fp16.dec code
  else if e.eltype = elBf16 then bf16.dec code
  else fp32.dec code

/-- The decoded element as a lane holds it: FP32 (of an FP32 tensor the bits as they are), or the int32 itself. -/
def TEntry.decode (e : TEntry) (code : Nat) : W32 :=
  if e.eltype = elInt32 ∨ e.eltype = elFp32 then BitVec.ofNat 32 code
  else toW rmRne (e.value code)

/-- The tag of a decoded element (R101). -/
def TEntry.tag (e : TEntry) : ITag := if e.eltype = elInt32 then .s else .f

/-- The entry's place in the summary plane (R74). -/
def TEntry.sumOff (e : TEntry) (i3 i2 i1 i0 : Nat) : Nat := 8 * (((i3 * e.dim 2 + i2) * e.dim 1 + i1) * (e.dim 0 / 64) + i0 / 64)

/-- The place of an element's scale (R90), and its width. -/
def TEntry.scaleBytes (e : TEntry) : Nat := if e.sfmt = 2 then 2 else 1
def TEntry.scaleOff (e : TEntry) (i3 i2 i1 i0 : Nat) : Nat :=
  e.scaleBytes * (((i3 * e.dim 2 + i2) * e.dim 1 + i1) * (e.dim 0 / e.sblock) + i0 / e.sblock)

/-- The value of a scale. -/
def TEntry.scale (e : TEntry) (bs : List Byte) : Fp :=
  if e.sfmt = 0 then .fin false 1 0 else if e.sfmt = 2 then scaleP8F4 (ofBytes bs) else scaleP8 (ofBytes bs)

/-! ### tset, tget (R221 to R223) -/

/-- The entry of a tid in the partition's table. -/
def State.tensor (s : State) (p t : Nat) : Option TEntry := (s.context? p).bind (fun c => Tab.find c.tids t)

/-- The tid of a scalar, or none where its upper bits are set. -/
def tidOf (x : W64) : Option Nat := if field x 12 52 = 0 then some (field x 0 12) else none

/-- R221. -/
def execTset (a b : F7) (s : State) : Host.Outcome State Fault Refusal :=
  wordOf (shTset a b) s fun s c =>
    let x := s.actor c.uid c.g
    let o := (c.regs.rs b.toNat).toNat
    let h (cause : Nat) : Hard := ⟨cause, lowestLane c.mask, 0, o, 0⟩
    match tidOf (c.regs.rs a.toNat) with
    | none => .hard s (Hard.plain fcIllOp)
    | some t =>
      if x.tm < o + 128 then .hard s (h fcBounds)
      else if o % 16 ≠ 0 then .hard s (h fcAlign)
      else
        let (bs, s1) := s.fetchBytes x 0 (.team x.team o) 128
        let tag (n : Nat) : Bool := s.tagAt (.team x.team (o + 16 * n))
        let e : TEntry := ⟨BitVec.ofNat 1024 (ofBytes bs), tag 0, tag 1, tag 2⟩
        if e.bad then .hard s1 (Hard.plain fcIllOp)
        else .done (s1.onContext c.g.part (fun k => { k with tids := Tab.put k.tids t e }))

/-- R223: a field of an entry. -/
def tgetField (e : TEntry) (n : Nat) : W64 :=
  if n ≤ 3 then BitVec.ofNat 64 (e.dim n)
  else if n ≤ 6 then BitVec.ofNat 64 (e.stride (n - 3))
  else if n = 7 then e.desc.extractLsb' 384 64
  else if n = 8 then (e.desc.extractLsb' 800 32).setWidth 64
  else BitVec.allOnes 64

/-- R223. -/
def execTget (d a n : F7) (s : State) : Host.Outcome State Fault Refusal :=
  wordOf (shTget d a n) s fun s c =>
    match tidOf (c.regs.rs a.toNat) with
    | none => .hard s (Hard.plain fcIllOp)
    | some t =>
      let v := match s.tensor c.g.part t with
        | none => 0
        | some e => tgetField e n.toNat
      .done (c.write s (fun x => x.ws d.toNat v))

/-! ### gset (R224) -/

def gangCount (g : W64) : Nat := field g 0 3
def gangBands (g : W64) : Nat := field g 3 1
def gangMember (g : W64) (i : Nat) : Nat := field g (8 * i + 8) 8

/-- The members of a gang value. -/
def gangMembers (g : W64) : List Nat := (List.range (gangCount g)).map (gangMember g)

/-- R224: would `gset` refuse the value? -/
def gangBad (g : W64) : Bool :=
  let n := gangCount g
  decide (n = 0 ∨ n = 7 ∨ (gangBands g = 1 ∧ n % 2 = 1) ∨ (gangBands g = 0 ∧ 4 < n) ∨ field g 4 4 ≠ 0 ∨ field g 56 8 ≠ 0) ||
  (List.range 6).any (fun i => decide (n ≤ i ∧ gangMember g i ≠ 0)) ||
  (List.range n).any (fun i => (List.range i).any (fun j => decide (gangMember g i = gangMember g j)))

/-- R224. -/
def execGset (d a : F7) (s : State) : Host.Outcome State Fault Refusal :=
  wordOf (shGset d a) s fun s c =>
    let v := c.regs.rs a.toNat
    if gangBad v then .hard s (Hard.plain fcIllOp) else .done (c.write s (fun x => x.wg d.toNat v))

/-! ### The accumulator store (R69, R231, R232) -/

/-- The key of an accumulator of a team's band. -/
def accKey (row col : Nat) : Nat := 512 * row + col

/-- Is the word a matrix operation? -/
def isMmx : Instr → Bool
  | .mmx _ _ _ => true
  | .mmxz _ _ _ => true
  | _ => false

/-- R231: does the group wait for an earlier `mmx` or `mmxz` of its own: accepted, at the latch, or in its operand log? -/
def State.matrixBusy (s : State) (uid : Nat) : Bool :=
  s.mats.any (fun e => decide (e.2.group = uid)) || s.latch.any (fun w => decide (w.group = uid)) ||
    (match s.group? uid with
      | none => false
      | some g => g.log.any (fun e => isMmx e.word))

/-- The fields of R226. -/
def spRow0 (q : List W64) : Nat := field (q.getD 0 0) 0 9
def spCol0 (q : List W64) : Nat := field (q.getD 0 0) 9 9
def spM (q : List W64) : Nat := 64 * (field (q.getD 0 0) 18 3 + 1)
def spN (q : List W64) : Nat := 64 * (field (q.getD 0 0) 21 3 + 1)
def spA (q : List W64) : Nat := field (q.getD 1 0) 0 12
def spARow (q : List W64) : Nat := field (q.getD 1 0) 12 32
def spB (q : List W64) : Nat := field (q.getD 2 0) 0 12
def spBCol (q : List W64) : Nat := field (q.getD 2 0) 12 32
def spK (q : List W64) : Nat := 32 * field (q.getD 3 0) 0 16
def spK0 (q : List W64) : Nat := field (q.getD 3 0) 16 32

/-- Does a queued operation cover an accumulator of its team's band? -/
def MatOp.covers (m : MatOp) (row col : Nat) : Bool :=
  decide (spRow0 m.spec ≤ row ∧ row < spRow0 m.spec + spM m.spec ∧ spCol0 m.spec ≤ col ∧ col < spCol0 m.spec + spN m.spec)

/-- R232: another group's accumulator instruction meets the queued operations of the team on these accumulators: they are undefined, now and
after the operation. -/
def State.meetMats (s : State) (uid team : Nat) (cells : List (Nat × Nat)) : State :=
  let foreign (m : MatOp) : Bool := decide (m.team = team ∧ m.group ≠ uid)
  let hit := cells.filter (fun c => s.mats.any (fun e => foreign e.2 && e.2.covers c.1 c.2))
  if hit.isEmpty then s
  else
    let keys := hit.map (fun c => accKey c.1 c.2)
    let mark (m : MatOp) : MatOp := if foreign m then { m with spoil := m.spoil ++ (hit.filter (fun c => m.covers c.1 c.2)).map (fun c => accKey c.1 c.2) } else m
    ({ s with mats := s.mats.map (fun e => (e.1, mark e.2)) } : State).onTeam team
      (fun t => { t with accBad := keys.foldl (fun b k => Tab.set false b k true) t.accBad })

/-- An accumulator's value; of an undefined one, a free value. -/
def State.accRead (s : State) (d team k : Nat) : W96 × State :=
  match s.team? team with
  | none => (0, s)
  | some t =>
    if Tab.get false t.accBad k then
      let (f, s1) := s.fresh d
      let (g, s2) := s1.fresh d
      ((f ++ g).extractLsb' 0 96, s2)
    else (Tab.get 0 t.acc k, s)

/-- The values of some accumulators. -/
def State.accReads (s : State) (d team : Nat) : List Nat → List W96 × State
  | [] => ([], s)
  | k :: ks =>
    let (v, s1) := s.accRead d team k
    let (vs, s2) := State.accReads s1 d team ks
    (v :: vs, s2)

/-- Write an accumulator: it is defined from then on. -/
def Team.accPut (t : Team) (k : Nat) (v : W96) : Team := { t with acc := Tab.set 0 t.acc k v, accBad := Tab.set false t.accBad k false }

def Team.accPuts (t : Team) : List (Nat × W96) → Team
  | [] => t
  | (k, v) :: r => Team.accPuts (t.accPut k v) r

/-- The rows of the team's band. -/
def State.accRows (s : State) (g : Group) : Nat := ((s.team? g.team).map (·.accRows)).getD 0

/-- The fault of a row or column block outside the band. -/
def accFault (c : Ctx) : Hard := { Hard.plain fcBounds with lane := lowestLane c.mask }

/-- The accumulators that the executing lanes name: row, column 64·block + lane. -/
def Ctx.accCells (c : Ctx) (row block : Nat) : List (Nat × Nat) := c.lanes.map (fun l => (row, 64 * block + l))

/-- R231: in bounds mode element work, TOP of tag F. -/
def execAccrd (d a b : F7) (s : State) : Host.Outcome State Fault Refusal :=
  wordOf (shAccrd d a b) s fun s c =>
    let row := (c.regs.rs a.toNat).toNat
    let blk := (c.regs.rs b.toNat).toNat
    if c.g.mode = 1 then
      .done (c.writeIvs (s.onGroup c.uid (fun g => g.onLanes c.mask (fun _ x => { x with tile := x.tile.map (fun t => { t with work := true }) })))
        d.toNat (fun _ => Iv.top .f) c.lanes)
    else if s.matrixBusy c.uid then .wait s
    else if s.accRows c.g ≤ row ∨ 8 ≤ blk then .hard s (accFault c)
    else
      let cells := c.accCells row blk
      let s1 := s.meetMats c.uid c.g.team cells
      let (vs, s2) := s1.accReads (s.domOf c.g) c.g.team (cells.map (fun e => accKey e.1 e.2))
      let at_ (l : Nat) : W96 := (((c.lanes.zip vs).find? (fun e => decide (e.1 = l))).map (·.2)).getD 0
      .done (c.write s2 (fun x => x.wvs d.toNat (fun l => toW c.rm (fp96.dec (at_ l).toNat)) c.lanes))

/-- R231. -/
def execAccadd (d a b : F7) (s : State) : Host.Outcome State Fault Refusal :=
  wordOf (shAccadd d a b) s fun s c =>
    let row := (c.regs.rs a.toNat).toNat
    let blk := (c.regs.rs b.toNat).toNat
    if s.matrixBusy c.uid then .wait s
    else if s.accRows c.g ≤ row ∨ 8 ≤ blk then .hard s (accFault c)
    else
      let cells := c.accCells row blk
      let keys := cells.map (fun e => accKey e.1 e.2)
      let (vs, s1) := s.accReads (s.domOf c.g) c.g.team keys
      let new (l : Nat) (v : W96) : W96 := BitVec.ofNat 96 (fp96.enc rmRne (Fp.add rmRne (fp96.dec v.toNat) (ofW (c.regs.rv d.toNat l))))
      let put : List (Nat × W96) := (c.lanes.zip (keys.zip vs)).map (fun e => (e.2.1, new e.1 e.2.2))
      .done ((s1.onTeam c.g.team (·.accPuts put)).meetMats c.uid c.g.team cells)

/-- R231. -/
def execAccclr (a b : F7) (s : State) : Host.Outcome State Fault Refusal :=
  wordOf (shAccclr a b) s fun s c =>
    let row := (c.regs.rs a.toNat).toNat
    let n := (c.regs.rs b.toNat).toNat
    if s.matrixBusy c.uid then .wait s
    else if n = 0 ∨ s.accRows c.g < row + n then .hard s (accFault c)
    else
      let lo := accKey row 0
      let s1 := s.onTeam c.g.team (fun t => { t with acc := Tab.clear t.acc lo (512 * n), accBad := Tab.clear t.accBad lo (512 * n) })
      .done (s1.meetMats c.uid c.g.team ((List.range n).flatMap (fun r => (List.range 512).map (fun k => (row + r, k)))))

/-! ### tsum (R233, R74) -/

/-- The blocks of 64 elements of a tensor along dimension 0: their indices. -/
def TEntry.blocks (e : TEntry) : List (Nat × Nat × Nat × Nat) :=
  (List.range (e.dim 3)).flatMap (fun i3 => (List.range (e.dim 2)).flatMap (fun i2 => (List.range (e.dim 1)).flatMap (fun i1 =>
    (List.range (e.dim 0 / 64)).map (fun b => (i3, i2, i1, b)))))

/-- Does every element of the tensor lie in a DATA window of this length, by its rows' last elements? -/
def TEntry.fits (e : TEntry) (len : Nat) : Bool :=
  (List.range (e.dim 3)).all (fun i3 => (List.range (e.dim 2)).all (fun i2 => (List.range (e.dim 1)).all (fun i1 =>
    decide (e.byteOff i3 i2 i1 (e.dim 0 - 1) + e.elBytes ≤ len))))

/-- The kinds that a tensor's capability may have (R63). -/
def tensorKinds : List Nat := [kMem, kTeam]

/-- R62 steps 1 and 2 on an entry's capability. -/
def tensorCap (s : State) (x : Actor) (lane : Option Nat) (need : Nat) (c : Cap) : Option Hard × State := capStep s x lane tensorKinds need c

/-- R62 steps 1 and 2 on some capabilities in turn, each with the right that its use needs. -/
def tensorCaps (s : State) (x : Actor) (lane : Option Nat) : List (Nat × Cap) → Option Hard × State
  | [] => (none, s)
  | (need, c) :: cs =>
    match tensorCap s x lane need c with
    | (some h, s1) => (some h, s1)
    | (none, s1) => tensorCaps s1 x lane cs

/-- The little-endian summary entry of a block's decoded values (R74). -/
def sumEntry (e : TEntry) (vs : List W32) : Nat :=
  if e.eltype = elInt32 then
    let lo := vs.foldl (fun a b => if a.toInt ≤ b.toInt then a else b) (vs.headD 0)
    let hi := vs.foldl (fun a b => if a.toInt ≤ b.toInt then b else a) (vs.headD 0)
    lo.toNat + hi.toNat * 2 ^ 32
  else if vs.any (fun v => isNaNCode fp32 v.toNat) then 0x7FC00000 + 0x7FC00000 * 2 ^ 32
  else
    let lo := vs.foldl f32min (vs.headD 0)
    let hi := vs.foldl f32max (vs.headD 0)
    lo.toNat + hi.toNat * 2 ^ 32

/-- The summary of a tensor from the bytes of its DATA window, in the order of its entries. -/
def TEntry.summarise (e : TEntry) (bs : List Byte) : List Nat :=
  e.blocks.map (fun (i3, i2, i1, b) =>
    sumEntry e ((List.range 64).map (fun k =>
      let i0 := 64 * b + k
      e.decode (e.code i3 i2 i1 i0 ((bs.drop (e.byteOff i3 i2 i1 i0)).take e.elBytes)))))

/-- The bytes that a tensor's plane takes. -/
def TEntry.planeBytes (e : TEntry) : Nat := 8 * (e.dim 3 * e.dim 2 * e.dim 1 * (e.dim 0 / 64))

/-- The places of the first n bytes of a window. -/
def windowPlaces (c : Cap) (ps : List Span) (n : Nat) : List (Loc × Nat) := placesOf c.base ps (List.range n)

/-- The acceptance of a `tsum` by the core's copy engine (R233). -/
def acceptTsum (s : State) (c : Ctx) (sd : Nat) (e : TEntry) (data summary : List Span) : State :=
  let (op, s1) := s.newUid
  let src := windowPlaces e.data data e.data.length
  let dst := windowPlaces e.summary summary e.planeBytes
  let (bs, s2) := (s1.engineHot (s.domOf c.g) c.g.core none (src.map (·.1))).engineRead (s1.engineObs c.uid c.g.part c.g.core) src
  let o : CopyOp := { core := c.g.core, part := c.g.part, launch := c.g.launch, team := c.g.team, group := c.uid, sd := sd, claim := none,
                      srcs := src.map (·.1), snap := bs, seen := [], dsts := dst, entry := some e }
  let ahead := ((o.issuer op).ahead false dst ((e.summarise bs).flatMap (toBytes 8))).filter (fun u => !queueReg s2.queues u.loc)
  let s3 := ({ s2 with copies := Tab.put s2.copies op o, unpub := s2.unpub ++ ahead }).openOp c op sd false
  s3.onGroup c.uid (fun g => { g with tokens := g.tokens ++ [(sd, op)] })

/-- R233, R121: the walk of the windows; a `tsum` that finds two operations accepted waits. -/
def execTsum (d a : F7) (s : State) : Host.Outcome State Fault Refusal :=
  wordOf (shTsum d a) s fun s c =>
    let x := s.actor c.uid c.g
    let lane := lowestLane c.mask
    match (tidOf (c.regs.rs a.toNat)).bind (s.tensor c.g.part) with
    | none => .hard s (Hard.plain fcIllOp)
    | some e =>
      if !e.utag || decide (e.comp ≠ 0) || decide (2 ^ 24 < e.data.length) then .hard s (Hard.plain fcIllOp)
      else
        let h (cap : Cap) : Hard := ⟨fcBounds, lane, cap.obj, cap.base, 0⟩
        match tensorCaps s x lane [(rR, e.data), (rW, e.summary)] with
        | (some h, s0) => .hard s0 h
        | (none, s0) =>
          match (allocStep x lane e.data).orElse (fun _ => allocStep x lane e.summary) with
          | some h => .hard s0 h
          | none =>
            if !e.fits e.data.length then .hard s0 (h e.data)
            else if e.summary.length < e.planeBytes then .hard s0 (h e.summary)
            else
              let (rd, s1) := s0.walkWindow x e.data
              let (rs, s2) := s1.walkWindow x e.summary
              match windowsStop s2 x lane [(e.data, rd), (e.summary, rs)] with
              | some st => Res.ofStop s2 st
              | none =>
                if (peersOf (spansOf rd ++ spansOf rs) none).any (fun p => !s2.linkUp x.obs.part p) then .hard s2 { Hard.plain fcSevered with lane := lane }
                else if x.held then .hard s2 (Hard.plain fcHeld)
                else if 2 ≤ s2.accepted c.g.core ∨ !s2.engineRuns c.uid c.g.core .copyEngine then .wait s2
                else .done (acceptTsum s2 c d.toNat e (spansOf rd) (spansOf rs))

/-- TSUM_END (R233): the plane is rewritten and the token counts its entries. -/
def execTsumEnd (op : Nat) (s : State) : Host.Outcome State Fault Refusal :=
  match Tab.find s.copies op with
  | none => .next s
  | some o =>
    match o.entry with
    | none => .next s
    | some e =>
      if (s.snapShort (o.dsts.map (·.1))).isSome then .next (s.starveAny (o.dsts.map (·.1)))
      else
        let d := s.domOp o.group o.part
        let (bs, s1) := s.engineBytes d o.seen 0 o.snap
        let s2 := { s1 with copies := Tab.del s1.copies op }
        let s3 := (s2.engineHot d o.core none (o.dsts.map (·.1))).engineStore (o.issuer op) o.dsts ((e.summarise bs).flatMap (toBytes 8))
        let s4 := s3.unmark (o.dsts.flatMap (fun x => x.1.addrs 1))
        let s5 := { s4 with unpub := dropAhead op s4.unpub }
        .next (s5.token o.group op o.sd (tokenWord tkDone (e.planeBytes / 8)))

/-! ### Residency (R76, R220) -/

/-- The capabilities of a tensor's unit. -/
def TEntry.windows (e : TEntry) : List Cap := [e.data] ++ (if e.sfmt ≠ 0 then [e.scales] else []) ++ (if e.utag then [e.summary] else [])

/-- R220: do all the windows lie in objects placed in the partition's vaults or FAR memory? -/
def State.movable (s : State) (p : Nat) (e : TEntry) : Bool :=
  e.windows.all (fun c => decide (c.kind = kMem) && (match s.objEntry (s.tbOf p) c.obj with
    | .at o => decide (o.place = plFar) || (decide (o.place = plVault) && (match s.part? p with
      | none => false
      | some x => Part.hasVault p x o.vault))
    | _ => false))

/-- Queue a residency request. -/
def State.askMove (s : State) (p t : Nat) (vault : Option Nat) : State :=
  s.onPart p (fun x => { x with resid := x.resid ++ [⟨t, vault, false, false, []⟩], declined := x.declined.filter (fun d => decide (d ≠ t)) })

/-- R220. -/
def execRprio (a b : F7) (s : State) : Host.Outcome State Fault Refusal :=
  wordOf (shRprio a b) s fun s c =>
    let n := c.regs.rs b.toNat
    match tidOf (c.regs.rs a.toNat) with
    | none => .hard s (Hard.plain fcIllOp)
    | some t =>
      match s.tensor c.g.part t with
      | none => .hard s (Hard.plain fcIllOp)
      | some e =>
        if field n 3 61 ≠ 0 then .hard s (Hard.plain fcIllOp)
        else .done (s.onContext c.g.part (fun k => { k with tids := Tab.put k.tids t { e with desc := setField e.desc 424 3 n.toNat } }))

/-- R220. -/
def execRdemote (a : F7) (s : State) : Host.Outcome State Fault Refusal :=
  wordOf (shRdemote a) s fun s c =>
    match tidOf (c.regs.rs a.toNat) with
    | none => .hard s (Hard.plain fcIllOp)
    | some t =>
      match s.tensor c.g.part t with
      | none => .hard s (Hard.plain fcIllOp)
      | some e => if !s.movable c.g.part e then .hard s (Hard.plain fcIllOp) else .done (s.askMove c.g.part t none)

/-- R220: 0xFF names the vault beneath the issuing core's cluster. -/
def execRpromote (a b : F7) (s : State) : Host.Outcome State Fault Refusal :=
  wordOf (shRpromote a b) s fun s c =>
    let n := c.regs.rs b.toNat
    match tidOf (c.regs.rs a.toNat) with
    | none => .hard s (Hard.plain fcIllOp)
    | some t =>
      match s.tensor c.g.part t with
      | none => .hard s (Hard.plain fcIllOp)
      | some e =>
        let own (v : Nat) : Bool := match s.part? c.g.part with
          | none => false
          | some x => Part.hasVault c.g.part x v
        if field n 8 56 ≠ 0 ∨ (n ≠ 0xFF ∧ !own n.toNat) ∨ !s.movable c.g.part e then .hard s (Hard.plain fcIllOp)
        else .done (s.askMove c.g.part t (some (if n = 0xFF then c.g.core / 8 else n.toNat)))

/-- The vault of the first DATA page: by its frame, else by the placement of its object; 0xFF for FAR. -/
def State.firstVault (s : State) (p : Nat) (c : Cap) : Nat :=
  match s.walk p (s.tbOf p) kMem c.obj c.base 1 with
  | .at t => (match t.loc with
    | .dev m => (Config.vaultOf m).getD 0xFF
    | _ => 0xFF)
  | _ => match s.objEntry (s.tbOf p) c.obj with
    | .at e => if e.place = plVault then e.vault else 0xFF
    | _ => 0xFF

/-- R220. -/
def execRquery (d a : F7) (s : State) : Host.Outcome State Fault Refusal :=
  wordOf (shRquery d a) s fun s c =>
    match tidOf (c.regs.rs a.toNat) with
    | none => .hard s (Hard.plain fcIllOp)
    | some t =>
      match s.tensor c.g.part t with
      | none => .hard s (Hard.plain fcIllOp)
      | some e =>
        let x := s.part? c.g.part
        let moving := (x.map (fun x => x.resid.any (fun r => decide (r.tid = t)))).getD false
        let declined := (x.map (fun x => x.declined.contains t)).getD false
        let v := (if e.data.kind = kMem then s.firstVault c.g.part e.data else 0xFF) + (if moving then 2 ^ 8 else 0) + (if declined then 2 ^ 9 else 0) +
          e.resprio * 2 ^ 10
        .done (c.write s (fun y => y.ws d.toNat (BitVec.ofNat 64 v)))

end Sys2Proof.Machine
end

