-- ==== Sys2Proof/Machine/Matrix.lean ====
section
/-! DEFINITION. The matrix array (spec/13_ref_matrix_bounds_system.md R225 to R230; spec/05_number_formats.md R90 to R95): gangs, the rendezvous latch,
`mmx` and `mmxz`, and the end of an operation. -/

namespace Sys2Proof.Machine

/-! ### Gang members (R224, R225) -/

/-- LVL2 of a team (R20): its index within its level-3 span; 0 when NLVL is 3. -/
def Launch.lvl2 (l : Launch) (tid : Nat) : Nat := l.levelId tid 2

/-- The first TEAMID of the team's level-3 span. -/
def Launch.spanBase (l : Launch) (tid : Nat) : Nat := tid - l.lvl2 tid

/-- The group that a member byte names, from the issuer's team. -/
def State.memberGroup (s : State) (launch base : Nat) (byte : Nat) : Option (Nat × Group) :=
  s.groups.find? (fun e => decide (e.2.launch = launch ∧ e.2.gid = byte % 32) && decide (((s.team? e.2.team).map (·.tid)) = some (base + byte / 32)))

/-- The number of column bands, the row band and the column band of a member (R224). -/
def gangCols (g : W64) : Nat := gangCount g / (gangBands g + 1)
def gangBandOf (g : W64) (i : Nat) : Nat := i / gangCols g

/-- R225: does the gang break the conditions on its launch or its members? -/
def gangMisfit (l : Launch) (tid gid : Nat) (g : W64) : Bool :=
  let many := decide (1 < gangCount g)
  let cores := if l.nlvl ≤ 3 then 1 else l.extent 3
  (many && !(decide (4 ≤ l.nlvl) && decide (l.domain 3 = 0) && decide (l.extent 3 ≤ 8))) ||
  (gangMembers g).any (fun m => decide (cores ≤ m / 32 ∨ l.groupsPerTeam ≤ m % 32)) ||
  !(gangMembers g).contains (l.lvl2 tid * 32 + gid)

/-! ### The checks of an operand (R227, R90, R95) -/

/-- R227 check 1: bits outside the fields, or no block. -/
def specBad (q : List W64) : Bool :=
  decide (field (q.getD 0 0) 24 40 ≠ 0 ∨ field (q.getD 1 0) 44 20 ≠ 0 ∨ field (q.getD 2 0) 44 20 ≠ 0 ∨ field (q.getD 3 0) 48 16 ≠ 0 ∨ spK q = 0)

/-- R227 check 3: DATA of the kind, SCALES of kind TEAM, each with R. -/
def operandKinds (e : TEntry) (kind : Nat) : Bool :=
  decide (e.data.kind = kind) && e.data.has rR && (decide (e.sfmt = 0) || (decide (e.scales.kind = kTeam) && e.scales.has rR))

/-- R227 check 4, R90, R95: an element type or a shape that the array does not take. -/
def operandShape (e : TEntry) : Bool :=
  decide (e.eltype = elFp32 ∨ e.eltype = elInt32) || (decide (e.sfmt ≠ 0) && decide (e.dim 0 % e.sblock ≠ 0)) ||
  (decide (e.comp ≠ 0) && (decide (e.tilew ≠ 0) || decide (e.dim 0 % (if e.comp = 1 then 64 else 256) ≠ 0)))

/-! ### Rows of a tensor (R73, R93, R94) -/

/-- A list of bytes read as a window: byte x, or a free value beyond it is the reader's concern: `none`. -/
def byteIn (bs : List Byte) (x : Nat) : Option Byte := bs[x]?

/-- n bytes of a window from x on; bytes beyond it read as 0 (`MatOp.ranOut` frees what would rest on them). -/
def bytesIn (bs : List Byte) (x n : Nat) : List Byte := (List.range n).map (fun i => (byteIn bs (x + i)).getD 0)

/-- Bits [k·w + w - 1 : k·w] of some bytes. -/
def packedCode (bs : List Byte) (w k : Nat) : Nat := ofBytes bs / 2 ^ (w * k) % 2 ^ w

/-- The bytes that n packed codes of w bits take. -/
def packedLen (w n : Nat) : Nat := (w * n + 7) / 8

/-- The codes of a SPARSE64 group by its mask and the packed codes of its set bits (R93). -/
def sparseCodes (w : Nat) (mask : Nat) (codes : List Byte) : Nat → Nat → List Nat
  | 0, _ => []
  | n + 1, t =>
    if mask / 2 ^ t % 2 = 1 then packedCode codes w (popcount (BitVec.ofNat 64 mask) t) :: sparseCodes w mask codes n (t + 1)
    else 0 :: sparseCodes w mask codes n (t + 1)

/-- n groups of a SPARSE64 row: the codes, and the offset after them. -/
def sparseRow (w : Nat) (bs : List Byte) : Nat → Nat → List Nat × Nat
  | 0, x => ([], x)
  | n + 1, x =>
    let mask := ofBytes (bytesIn bs x 8)
    let len := packedLen w (popcount (BitVec.ofNat 64 mask) 64)
    let (cs, y) := sparseRow w bs n (x + 8 + len)
    (sparseCodes w mask (bytesIn bs (x + 8) len) 64 0 ++ cs, y)

/-- n groups of a PALETTE16 row (R94). -/
def paletteRow (w : Nat) (bs : List Byte) : Nat → Nat → List Nat × Nat
  | 0, x => ([], x)
  | n + 1, x =>
    let len := packedLen w 16
    let pal := bytesIn bs x len
    let idx (t : Nat) : Nat := ((byteIn bs (x + len + t / 2)).getD 0).toNat / 2 ^ (4 * (t % 2)) % 16
    let (cs, y) := paletteRow w bs n (x + len + 128)
    ((List.range 256).map (fun t => packedCode pal w (idx t)) ++ cs, y)

/-- The codes of a compressed row of B, and the offset after them. -/
def TEntry.row (e : TEntry) (bs : List Byte) (i1 : Nat) : List Nat × Nat :=
  let x := i1 * e.stride 1
  if e.comp = 1 then sparseRow e.bits bs (e.dim 0 / 64) x else paletteRow e.bits bs (e.dim 0 / 256) x

/-- The codes of elements k0 to k0 + n - 1 of row i1 from the bytes of DATA. -/
def TEntry.rowCodes (e : TEntry) (bs : List Byte) (i1 k0 n : Nat) : List Nat :=
  if e.comp = 0 then (List.range n).map (fun k => e.code 0 0 i1 (k0 + k) (bytesIn bs (e.byteOff 0 0 i1 (k0 + k)) e.elBytes))
  else ((e.row bs i1).1.drop k0).take n

/-- The scaled elements of a row, exact (R91). -/
def TEntry.rowValues (e : TEntry) (data scale : List Byte) (i1 k0 n : Nat) : List Fp :=
  (e.rowCodes data i1 k0 n).zipIdx.map (fun (c, k) => Fp.mul (e.value c) (e.scale (bytesIn scale (e.scaleOff 0 0 i1 (k0 + k)) e.scaleBytes)))

/-- R227 check 5 on an operand: its rows and columns, and the bytes of its windows, of `len` and `slen` bytes, as they stand for a compressed one. -/
def operandBounds (e : TEntry) (row rows k0 k len slen : Nat) (data : List Byte) : Bool :=
  decide (e.dim 1 < row + rows) || decide (e.dim 0 < k0 + k) ||
  (List.range rows).any (fun r =>
    (if e.comp = 0 then decide (len < e.byteOff 0 0 (row + r) (k0 + k - 1) + e.elBytes) else decide (len < (e.row data (row + r)).2)) ||
    (decide (e.sfmt ≠ 0) && decide (slen < e.scaleOff 0 0 (row + r) (k0 + k - 1) + e.scaleBytes)))

/-! ### The places of an operand -/

/-- The bytes of a window that lie in the team's allocation (R67, R68). -/
def ownLen (x : Actor) (c : Cap) : Nat := min c.length ((if c.kind = kWbuf then x.wb else x.tm) - c.base)

/-- The places of a window in the issuer's own store, with their key slots. -/
def ownPlaces (x : Actor) (c : Cap) : List (Loc × Nat) :=
  (List.range (ownLen x c)).map (fun i => (if c.kind = kWbuf then .wbuf x.team (c.base + i) else .team x.team (c.base + i), 0))

/-- Nothing to read. -/
def ReadSet.empty : ReadSet := ⟨[], [], []⟩

/-- An operand's window as an engine reads it from now on (R132). -/
def State.readSet (s : State) (x : Actor) (c : Cap) : ReadSet × State :=
  let ps := ownPlaces x c
  let (bs, s1) := s.engineRead (s.engineObs x.obs.group x.obs.part x.obs.core) ps
  (⟨ps.map (·.1), bs, []⟩, s1)

/-- The data and the scales of an operand as an engine reads them from now on. -/
def State.readOperand (s : State) (x : Actor) (e : TEntry) : ReadSet × ReadSet × State :=
  let (d, s1) := s.readSet x e.data
  if e.sfmt = 0 then (d, .empty, s1)
  else
    let (c, s2) := s1.readSet x e.scales
    (d, c, s2)

/-- The bytes of a set when the operation ends. -/
def State.readDone (s : State) (d : Nat) (r : ReadSet) : List Byte × State := s.engineBytes d r.seen 0 r.snap

/-! ### Issue (R226, R227) -/

/-- The first failing check of R225 and of R227's 1 to 4. -/
def mmxFault (s : State) (g : Group) (gang : W64) (q : List W64) (ea eb : TEntry) : Option Nat :=
  let misfit := match s.launch? g.launch, s.team? g.team with
    | some l, some t => gangMisfit l t.tid g.gid gang
    | _, _ => true
  let two (f : TEntry → Bool) : Bool := f ea || f eb
  if specBad q || gangBad gang || misfit then some fcIllOp
  else if two (fun e => !e.dtag || (decide (e.sfmt ≠ 0) && !e.stag)) then some fcTag
  else if !operandKinds ea kTeam || !operandKinds eb kWbuf then some fcRights
  else if two operandShape || decide (ea.comp ≠ 0) then some fcIllOp
  else none

/-- R227's check 5: `bd` are the bytes of B's DATA. -/
def mmxOutside (s : State) (x : Actor) (g : Group) (q : List W64) (ea eb : TEntry) (bd : List Byte) : Bool :=
  operandBounds ea (spARow q) (spM q) (spK0 q) (spK q) (ownLen x ea.data) (ownLen x ea.scales) [] ||
  operandBounds eb (spBCol q) (spN q) (spK0 q) (spK q) (ownLen x eb.data) (ownLen x eb.scales) bd ||
  decide (s.accRows g < spRow0 q + spM q ∨ 512 < spCol0 q + spN q)

/-- Is a group the first member of its row band, from whose team memory A is read (R227)? -/
def bandFirst (gang : W64) (l2 gid : Nat) : Bool := decide ((gangMembers gang).idxOf (l2 * 32 + gid) % gangCols gang = 0)

/-- Does the issuer hold A for its row band? -/
def State.holdsA (s : State) (g : Group) (gang : W64) : Bool :=
  match s.launch? g.launch, s.team? g.team with
  | some l, some t => bandFirst gang (l.lvl2 t.tid) g.gid
  | _, _ => false

/-- `mmx` and `mmxz` (R226): the lanes park at the latch; the engine's reads start with the word (R132). -/
def mmxWord (sh : Shape) (zero : Bool) (d a b : F7) (s : State) : Host.Outcome State Fault Refusal :=
  wordOf sh s fun s c =>
    let x := s.actor c.uid c.g
    let h (cause : Nat) : Hard := { Hard.plain cause with lane := lowestLane c.mask }
    let gang := c.regs.rg a.toNat
    let q := (List.range 4).map (fun i => c.regs.rs (b.toNat + i))
    match s.tensor c.g.part (spA q), s.tensor c.g.part (spB q) with
    | some ea, some eb =>
      match mmxFault s c.g gang q ea eb with
      | some cause => .hard s (h cause)
      | none =>
        let (bd, bs, s1) := s.readOperand x eb
        if mmxOutside s x c.g q ea eb bd.snap then .hard s1 (h fcBounds)
        else
          let (ad, as, s2) := if s.holdsA c.g gang then s1.readOperand x ea else (.empty, .empty, s1)
          let w : Waiter := { cluster := c.g.core / 8, gang := gang, group := c.uid, zero := zero, spec := q, aEnt := ea, bEnt := eb, aData := ad, aScale := as,
                              bData := bd, bScale := bs, sd := d.toNat, mask := c.mask, pc := c.pc, since := s.watchOf c.g }
          let s3 := s2.onGroup c.uid (fun g => { g with pend := g.pend ++ [⟨.s d.toNat, .reply, c.pc⟩] })
          .moved (c.park { s3 with latch := s3.latch ++ [w] } .gang (s.watchOf c.g))
    | _, _ => .hard s (h fcIllOp)

/-- R226. -/
def execMmx (d a b : F7) (s : State) : Host.Outcome State Fault Refusal := mmxWord (shMmx d a b) false d a b s

/-- R226. -/
def execMmxz (d a b : F7) (s : State) : Host.Outcome State Fault Refusal := mmxWord (shMmxz d a b) true d a b s

/-! ### The rendezvous (R228) -/

/-- The launch and first TEAMID of the span of a waiter's group. -/
def State.spanOf (s : State) (uid : Nat) : Option (Nat × Nat) :=
  match s.group? uid with
  | none => none
  | some g => match s.launch? g.launch, s.team? g.team with
    | some l, some t => some (g.launch, l.spanBase t.tid)
    | _, _ => none

/-- The members that have issued: for each, its oldest waiter with the gang value (R228). -/
def State.gangWaiters (s : State) (cluster : Nat) (gang : W64) (launch base : Nat) : List (Option Waiter) :=
  (gangMembers gang).map (fun m => match s.memberGroup launch base m with
    | none => none
    | some (u, _) => s.latch.find? (fun w => decide (w.cluster = cluster ∧ w.gang = gang ∧ w.group = u)))

/-- Some waiters without the absent. -/
def present : List (Option Waiter) → List Waiter := fun ws => ws.filterMap id

/-- R228: do the members agree? -/
def gangAgrees (gang : W64) (ws : List Waiter) : Bool :=
  match ws with
  | [] => false
  | w0 :: _ =>
    ws.all (fun w => decide (spK w.spec = spK w0.spec ∧ spK0 w.spec = spK0 w0.spec)) &&
    ws.zipIdx.all (fun (w, i) => ws.zipIdx.all (fun (v, j) => decide (gangBandOf gang i ≠ gangBandOf gang j) ||
      decide (spM w.spec = spM v.spec ∧ spA w.spec = spA v.spec ∧ spARow w.spec = spARow v.spec)))

/-- The members' waiters leave the latch. -/
def State.dropWaiters (s : State) (ws : List Waiter) : State := { s with latch := s.latch.filter (fun w => !ws.contains w) }

/-- The lanes of a waiter return to the word, and its register waits no longer. -/
def State.unpark (s : State) (w : Waiter) : State :=
  s.onGroup w.group (fun g =>
    ({ g with pend := g.pend.filter (fun p => !decide (p.reg = .s w.sd ∧ p.why = .reply)) } : Group).onLanes w.mask
      (fun _ x => { x with state := .run, park := .no, pc := w.pc }))

/-- Every member raises ILLEGAL_OPERAND at its word (R228). -/
def State.refuseGang (s : State) : List Waiter → State
  | [] => s
  | w :: ws => State.refuseGang ((s.unpark w).takeFault w.group w.mask { Hard.plain fcIllOp with lane := lowestLane w.mask } false) ws

/-- The operation of one member: A from its band's first member, B from its own weight buffer (R227, R230). `base` is the first member's operation. -/
def State.enqueue (s : State) (gang : W64) (base : Nat) (ws : List Waiter) (i : Nat) (w : Waiter) : State :=
  match s.group? w.group with
  | none => s
  | some g =>
    let at0 := gangBandOf gang i * gangCols gang
    let first := ws.getD at0 w
    let (op, s0) := s.newUid
    let m : MatOp := { core := g.core, part := g.part, launch := g.launch, group := w.group, team := g.team, zero := w.zero, spec := w.spec,
                       aEnt := first.aEnt, bEnt := w.bEnt, aData := first.aData, aScale := first.aScale, bData := w.bData, bScale := w.bScale, band := base + at0,
                       sd := w.sd, mask := w.mask, pc := w.pc, spoil := [] }
    { s0 with mats := Tab.put s0.mats op m }

/-- The members' operations, enqueued at one point. -/
def State.enqueueAll (s : State) (gang : W64) (base : Nat) (all : List Waiter) : Nat → List Waiter → State
  | _, [] => s
  | i, w :: ws => State.enqueueAll (s.enqueue gang base all i w) gang base all (i + 1) ws

/-- The first waiter whose gang is complete. -/
def State.completeGang (s : State) (cluster : Nat) (gang : W64) : Option (List Waiter) :=
  s.latch.findSome? (fun w =>
    if w.cluster = cluster ∧ w.gang = gang then
      match s.spanOf w.group with
      | none => none
      | some (l, b) =>
        let ws := s.gangWaiters cluster gang l b
        if ws.all Option.isSome && (present ws).any (fun v => decide (v = w)) then some (present ws) else none
    else none)

/-- RENDEZVOUS (R228): a complete gang's operations are enqueued on every member core. -/
def execRendezvous (cluster : Nat) (gang : W64) (s : State) : Host.Outcome State Fault Refusal :=
  match s.completeGang cluster gang with
  | none => .next s
  | some ws =>
    if ws.any (fun w => !s.engineRuns w.group ((s.group? w.group).map (·.core) |>.getD 0) .matrixArray) then .next s else
    let s1 := s.dropWaiters ws
    .next (if gangAgrees gang ws then s1.enqueueAll gang s1.nextUid ws 0 ws else s1.refuseGang ws)

/-! ### The end of an operation (R91, R230) -/

/-- One k-block: the tree over 32 exact products, then the accumulator (R91). -/
def mmxBlock (acc : Fp) (a b : List Fp) : Fp := node fp96 acc (treeSum fp96 5 (List.zipWith Fp.mul a b))

/-- n blocks in ascending k. -/
def mmxBlocks : Nat → Fp → List Fp → List Fp → Fp
  | 0, acc, _, _ => acc
  | n + 1, acc, a, b => mmxBlocks n (mmxBlock acc (a.take 32) (b.take 32)) (a.drop 32) (b.drop 32)

/-- An accumulator after the operation. -/
def mmxAcc (zero : Bool) (old : W96) (a b : List Fp) : W96 :=
  BitVec.ofNat 96 (fp96.enc rmRne (mmxBlocks (a.length / 32) (if zero then .fin false 0 0 else fp96.dec old.toNat) a b))

/-- The new values of the accumulators that the operation covers. -/
def MatOp.results (m : MatOp) (t : Team) (rowsA colsB : List (List Fp)) : List (Nat × W96) :=
  rowsA.zipIdx.flatMap (fun (ra, i) => colsB.zipIdx.map (fun (cb, j) =>
    let k := accKey (spRow0 m.spec + i) (spCol0 m.spec + j)
    (k, mmxAcc m.zero (Tab.get 0 t.acc k) ra cb)))

/-- The accumulators whose result is undefined: those another group's instruction has met, and for `mmx` those undefined before. -/
def MatOp.badKeys (m : MatOp) (t : Team) (ks : List Nat) : List Nat :=
  ks.filter (fun k => m.spoil.contains k || (!m.zero && Tab.get false t.accBad k))

/-- The accumulators whose row of a compressed B, as its bytes stand at the end, runs past its window: nothing states their values. -/
def MatOp.ranOut (m : MatOp) (bd : List Byte) : List Nat :=
  if m.bEnt.comp = 0 then []
  else ((List.range (spN m.spec)).filter (fun j => decide (bd.length < (m.bEnt.row bd (spBCol m.spec + j)).2))).flatMap
    (fun j => (List.range (spM m.spec)).map (fun i => accKey (spRow0 m.spec + i) (spCol0 m.spec + j)))

/-- The bytes of A, which one operation of a band has read, are those of the whole band (R227). -/
def MatOp.takeA (band : Nat) (data scale : List Byte) (m : MatOp) : MatOp :=
  if m.band = band then { m with aData := ⟨[], data, []⟩, aScale := ⟨[], scale, []⟩ } else m

/-- An operation leaves its array, and its lanes leave PARK by f; its register waits no longer. -/
def State.leaveArray (s : State) (op : Nat) (m : MatOp) (f : Lane → Lane) : State :=
  ({ s with mats := Tab.del s.mats op } : State).onGroup m.group (fun g =>
    ({ g with pend := g.pend.filter (fun p => !decide (p.reg = .s m.sd ∧ p.why = .reply)) } : Group).onLanes m.mask
      (fun _ x => if x.state = .park ∧ x.pc = m.pc then f x else x))

/-- How an accepted operation fails (R230): in its tree root's check, or in a store of an operand that is uncorrectable. -/
def State.matUpset (s : State) (m : MatOp) : Option (Nat × Nat) := s.upset.find? (fun e => decide (e.1 = m.core ∧ 64 ≤ e.2))

/-- The member whose operation fails takes the fault, with no result (R96, R230). -/
def State.failMat (s : State) (op : Nat) (m : MatOp) (e : Nat × Nat) : State :=
  match s.group? m.group with
  | none => s
  | some g =>
    if g.fault ≠ none then s
    else
      let s1 := ({ s with upset := s.upset.erase e } : State).leaveArray op m (fun x => { x with state := .run, park := .no })
      let h (cause : Nat) : Hard := { Hard.plain cause with lane := lowestLane m.mask }
      (if e.2 = 64 then s1.takeFault m.group m.mask (h fcShadow) false
       else (s1.consumedIn g (e.2 - 64)).stopGroup m.group m.mask (h fcUncorr) false).onGroup m.group (fun g => { g with arrayFault := true })

/-- The accumulators that the operation covers take their values, and the token releases its lanes (R230). -/
def State.finishMat (s : State) (op : Nat) (m : MatOp) : State :=
  let d := s.domOp m.group m.part
  let (ad, s1) := s.readDone d m.aData
  let (as, s2) := s1.readDone d m.aScale
  let (bd, s3) := s2.readDone d m.bData
  let (bs, s4) := s3.readDone d m.bScale
  let rowsA := (List.range (spM m.spec)).map (fun i => m.aEnt.rowValues ad as (spARow m.spec + i) (spK0 m.spec) (spK m.spec))
  let colsB := (List.range (spN m.spec)).map (fun j => m.bEnt.rowValues bd bs (spBCol m.spec + j) (spK0 m.spec) (spK m.spec))
  let put (t : Team) : Team :=
    let rs := m.results t rowsA colsB
    let bad := m.badKeys t (rs.map (·.1)) ++ m.ranOut bd
    let t1 := t.accPuts rs
    { t1 with accBad := bad.foldl (fun x k => Tab.set false x k true) t1.accBad }
  let s5 := ({ s4 with mats := s4.mats.map (fun e => (e.1, e.2.takeA m.band ad as)) } : State).onTeam m.team put
  (s5.leaveArray op m Lane.resume).onGroup m.group (fun g => { g with regs := g.regs.ws m.sd (BitVec.ofNat 64 (1 + spK m.spec / 32 * 2 ^ 8)) })

/-- MATRIX_OPERATION_END (R230): the oldest operation of its core ends. -/
def execMatrixOperationEnd (op : Nat) (s : State) : Host.Outcome State Fault Refusal :=
  match Tab.find s.mats op with
  | none => .next s
  | some m =>
    if s.mats.any (fun e => decide (e.1 < op ∧ e.2.core = m.core)) || !s.engineRuns m.group m.core .matrixArray then .next s
    else match s.matUpset m with
      | some e => .next (s.failMat op m e)
      | none => .next (s.finishMat op m)

/-! ### Orphaned gangs (R229) -/

/-- The mask of the members that have issued. -/
def issuedMask : Nat → List (Option Waiter) → Nat
  | _, [] => 0
  | i, w :: ws => (if w.isSome then 2 ^ i else 0) + issuedMask (i + 1) ws

/-- The fault in every waiting member, which stays at the latch: on `ctxresume` it waits afresh (R308). A group that has a fault already keeps it. -/
def State.orphanGang (s : State) (extra : Nat) : List Waiter → State
  | [] => s
  | w :: ws =>
    let s1 := if ((s.group? w.group).bind (·.fault)).isSome then s
      else s.takeFault w.group 0 { Hard.plain fcGang with lane := some 0xFFFF, extra := BitVec.ofNat 64 extra } false
    State.orphanGang s1 extra ws

/-- R229, R335: is the gang of a waiter orphaned: a listed group has retired, or the waiter has waited W aclk, while no member that it waits for stands in BRK? -/
def State.orphaned (s : State) (g : Group) (l b : Nat) (w : Waiter) : Bool :=
  let ms := (gangMembers w.gang).map (s.memberGroup l b)
  let missing := ms.any (fun m => match m with
    | none => true
    | some (_, x) => x.retired)
  let halted := (ms.zip (s.gangWaiters w.cluster w.gang l b)).any (fun (e : Option (Nat × Group) × Option Waiter) => e.2.isNone && (match e.1 with
    | none => false
    | some (_, x) => decide (x.inState .brk ≠ 0)))
  let late := match s.launch? g.launch with
    | none => false
    | some x => decide (x.watchdog ≠ 0 ∧ w.since + x.watchdog ≤ s.watchOf g) && s.ctxRuns g.part
  missing || (late && !halted)

/-- GANG_ORPHANED (R229) of a group that waits at the latch. -/
def execGangOrphaned (group : Nat) (s : State) : Host.Outcome State Fault Refusal :=
  match s.group? group, s.spanOf group with
  | some g, some (l, b) =>
    if g.fault ≠ none then .next s
    else match s.latch.find? (fun w => decide (w.group = group) && s.orphaned g l b w) with
      | none => .next s
      | some w =>
        let ws := s.gangWaiters w.cluster w.gang l b
        .next (s.orphanGang (issuedMask 0 ws) (present ws))
  | _, _ => .next s

end Sys2Proof.Machine
end

