-- ==== Sys2Proof/Machine/Capability.lean ====
section
/-! DEFINITION. The capability instructions of class 0xD (spec/13_ref_matrix_bounds_system.md R234, R235). -/

namespace Sys2Proof.Machine

/-- R234: a capability derived from one: the offset, the length, the rights. A base of 2^40, which the field cannot hold, wraps to 0 (log entry 109). -/
def Cap.derive (c : Cap) (off len rights : Nat) : Cap := ⟨capBits c.obj rights c.kind (c.base + off) len, true⟩

/-- R234: what stops a derivation: no tag, bits above the rights, a wider window or wider rights (R61). -/
def deriveFault (c : Cap) (off len rights : W64) : Option Nat :=
  if !c.tag then some fcTag
  else if field rights 8 56 ≠ 0 then some fcIllOp
  else if c.length < off.toNat + len.toNat ∨ !c.has (field rights 0 8) then some fcWiden
  else none

/-- R234. A derivation accesses nothing, so its faults have no fault address (R303: FOBJECT and FOFFSET 0). -/
def execCderive (d a b : F7) (s : State) : Host.Outcome State Fault Refusal :=
  wordOf (shCderive d a b) s fun s c =>
    let x := c.regs.rc a.toNat
    let off := c.regs.rs b.toNat
    let len := c.regs.rs (b.toNat + 1)
    let rights := c.regs.rs (b.toNat + 2)
    match deriveFault x off len rights with
    | some f => .hard s (Hard.plain f)
    | none => .done (c.write s (fun y => y.wc d.toNat (x.derive off.toNat len.toNat rights.toNat)))

/-- R235. -/
def execCmov (d a : F7) (s : State) : Host.Outcome State Fault Refusal :=
  wordOf (shCmov d a) s fun s c => .done (c.write s (fun y => y.wc d.toNat (c.regs.rc a.toNat)))

/-- An inspection (R235): a scalar from the capability. -/
def capField (sh : Shape) (d a : F7) (f : Cap → W64) (s : State) : Host.Outcome State Fault Refusal :=
  wordOf sh s fun s c => .done (c.write s (fun y => y.ws d.toNat (f (c.regs.rc a.toNat))))

/-- R235. -/
def execCbase (d a : F7) (s : State) : Host.Outcome State Fault Refusal := capField (shCbase d a) d a (fun c => BitVec.ofNat 64 c.base) s

/-- R235. -/
def execClen (d a : F7) (s : State) : Host.Outcome State Fault Refusal := capField (shClen d a) d a (fun c => BitVec.ofNat 64 c.length) s

/-- R235. -/
def execCrights (d a : F7) (s : State) : Host.Outcome State Fault Refusal := capField (shCrights d a) d a (fun c => c.rights.setWidth 64) s

/-- R235. -/
def execCkind (d a : F7) (s : State) : Host.Outcome State Fault Refusal := capField (shCkind d a) d a (fun c => BitVec.ofNat 64 c.kind) s

/-- R235. -/
def execCvalid (d a : F7) (s : State) : Host.Outcome State Fault Refusal := capField (shCvalid d a) d a (fun c => ones c.tag) s

/-- R235. -/
def execCclear (d : F7) (s : State) : Host.Outcome State Fault Refusal :=
  wordOf (shCclear d) s fun s c => .done (c.write s (fun y => y.wc d.toNat Cap.null))

end Sys2Proof.Machine
end

