-- ==== Sys2Proof/Machine/CrossLane.lean ====
section
/-! DEFINITION. Class 0x5, cross-lane instructions (spec/11_ref_float_crosslane.md R189 to R195). In bounds mode all of them but the
special-register reads abandon (R103); their arms are reached in the other modes. -/

namespace Sys2Proof.Machine

/-- R190: the value of the source lane, 0 where no executing lane is named. -/
def Ctx.shuffle (c : Ctx) (a : F7) (src : Option Nat) : W32 :=
  match src with
  | none => 0
  | some n => if c.runs n then c.regs.rv a.toNat n else 0

/-- A shuffle: `src l` is the source index of lane l. -/
def vecShuffle (i : Instr) (d a : F7) (src : Ctx → Nat → Option Nat) (s : State) : Host.Outcome State Fault Refusal :=
  word i s fun s c => .done (c.write s (fun x => x.wvs d.toNat (fun l => c.shuffle a (src c l)) c.lanes))

/-- R190. -/
def execVshflIdx (d a b : F7) (s : State) : Host.Outcome State Fault Refusal :=
  vecShuffle (.vshflIdx d a b) d a (fun c l => some (c.regs.rv b.toNat l).toNat) s

/-- R190. -/
def execVshflUp (d a b : F7) (s : State) : Host.Outcome State Fault Refusal :=
  vecShuffle (.vshflUp d a b) d a (fun c l => if l < (c.regs.rs b.toNat).toNat then none else some (l - (c.regs.rs b.toNat).toNat)) s

/-- R190. -/
def execVshflDn (d a b : F7) (s : State) : Host.Outcome State Fault Refusal :=
  vecShuffle (.vshflDn d a b) d a (fun c l => some (l + (c.regs.rs b.toNat).toNat)) s

/-- R190. -/
def execVshflXor (d a b : F7) (s : State) : Host.Outcome State Fault Refusal :=
  vecShuffle (.vshflXor d a b) d a (fun c l => some (l ^^^ (c.regs.rs b.toNat).toNat)) s

/-- Lanes 0 to 63 of a register, with an identity for each lane that does not execute (R189). -/
def Ctx.contribs (c : Ctx) (a : F7) (ident : W32) : List W32 :=
  (List.range 64).map (fun l => if c.runs l then c.regs.rv a.toNat l else ident)

/-- A reduction: the same result to every executing lane (R191). -/
def vecReduce (i : Instr) (d a : F7) (ident : W32) (f : List W32 → W32) (s : State) : Host.Outcome State Fault Refusal :=
  word i s fun s c =>
    let x := f (c.contribs a ident)
    .done (c.write s (fun r => r.wvs d.toNat (fun _ => x) c.lanes))

/-- R191. -/
def execVredAdd (d a : F7) (s : State) : Host.Outcome State Fault Refusal :=
  vecReduce (.vredAdd d a) d a 0 (·.foldl (· + ·) 0) s

/-- R191. -/
def execVredMinS (d a : F7) (s : State) : Host.Outcome State Fault Refusal :=
  vecReduce (.vredMinS d a) d a 0x7FFFFFFF (·.foldl minS 0x7FFFFFFF) s

/-- R191. -/
def execVredMaxS (d a : F7) (s : State) : Host.Outcome State Fault Refusal :=
  vecReduce (.vredMaxS d a) d a 0x80000000 (·.foldl maxS 0x80000000) s

/-- R191. -/
def execVredMinZ (d a : F7) (s : State) : Host.Outcome State Fault Refusal :=
  vecReduce (.vredMinZ d a) d a 0xFFFFFFFF (·.foldl minZ 0xFFFFFFFF) s

/-- R191. -/
def execVredMaxZ (d a : F7) (s : State) : Host.Outcome State Fault Refusal :=
  vecReduce (.vredMaxZ d a) d a 0 (·.foldl maxZ 0) s

/-- R191. -/
def execVredAnd (d a : F7) (s : State) : Host.Outcome State Fault Refusal :=
  vecReduce (.vredAnd d a) d a 0xFFFFFFFF (·.foldl (· &&& ·) 0xFFFFFFFF) s

/-- R191. -/
def execVredOr (d a : F7) (s : State) : Host.Outcome State Fault Refusal :=
  vecReduce (.vredOr d a) d a 0 (·.foldl (· ||| ·) 0) s

/-- R191. -/
def execVredXor (d a : F7) (s : State) : Host.Outcome State Fault Refusal :=
  vecReduce (.vredXor d a) d a 0 (·.foldl (· ^^^ ·) 0) s

/-- R92: the six-level tree of binary96 nodes, its root rounded to FP32. -/
def treeFadd (xs : List W32) : W32 := toW rmRne (treeSum fp96 6 (xs.map ofW))

/-- R191. -/
def execVredFadd (d a : F7) (s : State) : Host.Outcome State Fault Refusal :=
  vecReduce (.vredFadd d a) d a 0 treeFadd s

/-- R81 over a list. -/
def foldF (f : W32 → W32 → W32) : List W32 → W32
  | [] => 0
  | x :: xs => xs.foldl f x

/-- R191. -/
def execVredFmin (d a : F7) (s : State) : Host.Outcome State Fault Refusal :=
  vecReduce (.vredFmin d a) d a 0x7F800000 (foldF f32min) s

/-- R191. -/
def execVredFmax (d a : F7) (s : State) : Host.Outcome State Fault Refusal :=
  vecReduce (.vredFmax d a) d a 0xFF800000 (foldF f32max) s

/-- The executing lane of the selected value: the lowest that no other beats (R192). -/
def Ctx.select (c : Ctx) (a : F7) (beats : W32 → W32 → Bool) : List Nat → Option Nat
  | [] => none
  | l :: ls =>
    match Ctx.select c a beats ls with
    | none => some l
    | some m => if beats (c.regs.rv a.toNat m) (c.regs.rv a.toNat l) then some m else some l

/-- Argmin and argmax: the value to vd, its lane to vd + 1 (R192). -/
def vecArg (i : Instr) (d a : F7) (beats : W32 → W32 → Bool) (s : State) : Host.Outcome State Fault Refusal :=
  word i s fun s c =>
    let n := (c.select a beats c.lanes).getD 0
    let x := c.regs.rv a.toNat n
    .done (c.write s (fun r => (r.wvs d.toNat (fun _ => x) c.lanes).wvs (d.toNat + 1) (fun _ => BitVec.ofNat 32 n) c.lanes))

/-- R192. -/
def execVargminS (d a : F7) (s : State) : Host.Outcome State Fault Refusal :=
  vecArg (.vargminS d a) d a (fun x y => decide (x.toInt < y.toInt)) s

/-- R192. -/
def execVargminZ (d a : F7) (s : State) : Host.Outcome State Fault Refusal :=
  vecArg (.vargminZ d a) d a (fun x y => decide (x.toNat < y.toNat)) s

/-- R192. -/
def execVargmaxS (d a : F7) (s : State) : Host.Outcome State Fault Refusal :=
  vecArg (.vargmaxS d a) d a (fun x y => decide (y.toInt < x.toInt)) s

/-- R192. -/
def execVargmaxZ (d a : F7) (s : State) : Host.Outcome State Fault Refusal :=
  vecArg (.vargmaxZ d a) d a (fun x y => decide (y.toNat < x.toNat)) s

/-- The inclusive scan of lanes 0 to n: lane 0's contribution alone, then each next lane combined (R193). -/
def scanUpTo (f : W32 → W32 → W32) (first : W32 → W32) (x : Nat → W32) : Nat → W32
  | 0 => first (x 0)
  | n + 1 => f (scanUpTo f first x n) (x (n + 1))

/-- R193. -/
def vecScan (i : Instr) (d a : F7) (f : W32 → W32 → W32) (first : W32 → W32) (s : State) : Host.Outcome State Fault Refusal :=
  word i s fun s c =>
    let x (l : Nat) : W32 := if c.runs l then c.regs.rv a.toNat l else 0
    .done (c.write s (fun r => r.wvs d.toNat (scanUpTo f first x) c.lanes))

/-- R193. -/
def execVscanAdd (d a : F7) (s : State) : Host.Outcome State Fault Refusal :=
  vecScan (.vscanAdd d a) d a (· + ·) id s

/-- R193, R92: each partial sum rounded in RNE; a NaN of lane 0 is made canonical. -/
def execVscanFadd (d a : F7) (s : State) : Host.Outcome State Fault Refusal :=
  vecScan (.vscanFadd d a) d a (f32add rmRne) (fun x => if isNaN32 x then fNaN else x) s

/-- R194. -/
def execVballot (d a : F7) (s : State) : Host.Outcome State Fault Refusal :=
  word (.vballot d a) s fun s c =>
    .done (c.write s (fun r => r.ws d.toNat (maskOf (fun l => c.runs l && decide (c.regs.rv a.toNat l ≠ 0)) 64)))

/-- R194. -/
def execVany (d a : F7) (s : State) : Host.Outcome State Fault Refusal :=
  word (.vany d a) s fun s c =>
    .done (c.write s (fun r => r.ws d.toNat (ones (c.lanes.any (fun l => decide (c.regs.rv a.toNat l ≠ 0))))))

/-- R194. -/
def execVall (d a : F7) (s : State) : Host.Outcome State Fault Refusal :=
  word (.vall d a) s fun s c =>
    .done (c.write s (fun r => r.ws d.toNat (ones (c.lanes.all (fun l => decide (c.regs.rv a.toNat l ≠ 0))))))

/-! ### Special registers (R146, R195) -/

/-- The tile of the lowest executing lane. -/
def Ctx.tile (c : Ctx) : Option TileLane := (lowestLane c.mask).bind (fun l => (c.g.lane l).tile)

/-- A scalar special register. -/
def State.scalarSr (s : State) (c : Ctx) (n : Nat) : W64 :=
  let num (x : Nat) : W64 := BitVec.ofNat 64 x
  let team := s.team? c.g.team
  let launch := s.launch? c.g.launch
  let tid := (team.map (·.tid)).getD 0
  if n = 1 then num c.g.width
  else if n = 2 then num c.g.gid
  else if n = 3 then num tid
  else if n = 7 then num c.g.mode
  else if n = 8 then num (((lowestLane c.mask).map (fun l => (c.g.lane l).prio)).getD 0)
  else if n = 9 then c.mask
  else if n = 10 then s.timebase
  else if n = 11 then num c.g.cycles
  else if n = 13 then num c.g.gid
  else if 14 ≤ n ∧ n ≤ 19 then num ((launch.map (fun l => l.levelId tid (n - 12))).getD 0)
  else if n = 20 then num ((launch.map (·.nlvl)).getD 0)
  else if n = 21 then num ((c.tile.map (·.h)).getD 0)
  else num ((c.tile.map (·.w)).getD 0)

/-- The origins of the team's pass. -/
def State.origin (s : State) (c : Ctx) : W32 × W32 :=
  match (s.team? c.g.team).bind (·.pass) with
  | none => (0, 0)
  | some p => (p.rowOrg, p.colOrg)

/-- A vector special register of a lane, outside bounds mode. -/
def State.vectorSr (s : State) (c : Ctx) (n l : Nat) : W32 :=
  let t := (c.g.lane l).tile
  let num (x : Nat) : W32 := BitVec.ofNat 32 x
  if n = 4 then (match t with
    | none => 0
    | some t => (s.origin c).1 + num t.row)
  else if n = 5 then (match t with
    | none => 0
    | some t => (s.origin c).2 + num t.col)
  else if n = 6 then num ((t.map (·.depth)).getD 0)
  else num l

/-- The interval of a vector special register in bounds mode (R100). -/
def State.intervalSr (s : State) (c : Ctx) (n l : Nat) : Iv :=
  match (c.g.lane l).tile with
  | none => Iv.point .s 0
  | some t =>
    if n = 4 then Iv.hullI .s [(s.origin c).1.toInt + t.row, (s.origin c).1.toInt + t.row + t.h - 1]
    else if n = 5 then Iv.hullI .s [(s.origin c).2.toInt + t.col, (s.origin c).2.toInt + t.col + t.w - 1]
    else if n = 6 then Iv.point .s (BitVec.ofNat 32 t.depth)
    else Iv.hullI .s [0, (c.g.width : Int) - 1]

/-- R195, R146. -/
def execSmovsr (d n : F7) (s : State) : Host.Outcome State Fault Refusal :=
  word (.smovsr d n) s fun s c => .done (c.write s (fun x => x.ws d.toNat (s.scalarSr c n.toNat)))

/-- R195, R146, R100. -/
def execVmovsr (d n : F7) (s : State) : Host.Outcome State Fault Refusal :=
  word (.vmovsr d n) s fun s c =>
    if scalarSr n.toNat then
      let x := (s.scalarSr c n.toNat).setWidth 32
      c.setVec s d (fun _ => x) (fun _ => Iv.point .s x)
    else c.setVec s d (fun l => s.vectorSr c n.toNat l) (fun l => s.intervalSr c n.toNat l)

end Sys2Proof.Machine
end

