-- ==== Sys2Proof/Machine/Elementary.lean ====
section
/-! DEFINITION. The transcendental functions (spec/05_number_formats.md R88): the exact mathematical value, rounded once. A value is enclosed
between two integer multiples of 2^-P, with P rising until both ends round alike (log entry 16). -/

namespace Sys2Proof.Machine

/-- An enclosure: the value times 2^P lies between the two integers. -/
structure Enc where
  lo : Int
  hi : Int
  deriving DecidableEq, Repr

/-- Division toward plus infinity by a positive number. -/
def cdiv (a b : Int) : Int := -((-a) / b)

/-- A dyadic at precision P. -/
def encOf (p : Nat) (neg : Bool) (m : Nat) (e : Int) : Enc :=
  let x : Enc :=
    if 0 ≤ e + p then ⟨(m * 2 ^ (e + p).toNat : Nat), (m * 2 ^ (e + p).toNat : Nat)⟩
    else
      let d := 2 ^ (-(e + p)).toNat
      ⟨(m / d : Nat), if m % d = 0 then (m / d : Nat) else (m / d + 1 : Nat)⟩
  if neg then ⟨-x.hi, -x.lo⟩ else x

/-- The sum of t, t z / 1, t z² / (1·2), ...: k terms, each rounded down. -/
def expSum (p : Nat) (z : Nat) : Nat → Nat → Nat → Nat
  | 0, _, _ => 0
  | k + 1, n, t => t + expSum p z k (n + 1) (t * z / 2 ^ p / n)

/-- exp z for 0 ≤ z < 1. -/
def expEnc (p : Nat) (z : Enc) : Enc :=
  ⟨expSum p z.lo.toNat p 1 (2 ^ p), (expSum p z.hi.toNat p 1 (2 ^ p) + 8 * (p + 1) : Nat)⟩

/-- The sum of z^(2k+1) / (2k+1): k terms, each rounded down; t is z^(2k+1), z2 is z². -/
def atanhSum (p z2 : Nat) : Nat → Nat → Nat → Nat
  | 0, _, _ => 0
  | k + 1, n, t => t / n + atanhSum p z2 k (n + 2) (t * z2 / 2 ^ p)

/-- 2 atanh (a / b) = log ((b + a) / (b - a)), for 0 ≤ a ≤ b / 3. -/
def logEnc (p a b : Nat) : Enc :=
  let z := a * 2 ^ p / b
  let x := 2 * atanhSum p (z * z / 2 ^ p) p 1 z
  ⟨x, (x + 16 * (p + 1) : Nat)⟩

/-- log 2 = 2 atanh (1/3). -/
def ln2Enc (p : Nat) : Enc := logEnc p 1 3

/-- The alternating sum of z^k / k! over k = 1, 3, 5, ...; t is the current term. -/
def sinSum (p z2 : Nat) : Nat → Nat → Nat → Int
  | 0, _, _ => 0
  | k + 1, n, t => (t : Int) - sinSum p z2 k (n + 2) (t * z2 / 2 ^ p / ((n + 1) * (n + 2)))

/-- sin z for 0 ≤ z ≤ 1.6. -/
def sinEnc (p : Nat) (z : Enc) : Enc :=
  let x := sinSum p (z.lo.toNat * z.lo.toNat / 2 ^ p) p 1 z.lo.toNat
  ⟨x - 16 * (p + 1), x + 16 * (p + 1) + (z.hi - z.lo)⟩

/-- The alternating sum of atan (1 / n): k terms. -/
def atanSum (n2 : Nat) : Nat → Nat → Nat → Int
  | 0, _, _ => 0
  | k + 1, j, t => (t / j : Nat) - atanSum n2 k (j + 2) (t / n2)

/-- π by 16 atan (1/5) - 4 atan (1/239). -/
def piEnc (p : Nat) : Enc :=
  let x := 16 * atanSum 25 p 1 (2 ^ p / 5) - 4 * atanSum 57121 p 1 (2 ^ p / 239)
  ⟨x - 64 * (p + 1), x + 64 * (p + 1)⟩

/-- 2^t for an enclosed t: the integer part shifts, the fraction goes through exp. -/
def exp2Enc (p : Nat) (t : Enc) : Enc :=
  let l := ln2Enc p
  let part (x : Int) : Enc :=
    let f := x % 2 ^ p
    let z : Enc := ⟨f * l.lo / 2 ^ p, cdiv (f * l.hi) (2 ^ p)⟩
    let v := expEnc p z
    let n := x / 2 ^ p
    if 0 ≤ n then ⟨v.lo * 2 ^ n.toNat, v.hi * 2 ^ n.toNat⟩ else ⟨v.lo / 2 ^ (-n).toNat, cdiv v.hi (2 ^ (-n).toNat)⟩
  ⟨(part t.lo).lo, (part t.hi).hi⟩

/-- e^-y for an enclosed y ≥ 0. -/
def expNegEnc (p : Nat) (y : Enc) : Enc :=
  let l := ln2Enc p
  exp2Enc p ⟨-(cdiv (y.hi * 2 ^ p) l.lo), -(y.lo * 2 ^ p / l.hi)⟩

/-- log₂ of m * 2^e. -/
def log2Enc (p m : Nat) (e : Int) : Enc :=
  let n := m.log2
  let l := ln2Enc p
  let v := logEnc p (m - 2 ^ n) (m + 2 ^ n)
  let w : Int := (n + e) * 2 ^ p
  ⟨w + v.lo * 2 ^ p / l.hi, w + cdiv (v.hi * 2 ^ p) l.lo⟩

/-- sin (π x) for a dyadic x: reduce to a quarter turn, exactly. -/
def sinpiEnc (p m : Nat) (e : Int) : Enc :=
  -- x = m / 2^k with k ≥ 1; half is half a turn
  let k := (max 1 (-e)).toNat
  let m' := m * 2 ^ (e + k).toNat
  let r := m' % (2 * 2 ^ k)
  let neg := decide (2 ^ k ≤ r)
  let r1 := r % 2 ^ k
  let r2 := min r1 (2 ^ k - r1)
  let q := encOf p false r2 (-(k : Int))
  let w := piEnc p
  let z : Enc := ⟨q.lo * w.lo / 2 ^ p, cdiv (q.hi * w.hi) (2 ^ p)⟩
  let v := sinEnc p z
  if neg then ⟨-v.hi, -v.lo⟩ else v

/-- tanh of m * 2^e, positive. -/
def tanhEnc (p m : Nat) (e : Int) : Enc :=
  let u := expNegEnc p (encOf p false m (e + 1))
  ⟨(2 ^ p - u.hi) * 2 ^ p / (2 ^ p + u.hi), cdiv ((2 ^ p - u.lo) * 2 ^ p) (2 ^ p + u.lo)⟩

/-- 1 / (1 + e^-x). -/
def sigmEnc (p : Nat) (neg : Bool) (m : Nat) (e : Int) : Enc :=
  let u := expNegEnc p (encOf p false m e)
  if neg then ⟨u.lo * 2 ^ p / (2 ^ p + u.lo), cdiv (u.hi * 2 ^ p) (2 ^ p + u.hi)⟩
  else ⟨2 ^ p * 2 ^ p / (2 ^ p + u.hi), cdiv (2 ^ p * 2 ^ p) (2 ^ p + u.lo)⟩

/-- An integer multiple of 2^-p as a value. -/
def atPrec (p : Nat) (x : Int) : Fp := .fin (decide (x < 0)) x.natAbs (-(p : Int))

/-- Round an enclosure that tightens with P: the first precision of the list at which both ends round alike. -/
def settleEnc (rm : Nat) (f : Nat → Enc) : List Nat → W32
  | [] => toW rm (atPrec 4096 (f 4096).lo)
  | p :: ps =>
    let v := f p
    let lo := toW rm (atPrec p v.lo)
    if lo = toW rm (atPrec p v.hi) ∧ v.lo ≠ 0 then lo else settleEnc rm f ps

/-- The precisions. -/
def precisions : List Nat := [96, 192, 256, 512, 1024, 2048]

/-- A positive value below every rounding boundary of the format, and one just below 1. -/
def tiny : Fp := .fin false 1 (-1000)
def belowOne : Fp := .fin false (2 ^ 200 - 1) (-200)

/-- Is the finite value an integer? -/
def isInt (m : Nat) (e : Int) : Bool := decide (0 ≤ e) || decide (m % 2 ^ (-e).toNat = 0)

/-- m * 2^e compared with 2^n: is it at least that? -/
def atLeast (m : Nat) (e : Int) (n : Nat) : Bool := decide (m ≠ 0 ∧ (n : Int) ≤ m.log2 + e)

def f32exp2 (rm : Nat) (x : W32) : W32 :=
  match ofW x with
  | .nan => fp32.nanCode
  | .inf neg => if neg then 0 else toW rm (.inf false)
  | .fin neg m e =>
    if m = 0 then toW rm (.fin false 1 0)
    else if atLeast m e 8 then toW rm (if neg then tiny else .fin false 1 300)
    else if isInt m e then
      let n : Int := (m * 2 ^ e.toNat / 2 ^ (-e).toNat : Nat)
      toW rm (.fin false 1 (if neg then -n else n))
    else settleEnc rm (fun p => exp2Enc p (encOf p neg m e)) precisions

def f32log2 (rm : Nat) (x : W32) : W32 :=
  match ofW x with
  | .nan => fp32.nanCode
  | .inf neg => if neg then fp32.nanCode else toW rm (.inf false)
  | .fin neg m e =>
    if m = 0 then toW rm (.inf true)
    else if neg then fp32.nanCode
    else if m = 2 ^ m.log2 then toW rm (ofInt (m.log2 + e))
    else settleEnc rm (fun p => log2Enc p m e) precisions

/-- 1 / √x: the root of a quotient taken to many places, with a sticky bit. -/
def f32rsqrt (rm : Nat) (x : W32) : W32 :=
  match ofW x with
  | .nan => fp32.nanCode
  | .inf neg => if neg then fp32.nanCode else 0
  | .fin neg m e =>
    if m = 0 then toW rm (.inf neg)
    else if neg then fp32.nanCode
    else
      -- 1 / (m 2^e) = (2^(2k) / m') / 2^(2k) * 2^(-e') with e' even
      let m' := if e % 2 = 0 then m else 2 * m
      let e' := if e % 2 = 0 then e else e - 1
      let r := isqrt (2 ^ 160 / m')
      toW rm (.fin false (2 * r + (if r * r * m' = 2 ^ 160 then 0 else 1)) (-(e' / 2) - 81))

/-- A signed zero. -/
def zeroOf (neg : Bool) : W32 := if neg then 0x80000000 else 0

def f32sinpi (rm : Nat) (x : W32) : W32 :=
  match ofW x with
  | .nan => fp32.nanCode
  | .inf _ => fp32.nanCode
  | .fin neg m e =>
    if isInt m e then zeroOf neg
    else if isInt m (e + 1) then
      -- n + 1/2: +1 or -1 by the parity of n
      let h := m * 2 ^ (e + 1).toNat / 2 ^ (-(e + 1)).toNat
      toW rm (.fin (neg ^^ decide (h % 4 = 3)) 1 0)
    else settleEnc rm (fun p =>
      let v := sinpiEnc p m e
      if neg then ⟨-v.hi, -v.lo⟩ else v) precisions

/-- cos (π x) = sin (π (|x| + 1/2)). -/
def f32cospi (rm : Nat) (x : W32) : W32 :=
  match ofW x with
  | .nan => fp32.nanCode
  | .inf _ => fp32.nanCode
  | .fin _ m e =>
    if isInt m e then
      let n := m * 2 ^ e.toNat / 2 ^ (-e).toNat
      toW rm (.fin (decide (n % 2 = 1)) 1 0)
    else if isInt m (e + 1) then 0
    else
      -- e < -1 here: m 2^e + 1/2 = (m + 2^(-e-1)) 2^e
      settleEnc rm (fun p => sinpiEnc p (m + 2 ^ (-e - 1).toNat) e) precisions

def f32tanh (rm : Nat) (x : W32) : W32 :=
  let flip (neg : Bool) : Nat := if neg then (if rm = rmRdn then rmRup else if rm = rmRup then rmRdn else rm) else rm
  let signed (neg : Bool) (y : W32) : W32 := if neg then y ||| 0x80000000 else y
  match ofW x with
  | .nan => fp32.nanCode
  | .inf neg => signed neg (toW rm (.fin false 1 0))
  | .fin neg m e =>
    if m = 0 then zeroOf neg
    else if atLeast m e 7 then signed neg (toW (flip neg) belowOne)
    else signed neg (settleEnc (flip neg) (fun p => tanhEnc p m e) precisions)

def f32sigm (rm : Nat) (x : W32) : W32 :=
  match ofW x with
  | .nan => fp32.nanCode
  | .inf neg => if neg then 0 else toW rm (.fin false 1 0)
  | .fin neg m e =>
    if m = 0 then toW rm (.fin false 1 (-1))
    else if atLeast m e 8 then toW rm (if neg then tiny else belowOne)
    else settleEnc rm (fun p => sigmEnc p neg m e) precisions

end Sys2Proof.Machine
end

