-- ==== Sys2Proof/Machine/FloatVec.lean ====
section
/-! DEFINITION. Class 0x4, floating point (spec/11_ref_float_crosslane.md R179 to R184), with the interval rules of
spec/06_bounds_pass.md R102 and R103. A shadow unit that works correctly never fails its check (R96, log entry 17). -/

namespace Sys2Proof.Machine

/-! ### Interval rules -/

def fMax : W32 := 0x7F7FFFFF
def fNegMax : W32 := 0xFF7FFFFF
def fNegZero : W32 := 0x80000000

/-- Does an interval under F hold the value of a bit pattern, in the order of R81? -/
def Iv.holds (a : Iv) (x : W32) : Bool := decide (boundKey .f a.lo ≤ boundKey .f x) && decide (boundKey .f x ≤ boundKey .f a.hi)

/-- Only NaN can occur: a degenerate NaN, or the bounds of R101 for no other value. -/
def Iv.nanOnly (a : Iv) : Bool := isNaN32 a.lo

/-- Could the value be NaN? -/
def Iv.mayNaN (a : Iv) : Bool := a.nan || a.nanOnly

/-- The values of an interval under F at which the operations of R179 take their extremes: its ends, the zeros it holds, and the greatest
finite values of an interval with an infinite end. -/
def Iv.cands (a : Iv) : List W32 :=
  if a.nanOnly then []
  else [a.lo, a.hi] ++ [fNegZero, 0].filter a.holds ++
    (if a.lo = fNegInf then [fNegMax].filter a.holds else []) ++ (if a.hi = fPosInf then [fMax].filter a.holds else [])

/-- The least and the greatest of some patterns, in the order of R81. -/
def leastF (xs : List W32) : W32 := xs.foldl (boundMin .f) (xs.headD 0)
def greatestF (xs : List W32) : W32 := xs.foldl (boundMax .f) (xs.headD 0)

/-- The hull of lower and upper results, NaN left out and recorded (R101, R102). -/
def hullF (nan : Bool) (los his : List W32) : Iv :=
  let l := los.filter (fun x => !isNaN32 x)
  let h := his.filter (fun x => !isNaN32 x)
  let n := nan || los.any isNaN32
  match l with
  | [] => ⟨fNaN, fNaN, .f, true⟩
  | _ => ⟨leastF l, greatestF h, .f, n⟩

/-- R103: the widening hull of an operation rounded by its mode. -/
def ivF1 (f : Nat → W32 → W32) (a : Iv) : Iv :=
  let a := a.as .f
  hullF a.mayNaN (a.cands.map (f rmRdn)) (a.cands.map (f rmRup))

def ivF2 (f : Nat → W32 → W32 → W32) (a b : Iv) : Iv :=
  let (a, b) := (a.as .f, b.as .f)
  hullF (a.mayNaN || b.mayNaN) (a.cands.flatMap (fun x => b.cands.map (f rmRdn x))) (a.cands.flatMap (fun x => b.cands.map (f rmRup x)))

def ivF3 (f : Nat → W32 → W32 → W32 → W32) (d a b : Iv) : Iv :=
  let (d, a, b) := (d.as .f, a.as .f, b.as .f)
  hullF (d.mayNaN || a.mayNaN || b.mayNaN)
    (d.cands.flatMap (fun z => a.cands.flatMap (fun x => b.cands.map (f rmRdn z x))))
    (d.cands.flatMap (fun z => a.cands.flatMap (fun x => b.cands.map (f rmRup z x))))

/-- R103: a divisor that contains a zero gives TOP. -/
def Iv.zeroIn (a : Iv) : Bool := !a.nanOnly && (a.holds 0 || a.holds fNegZero)
def ivFdiv (a b : Iv) : Iv := if (b.as .f).zeroIn then Iv.top .f else ivF2 f32div a b
def ivFrcp (a : Iv) : Iv := if (a.as .f).zeroIn then Iv.top .f else ivF1 f32rcp a

/-- `fmin` and `fmax` (R103): the endpoints; a value that may be NaN gives way to the other operand's interval (log entry 18). -/
def ivFsel (f : W32 → W32 → W32) (a b : Iv) : Iv :=
  let (a, b) := (a.as .f, b.as .f)
  let pts := (if a.nanOnly ∨ b.nanOnly then [] else [f a.lo b.lo, f a.hi b.hi]) ++
    (if a.mayNaN ∧ ¬ b.nanOnly then [b.lo, b.hi] else []) ++ (if b.mayNaN ∧ ¬ a.nanOnly then [a.lo, a.hi] else [])
  hullF (a.mayNaN && b.mayNaN) pts pts

/-- Monotone pieces on the endpoints, exact (R103). -/
def ivFexact (f : W32 → W32) (a : Iv) : Iv := ivF1 (fun _ => f) a

/-- A float compare (R103): what holds for every pair of non-NaN values; an operand that is only NaN makes each relation false, one that may
be NaN leaves it open. -/
def ivFcmp (always never : Iv → Iv → Bool) (a b : Iv) : Iv :=
  let (a, b) := (a.as .f, b.as .f)
  if a.nan || b.nan then ⟨BitVec.allOnes 32, 0, .s, false⟩
  else if a.nanOnly || b.nanOnly then Iv.point .s 0
  else ivBool (always a b) (never a b)

def fless (x y : W32) : Bool := decide ((ofW x).cmp (ofW y) = some (-1))
def fequal (x y : W32) : Bool := decide ((ofW x).cmp (ofW y) = some 0)

def ivFeq (a b : Iv) : Iv :=
  ivFcmp (fun a b => fequal a.lo a.hi && fequal a.lo b.lo && fequal b.lo b.hi) (fun a b => fless a.hi b.lo || fless b.hi a.lo) a b
def ivFlt (a b : Iv) : Iv := ivFcmp (fun a b => fless a.hi b.lo) (fun a b => !fless a.lo b.hi) a b
def ivFle (a b : Iv) : Iv := ivFcmp (fun a b => !fless b.lo a.hi) (fun a b => fless b.hi a.lo) a b

/-- `fcmp.un` (R103). -/
def ivFun (a b : Iv) : Iv :=
  let (a, b) := (a.as .f, b.as .f)
  if a.nan || b.nan then ⟨BitVec.allOnes 32, 0, .s, false⟩
  else if a.nanOnly || b.nanOnly then Iv.point .s (BitVec.allOnes 32)
  else Iv.point .s 0

/-! ### The instructions -/

/-- R179. -/
def execFadd (d a b : F7) (s : State) : Host.Outcome State Fault Refusal :=
  vec2 (.fadd d a b) d a b .f f32add (ivF2 f32add) s

/-- R179. -/
def execFsub (d a b : F7) (s : State) : Host.Outcome State Fault Refusal :=
  vec2 (.fsub d a b) d a b .f f32sub (ivF2 f32sub) s

/-- R179. -/
def execFmul (d a b : F7) (s : State) : Host.Outcome State Fault Refusal :=
  vec2 (.fmul d a b) d a b .f f32mul (ivF2 f32mul) s

/-- R179. -/
def execFfma (d a b : F7) (s : State) : Host.Outcome State Fault Refusal :=
  vec3 (.ffma d a b) d a b .f f32fma (ivF3 f32fma) s

/-- R181. -/
def execFmin (d a b : F7) (s : State) : Host.Outcome State Fault Refusal :=
  vec2 (.fmin d a b) d a b .f (fun _ => f32min) (ivFsel f32min) s

/-- R181. -/
def execFmax (d a b : F7) (s : State) : Host.Outcome State Fault Refusal :=
  vec2 (.fmax d a b) d a b .f (fun _ => f32max) (ivFsel f32max) s

/-- R181. -/
def execFabs (d a : F7) (s : State) : Host.Outcome State Fault Refusal :=
  vec1 (.fabs d a) d a .f (fun _ => f32abs) (ivFexact f32abs) s

/-- R181. -/
def execFneg (d a : F7) (s : State) : Host.Outcome State Fault Refusal :=
  vec1 (.fneg d a) d a .f (fun _ => f32neg) (ivFexact f32neg) s

/-- R179. -/
def execFdiv (d a b : F7) (s : State) : Host.Outcome State Fault Refusal :=
  vec2 (.fdiv d a b) d a b .f f32div ivFdiv s

/-- R179. -/
def execFsqrt (d a : F7) (s : State) : Host.Outcome State Fault Refusal :=
  vec1 (.fsqrt d a) d a .f f32sqrt (ivF1 f32sqrt) s

/-- R179. -/
def execFrcp (d a : F7) (s : State) : Host.Outcome State Fault Refusal :=
  vec1 (.frcp d a) d a .f f32rcp ivFrcp s

/-- R182. -/
def execFcmpEq (d a b : F7) (s : State) : Host.Outcome State Fault Refusal :=
  vec2 (.fcmpEq d a b) d a b .s (fun _ => f32eq) ivFeq s

/-- R182. -/
def execFcmpLt (d a b : F7) (s : State) : Host.Outcome State Fault Refusal :=
  vec2 (.fcmpLt d a b) d a b .s (fun _ => f32lt) ivFlt s

/-- R182. -/
def execFcmpLe (d a b : F7) (s : State) : Host.Outcome State Fault Refusal :=
  vec2 (.fcmpLe d a b) d a b .s (fun _ => f32le) ivFle s

/-- R182. -/
def execFcmpUn (d a b : F7) (s : State) : Host.Outcome State Fault Refusal :=
  vec2 (.fcmpUn d a b) d a b .s (fun _ => f32un) ivFun s

/-- R182. -/
def execFclass (d a : F7) (s : State) : Host.Outcome State Fault Refusal :=
  vec1 (.fclass d a) d a .s (fun _ => f32class) (ivTop1 .s) s

/-- R183. -/
def execFscale (d a b : F7) (s : State) : Host.Outcome State Fault Refusal :=
  vec2 (.fscale d a b) d a b .f f32scale (ivTop2 .f) s

/-- R183. -/
def execFfloor (d a : F7) (s : State) : Host.Outcome State Fault Refusal :=
  vec1 (.ffloor d a) d a .f (fun _ => (f32int rmRdn)) (ivFexact (f32int rmRdn)) s

/-- R183. -/
def execFceil (d a : F7) (s : State) : Host.Outcome State Fault Refusal :=
  vec1 (.fceil d a) d a .f (fun _ => (f32int rmRup)) (ivFexact (f32int rmRup)) s

/-- R183. -/
def execFtrunc (d a : F7) (s : State) : Host.Outcome State Fault Refusal :=
  vec1 (.ftrunc d a) d a .f (fun _ => (f32int rmRtz)) (ivFexact (f32int rmRtz)) s

/-- R183: in the mode of the rounding control; the endpoints in the same mode (R103). -/
def execFrint (d a : F7) (s : State) : Host.Outcome State Fault Refusal :=
  word (.frint d a) s fun s c =>
    c.setVec s d (fun l => f32int c.rm (c.regs.rv a.toNat l)) (fun l => lift1 .f (f32int c.rm) (ivFexact (f32int c.rm)) (c.iv a.toNat l))

/-- R184. -/
def execFaddB2 (d a b : F7) (s : State) : Host.Outcome State Fault Refusal :=
  vec2 (.faddB2 d a b) d a b .f (fun rm => pair2 (hAdd bf16 rm)) (ivTop2 .f) s

/-- R184. -/
def execFmulB2 (d a b : F7) (s : State) : Host.Outcome State Fault Refusal :=
  vec2 (.fmulB2 d a b) d a b .f (fun rm => pair2 (hMul bf16 rm)) (ivTop2 .f) s

/-- R184. -/
def execFfmaB2 (d a b : F7) (s : State) : Host.Outcome State Fault Refusal :=
  vec3 (.ffmaB2 d a b) d a b .f (fun rm => pair3 (hFma bf16 rm)) (ivTop3 .f) s

/-- R184. -/
def execFaddH2 (d a b : F7) (s : State) : Host.Outcome State Fault Refusal :=
  vec2 (.faddH2 d a b) d a b .f (fun rm => pair2 (hAdd fp16 rm)) (ivTop2 .f) s

/-- R184. -/
def execFmulH2 (d a b : F7) (s : State) : Host.Outcome State Fault Refusal :=
  vec2 (.fmulH2 d a b) d a b .f (fun rm => pair2 (hMul fp16 rm)) (ivTop2 .f) s

/-- R184. -/
def execFfmaH2 (d a b : F7) (s : State) : Host.Outcome State Fault Refusal :=
  vec3 (.ffmaH2 d a b) d a b .f (fun rm => pair3 (hFma fp16 rm)) (ivTop3 .f) s

/-- R184. -/
def execFmaxB2 (d a b : F7) (s : State) : Host.Outcome State Fault Refusal :=
  vec2 (.fmaxB2 d a b) d a b .f (fun _ => (pair2 (maxCode bf16))) (ivTop2 .f) s

/-- R184. -/
def execFminB2 (d a b : F7) (s : State) : Host.Outcome State Fault Refusal :=
  vec2 (.fminB2 d a b) d a b .f (fun _ => (pair2 (minCode bf16))) (ivTop2 .f) s

end Sys2Proof.Machine
end

