-- ==== Sys2Proof/Machine/BoundsInstr.lean ====
section
/-! DEFINITION. The bounds-pass instructions of class 0xE (spec/06_bounds_pass.md R99, R103, R104; spec/14_program_causal_scores.md R247). -/

namespace Sys2Proof.Machine

/-! ### The bounds parameters of a launch record (R98, R286) -/

def Launch.ben (l : Launch) : Bool := l.record.getLsbD 512
def Launch.brole (l : Launch) : Nat := field l.record 513 2
def Launch.tileH (l : Launch) : Nat := 2 ^ field l.record 516 4
def Launch.tileW (l : Launch) : Nat := 2 ^ field l.record 520 4
def Launch.minH (l : Launch) : Nat := 2 ^ field l.record 524 4
def Launch.minW (l : Launch) : Nat := 2 ^ field l.record 528 4
def Launch.maxDepth (l : Launch) : Nat := field l.record 532 3
def Launch.domH (l : Launch) : Nat := field l.record 536 24
def Launch.domW (l : Launch) : Nat := field l.record 576 24
def Launch.totOff (l : Launch) : Nat := field l.record 600 18
def Launch.totCap (l : Launch) : Nat := field l.record 618 14

/-- Is the group of the bounds role of its launch (R99)? -/
def State.boundsRole (s : State) (g : Group) : Bool :=
  match s.launch? g.launch with
  | none => false
  | some l => l.ben && decide (g.role = l.brole)

/-! ### Elements (R73, R104) -/

/-- An element of a tensor that a lane names. -/
structure Elem where
  lane : Nat
  i3   : Nat
  i2   : Nat
  i1   : Nat
  i0   : Nat
  deriving DecidableEq, Repr

/-- Does every index lie in its dimension? -/
def TEntry.inside (e : TEntry) (x : Elem) : Bool := decide (x.i0 < e.dim 0 ∧ x.i1 < e.dim 1 ∧ x.i2 < e.dim 2 ∧ x.i3 < e.dim 3)

/-- The access of an element through DATA. -/
def TEntry.acc (e : TEntry) (x : Elem) : Acc := ⟨x.lane, e.byteOff x.i3 x.i2 x.i1 x.i0⟩

/-- The bit of its first byte at which a 4-bit element starts. -/
def TEntry.shift (e : TEntry) (x : Elem) : Nat := e.bitOff x.i3 x.i2 x.i1 x.i0 % 8

/-- The checks of R62 on some elements, an index outside its dimension being CAP_BOUNDS (R104); a compressed tensor stops first. -/
def elemFault (s : State) (x : Actor) (lane : Option Nat) (need : Nat) (e : TEntry) (es : List Elem) : Option Hard × State :=
  if e.comp ≠ 0 then (some { Hard.plain fcIllOp with lane := lane }, s)
  else match capStep s x lane tensorKinds need e.data with
    | (some h, s1) => (some h, s1)
    | (none, s1) =>
      match es.find? (fun y => !e.inside y || boundsBad x e.data e.elBytes (e.acc y)) with
      | some y => (some ⟨fcBounds, some y.lane, e.data.obj, if e.inside y then e.data.base + (e.acc y).off else e.data.base, 0⟩, s1)
      | none =>
        ((es.find? (fun y => decide ((e.data.base + (e.acc y).off) % e.elBytes ≠ 0))).map (fun y => ⟨fcAlign, some y.lane, e.data.obj, e.data.base + (e.acc y).off, 0⟩), s1)

/-- The accesses of some elements, every check made before any is performed. -/
def elemAccess (s : State) (x : Actor) (lane : Option Nat) (need : Nat) (u : Use) (e : TEntry) (es : List Elem) :
    Except Stop (List (Acc × Trans)) × State :=
  match elemFault s x lane need e es with
  | (some h, s1) => (.error (.hard h), s1)
  | (none, s1) => s1.accessAt x false e.data u e.elBytes (es.map e.acc)

/-- The decoded values of some elements at their places, ascending. -/
def State.loadElems (s : State) (x : Actor) (e : TEntry) : List (Elem × Trans) → List (Nat × W32) × State
  | [] => ([], s)
  | (y, t) :: ys =>
    let (bs, s1) := s.loadAcc x e.elBytes t
    let (rs, s2) := State.loadElems s1 x e ys
    ((y.lane, e.decode (e.code y.i3 y.i2 y.i1 y.i0 bs)) :: rs, s2)

/-- The code of a lane's word in an element (R104, R85, R86): the bits of an FP32 or an int32, else converted in a rounding mode. -/
def TEntry.encode (e : TEntry) (rm : Nat) (w : W32) : Nat :=
  if e.eltype = elInt32 ∨ e.eltype = elFp32 then w.toNat
  else if e.eltype = elFp16 then fp16.enc rm (ofW w)
  else if e.eltype = elBf16 then bf16.enc rm (ofW w)
  else e.format.enc rm (ofW w)

/-- Store a code at an element: a nibble is merged into its byte as one access (R104). -/
def State.storeElem (s : State) (x : Actor) (e : TEntry) (y : Elem) (t : Trans) (code : Nat) : State :=
  if e.bits = 4 then
    let (b, s1) := s.fetchByte x t.slot t.loc
    s1.storeAcc x e.data t [setField b (e.shift y) 4 code]
  else s.storeAcc x e.data t (toBytes e.elBytes code)

/-- Store to some elements, ascending (R130); a service queue answers each. -/
def State.storeElems (s : State) (x : Actor) (e : TEntry) (f : Nat → Nat) : List (Elem × Trans) → State
  | [] => s
  | (y, t) :: ys =>
    State.storeElems ((s.storeElem x e y t (f y.lane)).queueHook s (if x.held then [] else t.loc.addrs e.elBytes)) x e f ys

/-- Such stores; none where a held-effects team's commit buffer cannot take them (R45). Sectors written whole are no longer marked (R197). -/
def elemStore (s : State) (x : Actor) (e : TEntry) (f : Nat → Nat) (ys : List (Elem × Trans)) : Option State :=
  let places := ys.flatMap (fun y => (List.range e.elBytes).map (fun i => (y.2.loc.add i, y.2.slot)))
  if x.held && s.heldFull x places then none
  else
    let s1 := s.storeElems x e f ys
    some (if x.held then s1 else s1.unmark (ys.flatMap (fun y => y.2.loc.addrs e.elBytes)))

/-- The elements beside their places. -/
def withPlaces (es : List Elem) (ts : List (Acc × Trans)) : List (Elem × Trans) := es.zip (ts.map (·.2))

/-! ### The scalar of tld, tst and bfill -/

/-- A tensor, i2 and i3 from the scalar, or ILLEGAL_OPERAND. -/
def State.elemTensor (s : State) (p : Nat) (x : W64) : Option (TEntry × Nat × Nat) :=
  if field x 44 20 ≠ 0 then none else (s.tensor p (field x 0 12)).map (fun e => (e, field x 12 16, field x 28 16))

/-- The elements that the executing lanes name by two vector registers. -/
def Ctx.elems (c : Ctx) (b : F7) (i2 i3 : Nat) : List Elem :=
  c.lanes.map (fun l => ⟨l, i3, i2, (c.regs.rv (b.toNat + 1) l).toNat, (c.regs.rv b.toNat l).toNat⟩)

/-- The elements that the lanes of a dispatch stand for: ROW and COL. -/
def State.tileElems (s : State) (c : Ctx) (i2 i3 : Nat) : List Elem :=
  c.lanes.map (fun l => ⟨l, i3, i2, (s.vectorSr c 4 l).toNat, (s.vectorSr c 5 l).toNat⟩)

/-! ### tld -/

/-- The least and the greatest of the summary entries, under the tensor's tag (R104, R74). -/
def TEntry.sumHull (e : TEntry) (ws : List W64) : Iv :=
  let lo (w : W64) : W32 := w.extractLsb' 0 32
  let hi (w : W64) : W32 := w.extractLsb' 32 32
  if e.eltype = elInt32 then ⟨(ws.map lo).foldl (boundMin .s) (((ws.map lo)).headD 0), (ws.map hi).foldl (boundMax .s) ((ws.map hi).headD 0), .s, false⟩
  else hullF false (ws.map lo) (ws.map hi)

/-- The summary entries that the index intervals cover, or none: no plane, an index outside, more than 256. -/
def TEntry.covered (e : TEntry) (i2 i3 : Nat) (r k : Iv) : Option (List Nat) :=
  let (r, k) := (r.as .z, k.as .z)
  let (r0, r1, k0, k1) := (r.lo.toNat, r.hi.toNat, k.lo.toNat / 64, k.hi.toNat / 64)
  if !e.utag || decide (e.dim 1 ≤ r1 ∨ e.dim 0 ≤ k.hi.toNat ∨ e.dim 2 ≤ i2 ∨ e.dim 3 ≤ i3 ∨ r1 < r0 ∨ k.hi.toNat < k.lo.toNat) then none
  else if 256 < (r1 - r0 + 1) * (k1 - k0 + 1) then none
  else some ((List.range (r1 - r0 + 1)).flatMap (fun i => (List.range (k1 - k0 + 1)).map (fun j => e.sumOff i3 i2 (r0 + i) (64 * (k0 + j)))))

/-- The words of some summary entries. -/
def State.loadWords (s : State) (x : Actor) : List (Acc × Trans) → List W64 × State
  | [] => ([], s)
  | (_, t) :: ts =>
    let (bs, s1) := s.loadAcc x 8 t
    let (ws, s2) := State.loadWords s1 x ts
    (BitVec.ofNat 64 (ofBytes bs) :: ws, s2)

/-- One lane of a bounds-mode `tld`: its interval, or its tile is abandoned (R103, R104). A soft fault gives TOP and posts its record. -/
def boundsTld (s : State) (x : Actor) (e : TEntry) (i2 i3 l : Nat) (k r : Iv) : Except Stop (Option Iv) × State :=
  let top := Iv.top e.tag
  let answer (a : Except Stop (List (Acc × Trans)) × State) (f : List (Acc × Trans) → State → Iv × State) : Except Stop (Option Iv) × State :=
    match a with
    | (.error (.hard _), s1) => (.ok none, s1)
    | (.error (.soft q), s1) => (.ok (some top), s1.postSoft x.obs.part q)
    | (.error q, s1) => (.error q, s1)
    | (.ok ts, s1) =>
      let (v, s2) := f ts s1
      (.ok (some v), s2)
  if k.degen && r.degen then
    let es : List Elem := [⟨l, i3, i2, r.lo.toNat, k.lo.toNat⟩]
    answer (elemAccess s x (some l) rR .load e es) (fun ts s1 =>
      let (vs, s2) := s1.loadElems x e (withPlaces es ts)
      (Iv.point e.tag ((vs.map (·.2)).headD 0), s2))
  else match elemFault s x (some l) rR e [] with
    | (some _, s0) => (.ok none, s0)
    | (none, s0) =>
      match e.covered i2 i3 r k with
      | none => (.ok (some top), s0)
      | some offs =>
        let accs : List Acc := offs.map (fun o => ⟨l, o⟩)
        match s0.capCheck x e.summary tensorKinds rR 8 accs with
        | (some _, s1) => (.ok none, s1)
        | (none, s1) => answer (s1.accessAt x false e.summary .load 8 accs) (fun ts s2 =>
            let (ws, s3) := s2.loadWords x ts
            (e.sumHull ws, s3))

/-- All lanes of a bounds-mode `tld`. -/
def boundsTlds (s : State) (x : Actor) (c : Ctx) (e : TEntry) (i2 i3 b : Nat) : List Nat → Except Stop (List (Nat × Option Iv)) × State
  | [] => (.ok [], s)
  | l :: ls =>
    match boundsTld s x e i2 i3 l (c.iv b l) (c.iv (b + 1) l) with
    | (.error q, s1) => (.error q, s1)
    | (.ok v, s1) =>
      match boundsTlds s1 x c e i2 i3 b ls with
      | (.error q, s2) => (.error q, s2)
      | (.ok vs, s2) => (.ok ((l, v) :: vs), s2)

/-- R104. -/
def execTld (d a b : F7) (s : State) : Host.Outcome State Fault Refusal :=
  wordOf (shTld d a b) s fun s c =>
    let x := s.actor c.uid c.g
    match s.elemTensor c.g.part (c.regs.rs a.toNat) with
    | none => .hard s (Hard.plain fcIllOp)
    | some (e, i2, i3) =>
      if e.comp ≠ 0 then .hard s (Hard.plain fcIllOp)
      else if c.g.mode = 1 then
        match boundsTlds s x c e i2 i3 b.toNat c.lanes with
        | (.error q, s1) => Res.ofStop s1 q
        | (.ok vs, s1) =>
          let failed := maskOf (fun l => vs.any (fun v => decide (v.1 = l) && v.2.isNone)) 64
          let at_ (l : Nat) : Iv := ((vs.find? (fun v => decide (v.1 = l))).bind (·.2)).getD (Iv.top e.tag)
          let s2 := c.writeIvs s1 d.toNat at_ (c.lanes.filter (fun l => !bit failed l))
          if failed = 0 then .done s2 else .aband s2 failed
      else
        let es := c.elems b i2 i3
        match elemAccess s x (lowestLane c.mask) rR .load e es with
        | (.error q, s1) => Res.ofStop s1 q
        | (.ok ts, s1) =>
          let (vs, s2) := s1.loadElems x e (withPlaces es ts)
          .done (c.write s2 (fun y => y.wvs d.toNat (fun l => ((vs.find? (fun v => decide (v.1 = l))).map (·.2)).getD 0) c.lanes))

/-! ### tst and bfill -/

/-- Element work of the executing lanes (R103, R106). -/
def Ctx.elementWork (c : Ctx) (s : State) : State :=
  s.onGroup c.uid (fun g => g.onLanes c.mask (fun _ x => { x with tile := x.tile.map (fun t => { t with work := true }) }))

/-- A store to the elements of the executing lanes. -/
def storeLanes (s : State) (c : Ctx) (e : TEntry) (es : List Elem) (v : Nat → W32) : Res :=
  let x := s.actor c.uid c.g
  match elemAccess s x (lowestLane c.mask) rW .store e es with
  | (.error q, s1) => Res.ofStop s1 q
  | (.ok ts, s1) =>
    match elemStore s1 x e (fun l => e.encode c.rm (v l)) (withPlaces es ts) with
    | none => .hard s1 (Hard.plain fcHeld)
    | some s2 => .done s2

/-- R104. In bounds mode it is element work without a check of the tensor beyond its scalar (log entry 113). -/
def execTst (d a b : F7) (s : State) : Host.Outcome State Fault Refusal :=
  wordOf (shTst d a b) s fun s c =>
    match s.elemTensor c.g.part (c.regs.rs a.toNat) with
    | none => .hard s (Hard.plain fcIllOp)
    | some (e, i2, i3) => if c.g.mode = 1 then .done (c.elementWork s) else storeLanes s c e (c.elems b i2 i3) (fun l => c.regs.rv d.toNat l)

/-- Does a tile's region lie in the tensor (R104)? -/
def TEntry.holdsTile (e : TEntry) (row col : Nat) (t : TileLane) (i2 i3 : Nat) : Bool :=
  decide (row + t.h ≤ e.dim 1 ∧ col + t.w ≤ e.dim 0 ∧ i2 < e.dim 2 ∧ i3 < e.dim 3)

/-- What a bounds-mode `bfill` makes of a lane: it ends the tile, or records the fill. -/
def fillLane (s : State) (c : Ctx) (e : TEntry) (bad : Bool) (tid i2 i3 b l : Nat) (x : Lane) : Lane :=
  match x.tile with
  | none => x
  | some t =>
    let stop (o : TileEnd) : Lane := { x with state := .exit, tile := some { t with ended := some o } }
    let v := c.iv b l
    if !v.degen then stop .quarter
    else if bad || decide (4 ≤ t.fills.length) || !e.holdsTile (s.vectorSr c 4 l).toNat (s.vectorSr c 5 l).toNat t i2 i3 then stop .abandoned
    else { x with pc := nextPc c.pc, tile := some { t with fills := t.fills ++ [⟨tid, i2, i3, BitVec.ofNat 32 (e.encode c.rm v.lo)⟩] } }

/-- R104. -/
def execBfill (a b : F7) (s : State) : Host.Outcome State Fault Refusal :=
  wordOf (shBfill a b) s fun s c =>
    let q := c.regs.rs a.toNat
    if c.g.mode = 0 then .hard s (Hard.plain fcIllInst)
    else
      match s.elemTensor c.g.part q with
      | none => .hard s (Hard.plain fcIllOp)
      | some (e, i2, i3) =>
        if e.comp ≠ 0 then .hard s (Hard.plain fcIllOp)
        else if c.g.mode = 1 then
          let (h, s1) := capStep s (s.actor c.uid c.g) (lowestLane c.mask) tensorKinds rW e.data
          let bad := h.isSome
          .moved (s1.onGroup c.uid (fun g => g.onLanes c.mask (fun l x => fillLane s1 c e bad (field q 0 12) i2 i3 b.toNat l x)))
        else storeLanes s c e (s.tileElems c i2 i3) (fun l => c.regs.rv b.toNat l)

/-! ### Ending a tile -/

/-- R104. -/
def execBsplit (s : State) : Host.Outcome State Fault Refusal :=
  wordOf shBsplit s fun s c => if c.g.mode = 1 then .moved (s.onGroup c.uid (fun g => g.endTiles c.mask .quarter)) else .done s

/-- R104. -/
def execBabandon (s : State) : Host.Outcome State Fault Refusal :=
  wordOf shBabandon s fun s c => if c.g.mode = 1 then .moved (s.onGroup c.uid (fun g => g.endTiles c.mask .abandoned)) else .done s

/-! ### Interval arithmetic by hand -/

/-- R104: outside bounds mode vd := va. -/
def ivWord (sh : Shape) (d a : F7) (f : Ctx → Nat → Iv) (s : State) : Host.Outcome State Fault Refusal :=
  wordOf sh s fun s c => c.setVec s d (fun l => c.regs.rv a.toNat l) (f c)

/-- R104. -/
def execBlo (d a : F7) (s : State) : Host.Outcome State Fault Refusal :=
  ivWord (shBlo d a) d a (fun c l => { c.iv a.toNat l with hi := (c.iv a.toNat l).lo }) s

/-- R104. -/
def execBhi (d a : F7) (s : State) : Host.Outcome State Fault Refusal :=
  ivWord (shBhi d a) d a (fun c l => { c.iv a.toNat l with lo := (c.iv a.toNat l).hi }) s

/-- R104. -/
def execBhull (d a b : F7) (s : State) : Host.Outcome State Fault Refusal :=
  ivWord (shBhull d a b) d a (fun c l => (c.iv a.toNat l).hull (c.iv b.toNat l)) s

/-- R104: the interval widened by x on both sides. -/
def Iv.widen (a : Iv) (x : W32) : Iv :=
  match a.tag with
  | .f =>
    if isNaN32 x then Iv.top .f
    else if a.nanOnly then a
    else
      let lo := f32sub rmRdn a.lo x
      let hi := f32add rmRup a.hi x
      ⟨if isNaN32 lo then fNegInf else lo, if isNaN32 hi then fPosInf else hi, .f, a.nan⟩
  | .s =>
    let clip (v : Int) : W32 := BitVec.ofInt 32 (max (-(2 ^ 31)) (min v (2 ^ 31 - 1)))
    ⟨clip (a.ilo - x.toInt), clip (a.ihi + x.toInt), .s, a.nan⟩
  | .z =>
    let clip (v : Int) : W32 := BitVec.ofInt 32 (max 0 (min v (2 ^ 32 - 1)))
    ⟨clip (a.ilo - x.toNat), clip (a.ihi + x.toNat), .z, a.nan⟩

/-- R104. -/
def execBwiden (d a b : F7) (s : State) : Host.Outcome State Fault Refusal :=
  ivWord (shBwiden d a b) d a (fun c l => (c.iv a.toNat l).widen ((c.regs.rs b.toNat).setWidth 32)) s

/-! ### bmode (R99) -/

/-- Is some lane of the group parked at another `bmode` word? -/
def Group.otherBmode (g : Group) (p : Pc) : Bool := g.lanes.any (fun x => decide (x.state = .park ∧ x.park = .bmode ∧ x.pc ≠ p))

/-- R99. The scalars of the latest lanes to arrive stand for the group (log entry 114). -/
def execBmode (a b : F7) (s : State) : Host.Outcome State Fault Refusal :=
  wordOf (shBmode a b) s fun s c =>
    let x := c.regs.rs a.toNat
    if c.g.mode ≠ 0 ∨ !s.boundsRole c.g then .hard s (Hard.plain fcIllInst)
    else if field x 48 16 ≠ 0 ∨ x.toNat % 4 ≠ 0 ∨ x.toNat % 32 = 0 ∨ c.g.otherBmode c.pc then .hard s (Hard.plain fcIllOp)
    else .moved ((c.park s .bmode s.aclk).onGroup c.uid (fun g => { g with bmode := some (x, c.regs.rs b.toNat) }))

end Sys2Proof.Machine
end

