-- ==== Sys2Proof/Machine/BoundsPass.lean ====
section
/-! DEFINITION. The bounds sequencer (spec/06_bounds_pass.md R99, R100, R106 to R111; spec/14_program_causal_scores.md R246): starting a pass, its
evaluations, dispatches and fills, the outcome table, and the end of a pass. -/

namespace Sys2Proof.Machine

/-! ### When the sequencer may act (R110) -/

/-- May it start something new for the group? -/
def State.bsqOpen (s : State) (g : Group) : Bool := (decide (g.level ≠ .u) || s.ctxRuns g.part) && decide (g.fault = none) && !g.halted

/-- May it finish what is under way: also while its context stops, until it has acknowledged? -/
def State.bsqFinish (s : State) (g : Group) : Bool :=
  decide (g.level ≠ .u) || (match s.context? g.part with
    | none => false
    | some c => decide (c.state = .running) || (decide (c.state = .stopping) && !c.acks.contains (g.core, .boundsSequencer)))

/-- The live groups of the bounds role in a team. -/
def State.roleGroups (s : State) (t : Nat) : List (Nat × Group) :=
  s.groups.filter (fun e => decide (e.2.team = t) && s.boundsRole e.2 && !e.2.retired)

/-- Is a group ready: every live lane parked at its `bmode` (R99)? -/
def Group.ready99 (g : Group) : Bool :=
  g.bmode.isSome && g.dispatch.isNone && decide (g.fault = none) && decide (g.live ≠ 0) &&
  decide (g.lanesWith (fun x => decide (x.state = .park ∧ x.park = .bmode)) = g.live)

/-- The group that became ready first: its last word issued earliest. -/
def firstReady : List (Nat × Group) → Option (Nat × Group)
  | [] => none
  | e :: es =>
    match firstReady es with
    | none => some e
    | some f => some (if e.2.last.getD 0 ≤ f.2.last.getD 0 then e else f)

/-! ### The outcome table (R111) -/

/-- The header quadword, from a point of the pass on. -/
def State.totHeader (s : State) (t : Nat) (l : Launch) (produced written : Nat) : State :=
  if l.totCap = 0 then s else s.writeBytes 0 (.team t l.totOff) (toBytes 8 (produced % 2 ^ 32 + written * 2 ^ 32))

/-- The header and the quadword after it, at the start of a pass. -/
def State.totStart (s : State) (t : Nat) (l : Launch) : State :=
  if l.totCap = 0 then s else s.writeBytes 0 (.team t l.totOff) (toBytes 16 0)

/-- Quadword 0 of an entry. -/
def Tile.entry (x : Tile) : W64 :=
  BitVec.ofNat 64 (x.outcome * 2 ^ 61 + x.depth * 2 ^ 58 + x.ndec * 2 ^ 51 + x.fills.length * 2 ^ 48 + x.col % 2 ^ 24 * 2 ^ 24 + x.row % 2 ^ 24)

/-- The pass of a team. -/
def State.onPass (s : State) (t : Nat) (f : Pass → Pass) : State := s.onTeam t (fun tm => { tm with pass := tm.pass.map f })
def State.pass? (s : State) (t : Nat) : Option Pass := (s.team? t).bind (·.pass)

/-- The entry of tile i, once its outcome is determined. -/
def State.writeOutcome (s : State) (t : Nat) (l : Launch) (i : Nat) : State :=
  match (s.pass? t).bind (fun p => p.queue[i]?) with
  | none => s
  | some x =>
    if l.totCap ≤ i then s
    else (s.writeBytes 0 (.team t (l.totOff + 16 + 16 * i)) (toBytes 8 x.entry.toNat ++ toBytes 8 x.path.toNat)).onPass t (fun p => { p with written := p.written + 1 })

def State.writeOutcomes (s : State) (t : Nat) (l : Launch) : List Nat → State
  | [] => s
  | i :: is => State.writeOutcomes (s.writeOutcome t l i) t l is

/-- The header after an evaluation whose outcomes are all determined. -/
def State.closeBatch (s : State) (t : Nat) (l : Launch) : State :=
  match s.pass? t with
  | none => s
  | some p => if p.batch.isEmpty then s.totHeader t l p.queue.length p.written else s

/-! ### Starting a pass (R99) -/

/-- The depth-0 tiles in row-major order. -/
def Launch.tiles (l : Launch) : List Tile :=
  (List.range (l.domH / l.tileH)).flatMap (fun r => (List.range (l.domW / l.tileW)).map (fun k =>
    ⟨r * l.tileH, k * l.tileW, l.tileH, l.tileW, 0, 0, 0, 0, [], 0⟩))

/-- A mismatching group's lanes stand at the word again, and fault. -/
def State.refuseBmode (s : State) (uid : Nat) (g : Group) : State :=
  let m := g.live
  (s.onGroup uid (fun g => ({ g with bmode := none } : Group).onLanes m (fun _ x => { x with state := .run, park := .no }))).takeFault uid m (Hard.plain fcIllOp) false

def State.refuseBmodes (s : State) : List (Nat × Group) → State
  | [] => s
  | e :: es => State.refuseBmodes (s.refuseBmode e.1 e.2) es

/-- Every live group of the role is ready: the pass starts, or the mismatching groups fault. -/
def startPass (s : State) (t : Nat) (l : Launch) (gs : List (Nat × Group)) : State :=
  match firstReady gs with
  | none => s
  | some f =>
    let bad := gs.filter (fun e => decide (e.2.bmode ≠ f.2.bmode))
    if !bad.isEmpty then s.refuseBmodes bad
    else
      let (a, b) := f.2.bmode.getD (0, 0)
      let p : Pass := { entry := BitVec.ofNat 48 (field a 0 48), rowOrg := b.extractLsb' 0 32, colOrg := b.extractLsb' 32 32, queue := l.tiles, next := 0,
                        batch := [], groups := gs.map (·.1), written := 0 }
      (s.onTeam t (fun tm => { tm with pass := some p })).totStart t l

/-! ### Dispatches (R100) -/

/-- The start of a dispatch on a group: its lanes stand for what `f` says. -/
def Group.beginDispatch (g : Group) (mark mode tile block : Nat) (entry : Pc) (f : Nat → Option TileLane) : Group :=
  { g with
    dispatch := some ⟨mode, tile, block, 0, mark, g.regs, g.js, g.rm, g.lanes⟩
    regs := { g.regs with v := [] }
    shadow := []
    js := []
    lanes := (List.range g.width).map (fun l => match f l with
      | none => Lane.exited
      | some t => { Lane.start entry 0 with tile := some t }) }

/-- The end of a dispatch: what it wrote to registers is discarded. -/
def Group.endDispatch (g : Group) : Group :=
  match g.dispatch with
  | none => g
  | some d =>
    { g with
      dispatch := none
      regs := d.regs
      shadow := []
      js := d.js
      rm := d.rm
      lanes := d.lanes
      recent := []
      memHold := none
      yielded := none
      pend := g.pend.filter (fun p => match p.why with
        | .op u => decide (u < d.mark)
        | _ => false) }

/-- Has every lane of the dispatch exited, its operand log performed? -/
def Group.dispatchOver (g : Group) : Bool := decide (g.live = 0) && g.log.isEmpty

/-! ### Bounds evaluations (R106, R107, R246) -/

/-- What lane l of an evaluation stands for. -/
def Tile.lane (i : Nat) (x : Tile) : TileLane := ⟨i, x.row, x.col, x.h, x.w, x.depth, 0, 0, 0, [], false, none⟩

/-- The tiles of the next evaluation: the oldest not evaluated, of one depth, at most a group's width. -/
def Pass.nextTiles (p : Pass) (width : Nat) : List Tile :=
  match p.queue.drop p.next with
  | [] => []
  | x :: xs => (x :: xs.takeWhile (fun y => decide (y.depth = x.depth))).take width

/-- Start an evaluation on a group. -/
def startEval (s : State) (uid : Nat) (g : Group) (p : Pass) : State :=
  let ts := p.nextTiles g.width
  let s1 := s.onPass g.team (fun p => { p with next := p.next + ts.length, batch := (List.range ts.length).map (p.next + ·) })
  s1.onGroup uid (fun g => g.beginDispatch s.nextUid 1 p.next 0 p.entry (fun l => (ts[l]?).map (fun x => x.lane (p.next + l))))

/-- R107: may the tile be quartered? -/
def Launch.quarters (l : Launch) (x : Tile) : Bool := decide (x.depth < l.maxDepth ∧ l.minH ≤ x.h / 2 ∧ l.minW ≤ x.w / 2)

/-- The four children. -/
def Tile.children (x : Tile) : List Tile :=
  let c (r k : Nat) : Tile := ⟨x.row + r, x.col + k, x.h / 2, x.w / 2, x.depth + 1, 0, 0, 0, [], 0⟩
  [c 0 0, c 0 (x.w / 2), c (x.h / 2) 0, c (x.h / 2) (x.w / 2)]

/-- The outcome code of R111 for how a lane ended; 0 for a RETIRED tile whose fills are still to be performed. -/
def outcomeOf (l : Launch) (x : Tile) (t : TileLane) : Nat :=
  match t.ended with
  | some .retired => if t.fills.isEmpty then 1 else 0
  | some .settled => 2
  | some .quarter => if l.quarters x then 3 else 5
  | _ => 4

/-- A tile after its lane has ended. -/
def Tile.decided (l : Launch) (x : Tile) (t : TileLane) : Tile := { x with outcome := outcomeOf l x t, path := t.path, ndec := t.ndec, fills := t.fills }

/-- The lanes of an evaluation with what they stand for. -/
def Group.tileLanes (g : Group) : List TileLane := g.lanes.filterMap (·.tile)

/-- The queue after an evaluation: outcomes, then the children of the quartered tiles in ascending order of their parents. -/
def Pass.settle (p : Pass) (l : Launch) (ts : List TileLane) : List Tile :=
  let q := p.queue.zipIdx.map (fun (x, i) => match ts.find? (fun t => decide (t.tile = i)) with
    | none => x
    | some t => x.decided l t)
  q ++ (q.zipIdx.filter (fun e => decide (e.1.outcome = 3) && ts.any (fun t => decide (t.tile = e.2)))).flatMap (fun e => e.1.children)

/-- The end of an evaluation: the determined outcomes are recorded, the fills of RETIRED tiles wait their turns. -/
def endEval (s : State) (uid : Nat) (g : Group) (l : Launch) (p : Pass) : State :=
  let ts := g.tileLanes
  let q := p.settle l ts
  let undone (i : Nat) : Bool := decide ((q[i]?).map (·.outcome) = some 0)
  let s1 := (s.onGroup uid (·.endDispatch)).onPass g.team (fun p => { p with queue := q, batch := p.batch.filter undone })
  (s1.writeOutcomes g.team l (p.batch.filter (fun i => !undone i))).closeBatch g.team l

/-! ### The end of a pass -/

/-- The blocks of a tile that needs dispatches (R108), for a group width. -/
def Tile.blocks (x : Tile) (width : Nat) : Nat :=
  if x.outcome = 2 ∨ x.outcome = 4 ∨ x.outcome = 5 then x.w / 8 * (x.h / (width / 8)) else 0

/-- Has a pass done everything but its dispatches under way? -/
def Pass.over (p : Pass) (width : Nat) : Bool :=
  decide (p.queue.length ≤ p.next) && p.batch.isEmpty && p.queue.all (fun x => decide (x.blocks width ≤ x.done))

/-- `bmode` retires in a group: its vector registers are undefined, its lanes go on (R100). -/
def State.endBmode (s : State) (uid : Nat) : State :=
  match s.group? uid with
  | none => s
  | some g =>
    (s.freeRegs uid (s.domOf g) ((List.range g.budget).map RegName.v)).onGroup uid (fun g =>
      ({ g with bmode := none } : Group).onLanes (BitVec.allOnes 64) (fun _ x => if x.state = .park ∧ x.park = .bmode then x.resume else x))

def State.endBmodes (s : State) : List Nat → State
  | [] => s
  | u :: us => State.endBmodes (s.endBmode u) us

/-- Is no group of the pass in a dispatch? -/
def State.passIdle (s : State) (p : Pass) : Bool := p.groups.all (fun u => ((s.group? u).map (fun g => g.dispatch.isNone)).getD true)

/-- BOUNDS_EVALUATION (R106): a pass starts, an evaluation starts or ends, or the pass ends. -/
def execBoundsEvaluation (group : Nat) (s : State) : Host.Outcome State Fault Refusal :=
  match s.group? group with
  | none => .next s
  | some g =>
    match s.launch? g.launch with
    | none => .next s
    | some l =>
      match s.pass? g.team with
      | none =>
        let gs := s.roleGroups g.team
        if s.bsqOpen g && g.ready99 && gs.all (fun e => e.2.ready99) && gs.any (fun e => decide (e.1 = group)) then .next (startPass s g.team l gs) else .next s
      | some p =>
        if !p.groups.contains group then .next s
        else if g.mode = 1 then .next (if g.dispatchOver && s.bsqFinish g then endEval s group g l p else s)
        else if g.dispatch.isSome || !s.bsqOpen g then .next s
        else if p.batch.isEmpty && decide (p.next < p.queue.length) then .next (startEval s group g p)
        else if p.over g.width && s.passIdle p then .next ((s.endBmodes p.groups).onTeam g.team (fun t => { t with pass := none }))
        else .next s

/-- TILE_ISSUE_LIMIT (R106). -/
def execTileIssueLimit (group : Nat) (s : State) : Host.Outcome State Fault Refusal :=
  match s.group? group with
  | none => .next s
  | some g =>
    match g.dispatch with
    | none => .next s
    | some d => .next (if d.mode = 1 ∧ 4096 ≤ d.issues then s.onGroup group (fun g => g.endTiles g.live .abandoned) else s)

/-! ### Settled and element dispatches (R108) -/

/-- What lane l of block k of a tile stands for. -/
def Tile.element (i k width l : Nat) (x : Tile) : TileLane :=
  let rows := width / 8
  let cols := x.w / 8
  ⟨i, x.row + k / cols * rows + l / 8, x.col + k % cols * 8 + l % 8, x.h, x.w, x.depth, x.path, x.ndec, 0, [], false, none⟩

/-- The first tile with a block still to dispatch in a mode. -/
def Pass.blockFor (p : Pass) (mode width : Nat) : Option (Nat × Tile) :=
  (p.queue.zipIdx.find? (fun e => (if mode = 2 then decide (e.1.outcome = 2) else decide (e.1.outcome = 4 ∨ e.1.outcome = 5)) &&
    decide (e.1.done < e.1.blocks width))).map (fun e => (e.2, e.1))

/-- A dispatch event of a mode: the dispatch under way ends, or the next block starts. -/
def blockEvent (mode group : Nat) (s : State) : Host.Outcome State Fault Refusal :=
  match s.group? group with
  | none => .next s
  | some g =>
    match s.pass? g.team with
    | none => .next s
    | some p =>
      if !p.groups.contains group then .next s
      else if g.mode = mode then .next (if g.dispatchOver && s.bsqFinish g then s.onGroup group (·.endDispatch) else s)
      else if g.dispatch.isSome || !s.bsqOpen g then .next s
      else
        match p.blockFor mode g.width with
        | none => .next s
        | some (i, x) =>
          let s1 := s.onPass g.team (fun p => { p with queue := p.queue.zipIdx.map (fun (y, j) => if j = i then { y with done := y.done + 1 } else y) })
          .next (s1.onGroup group (fun g => g.beginDispatch s.nextUid mode i x.done p.entry (fun l => some (x.element i x.done g.width l))))

/-- SETTLED_DISPATCH (R108). -/
def execSettledDispatch (group : Nat) (s : State) : Host.Outcome State Fault Refusal := blockEvent 2 group s

/-- ELEMENT_DISPATCH (R108). -/
def execElementDispatch (group : Nat) (s : State) : Host.Outcome State Fault Refusal := blockEvent 3 group s

/-! ### Fills (R109) -/

/-- The elements of a tile's region. -/
def Tile.region (x : Tile) (p : Pass) (f : FillRec) : List Elem :=
  let r0 := (p.rowOrg + BitVec.ofNat 32 x.row).toNat
  let c0 := (p.colOrg + BitVec.ofNat 32 x.col).toNat
  (List.range x.h).flatMap (fun r => (List.range x.w).map (fun k => ⟨0, f.i3, f.i2, r0 + r, c0 + k⟩))

/-- One fill: every check, then every store. -/
def performFill (s : State) (x : Actor) (es : List Elem) (f : FillRec) : Except Stop State × State :=
  match s.tensor x.obs.part f.tid with
  | none => (.error (.hard (Hard.plain fcIllOp)), s)
  | some e =>
    match elemAccess s x none rW .store e es with
    | (.error q, s1) => (.error q, s1)
    | (.ok ts, s1) =>
      match elemStore s1 x e (fun _ => f.code.toNat) (withPlaces es ts) with
      | none => (.error (.hard (Hard.plain fcHeld)), s1)
      | some s2 => (.ok s2, s2)

/-- Change tile i of a pass. -/
def State.onTile (s : State) (t i : Nat) (f : Tile → Tile) : State :=
  s.onPass t (fun p => { p with queue := p.queue.zipIdx.map (fun (y, j) => if j = i then f y else y) })

/-- The outcome of the tile whose fills are being performed is determined. -/
def State.fillsOver (s : State) (t : Nat) (l : Launch) (i outcome : Nat) : State :=
  (((s.onTile t i (fun y => { y with outcome := outcome, done := 0 })).onPass t (fun p => { p with batch := p.batch.filter (fun j => decide (j ≠ i)) })).writeOutcome t l i).closeBatch t l

/-- FILL (R109): the next fill of the pass; an absent page holds it, a hard fault makes its tile ABANDONED. -/
def execFill (group : Nat) (s : State) : Host.Outcome State Fault Refusal :=
  match s.group? group with
  | none => .next s
  | some g =>
    match s.launch? g.launch, s.pass? g.team with
    | some l, some p =>
      match p.batch with
      | [] => .next s
      | i :: _ =>
        match p.queue[i]? with
        | none => .next s
        | some x =>
          match x.fills[x.done]? with
          | none => .next s
          | some f =>
            if !p.groups.contains group || !s.bsqOpen g || p.groups.any (fun u => ((s.group? u).map (fun g => decide (g.mode = 1))).getD false) then .next s
            else
              match performFill s (s.actor group g) (x.region p f) f with
              | (.error (.hard _), s1) => .next (s1.fillsOver g.team l i 4)
              | (.error (.soft q), s1) => .next (s1.postSoft g.part q)
              | (.error .wait, s1) => .next s1
              | (.error (.beyond a), _) => .fault (.noSuchAddress a)
              | (.ok s1, _) =>
                if x.done + 1 = x.fills.length then .next (s1.fillsOver g.team l i 1)
                else .next (s1.onTile g.team i (fun y => { y with done := y.done + 1 }))
    | _, _ => .next s

end Sys2Proof.Machine
end

