-- ==== Sys2Proof/Machine/Convert.lean ====
section
/-! DEFINITION. Class 0x5, conversions and transcendentals (spec/11_ref_float_crosslane.md R185 to R188), with the interval rules of
spec/06_bounds_pass.md R103. -/

namespace Sys2Proof.Machine

/-- An integer interval converted: the endpoints rounded outward. -/
def ivOfInt (t : ITag) (f : Nat → W32 → W32) (a : Iv) : Iv := ⟨f rmRdn (a.as t).lo, f rmRup (a.as t).hi, .f, false⟩

/-- A float interval converted: the endpoints rounded outward and saturated; a value that may be NaN adds 0. -/
def ivToInt (t : ITag) (f : Nat → W32 → W32) (a : Iv) : Iv :=
  let a := a.as .f
  if a.nanOnly then Iv.point t 0
  else
    let lo := f rmRdn a.lo
    let hi := f rmRup a.hi
    if a.nan then ⟨boundMin t lo 0, boundMax t hi 0, t, false⟩ else ⟨lo, hi, t, false⟩

/-- The interval [-1, 1] of `fsinpi` and `fcospi`; an infinity gives NaN. -/
def ivUnit (a : Iv) : Iv :=
  let a := a.as .f
  ⟨0xBF800000, 0x3F800000, .f, a.nan || decide (a.lo = fNegInf) || decide (a.hi = fPosInf)⟩

/-- R185. -/
def execCvtFS (d a : F7) (s : State) : Host.Outcome State Fault Refusal :=
  vec1 (.cvtFS d a) d a .f f32ofS (ivOfInt .s f32ofS) s

/-- R185. -/
def execCvtFZ (d a : F7) (s : State) : Host.Outcome State Fault Refusal :=
  vec1 (.cvtFZ d a) d a .f f32ofZ (ivOfInt .z f32ofZ) s

/-- R185. -/
def execCvtSF (d a : F7) (s : State) : Host.Outcome State Fault Refusal :=
  vec1 (.cvtSF d a) d a .s f32toS (ivToInt .s f32toS) s

/-- R185. -/
def execCvtZF (d a : F7) (s : State) : Host.Outcome State Fault Refusal :=
  vec1 (.cvtZF d a) d a .z f32toZ (ivToInt .z f32toZ) s

/-- Two FP32 values as one packed pair. -/
def packPair (f : FFmt) (rm : Nat) (x y : W32) : W32 := BitVec.ofNat 32 (f.enc rm (ofW x) + 2 ^ 16 * f.enc rm (ofW y))

/-- An element of a packed pair as FP32, exact. -/
def unpackPair (f : FFmt) (sel : Nat) (x : W32) : W32 := toW rmRne (f.dec (field x (16 * sel) 16))

/-- R186. -/
def execCvtB2F (d a b : F7) (s : State) : Host.Outcome State Fault Refusal :=
  vec2 (.cvtB2F d a b) d a b .f (packPair bf16) (ivTop2 .f) s

/-- R186. -/
def execCvtH2F (d a b : F7) (s : State) : Host.Outcome State Fault Refusal :=
  vec2 (.cvtH2F d a b) d a b .f (packPair fp16) (ivTop2 .f) s

/-- R186. -/
def execCvtFB2 (d a n : F7) (s : State) : Host.Outcome State Fault Refusal :=
  vec1 (.cvtFB2 d a n) d a .f (fun _ => unpackPair bf16 n.toNat) (ivTop1 .f) s

/-- R186. -/
def execCvtFH2 (d a n : F7) (s : State) : Host.Outcome State Fault Refusal :=
  vec1 (.cvtFH2 d a n) d a .f (fun _ => unpackPair fp16 n.toNat) (ivTop1 .f) s

/-- A word that converts by the format word of a scalar: an invalid one stops it (R83, R187). -/
def vecNarrow (i : Instr) (d a b : F7) (t : ITag) (f : Narrow → Nat → W32 → W32) (s : State) : Host.Outcome State Fault Refusal :=
  word i s fun s c =>
    let n := narrowOf ((c.regs.rs b.toNat).setWidth 16)
    if !n.valid then .hard s (Hard.plain fcIllOp)
    else c.setVec s d (fun l => f n c.rm (c.regs.rv a.toNat l)) (fun l => lift1 t (f n c.rm) (ivTop1 t) (c.iv a.toNat l))

/-- R187, R85. -/
def execCvtNF (d a b : F7) (s : State) : Host.Outcome State Fault Refusal :=
  vecNarrow (.cvtNF d a b) d a b .s (fun n rm x => BitVec.ofNat 32 (n.enc rm (ofW x))) s

/-- R187, R84. -/
def execCvtFN (d a b : F7) (s : State) : Host.Outcome State Fault Refusal :=
  vecNarrow (.cvtFN d a b) d a b .f (fun n _ x => toW rmRne (n.dec x.toNat)) s

/-- The place and width of a code in a lane (R187). -/
def packAt (q : Nat) : Nat × Nat := if q ≤ 3 then (8 * q, 8) else (4 * (q - 8), 4)
def packIn (q : Nat) (z x : W32) : W32 := setField z (packAt q).1 (packAt q).2 x.toNat
def packOut (q : Nat) (x : W32) : W32 := BitVec.ofNat 32 (field x (packAt q).1 (packAt q).2)

/-- R187. -/
def execVpack4 (d a n : F7) (s : State) : Host.Outcome State Fault Refusal :=
  word (.vpack4 d a n) s fun s c =>
    c.setVec s d (fun l => packIn n.toNat (c.regs.rv d.toNat l) (c.regs.rv a.toNat l))
      (fun l => lift2 .s (packIn n.toNat) (ivTop2 .s) (c.iv d.toNat l) (c.iv a.toNat l))

/-- R187. -/
def execVunpk4 (d a n : F7) (s : State) : Host.Outcome State Fault Refusal :=
  vec1 (.vunpk4 d a n) d a .s (fun _ => packOut n.toNat) (ivTop1 .s) s

/-- R188: RNE whatever the rounding control holds. -/
def execFexp2 (d a : F7) (s : State) : Host.Outcome State Fault Refusal :=
  vec1 (.fexp2 d a) d a .f (fun _ => (f32exp2 rmRne)) (ivF1 f32exp2) s

/-- R188: RNE whatever the rounding control holds. -/
def execFlog2 (d a : F7) (s : State) : Host.Outcome State Fault Refusal :=
  vec1 (.flog2 d a) d a .f (fun _ => (f32log2 rmRne)) (ivF1 f32log2) s

/-- R188: RNE whatever the rounding control holds. -/
def execFrsqrt (d a : F7) (s : State) : Host.Outcome State Fault Refusal :=
  vec1 (.frsqrt d a) d a .f (fun _ => (f32rsqrt rmRne)) (ivF1 f32rsqrt) s

/-- R188: RNE whatever the rounding control holds. -/
def execFsinpi (d a : F7) (s : State) : Host.Outcome State Fault Refusal :=
  vec1 (.fsinpi d a) d a .f (fun _ => (f32sinpi rmRne)) ivUnit s

/-- R188: RNE whatever the rounding control holds. -/
def execFcospi (d a : F7) (s : State) : Host.Outcome State Fault Refusal :=
  vec1 (.fcospi d a) d a .f (fun _ => (f32cospi rmRne)) ivUnit s

/-- R188: RNE whatever the rounding control holds. -/
def execFtanh (d a : F7) (s : State) : Host.Outcome State Fault Refusal :=
  vec1 (.ftanh d a) d a .f (fun _ => (f32tanh rmRne)) (ivF1 f32tanh) s

/-- R188: RNE whatever the rounding control holds. -/
def execFsigm (d a : F7) (s : State) : Host.Outcome State Fault Refusal :=
  vec1 (.fsigm d a) d a .f (fun _ => (f32sigm rmRne)) (ivF1 f32sigm) s

end Sys2Proof.Machine
end

