-- ==== Sys2Proof/Machine/System.lean ====
section
/-! DEFINITION. `mark` and the privileged instructions of one group (spec/13_ref_matrix_bounds_system.md R237 to R240, R245), with the steps that end
a group's waits and faults by itself: results, replays of the operand log, orphaned sets, replies of H (R141, R38, R57, R239). -/

namespace Sys2Proof.Machine

/-! ### mark (R237) -/

/-- One more mark: the counter belongs to the running context and counts its U groups alone (R341). -/
def State.mark (s : State) (g : Group) (n : Nat) : State :=
  if g.level = .u then
    s.onContext g.part (fun c => if c.state = .running then { c with prog := Tab.set 0 c.prog n (Tab.get 0 c.prog n + 1) } else c)
  else s

/-- R237: once per issue; in bounds mode it has no effect (R103). -/
def execMark (n : F7) (s : State) : Host.Outcome State Fault Refusal :=
  wordOf (shMark n) s fun s c => .done (if c.g.mode = 1 then s else s.mark c.g n.toNat)

/-! ### rti and hcall (R239) -/

/-- The handler of a partition (R307): group 0 of team 0 of its service team, S, or H in the H partition, on its lowest service core (R250). -/
def State.handlerOf (s : State) (p : Nat) : Option Nat :=
  let level : Level := if ((s.part? p).map (·.hpart)).getD false then .h else .s
  (s.groups.find? (fun e => decide (e.2.part = p ∧ e.2.level = level ∧ e.2.gid = 0 ∧ e.2.core = 16 * p) && decide (s.tidOf e.2 = 0))).map (·.1)

/-- Is the group its partition's handler, and so in an activation whenever it issues (R307)? -/
def State.isHandler (s : State) (uid : Nat) (g : Group) : Bool := decide (s.handlerOf g.part = some uid)

/-- R239. -/
def execRti (s : State) : Host.Outcome State Fault Refusal :=
  wordOf shRti s fun s c =>
    if !s.isHandler c.uid c.g then .hard s (Hard.plain fcIllOp) else .moved (c.park s .rti s.aclk)

/-- R239. -/
def execHcall (n : F7) (s : State) : Host.Outcome State Fault Refusal :=
  wordOf (shHcall n) s fun s c =>
    let s1 := s.onGroup c.uid (fun g => { g with pend := g.pend ++ [⟨.s 62, .reply, c.pc⟩, ⟨.s 63, .reply, c.pc⟩] })
    .moved (c.park s1 (.hcall n.toNat ((List.range 6).map (fun i => c.regs.rs (56 + i)))) s.aclk)

/-- Is the lane parked in `hcall`, and since when? -/
def Lane.hcallSince (x : Lane) : Option Nat :=
  match x.state, x.park with
  | .park, .hcall _ _ => some x.since
  | _, _ => none

/-- The earliest `hcall` of some lanes. -/
def firstHcall : List Lane → Option Nat
  | [] => none
  | x :: xs =>
    match x.hcallSince, firstHcall xs with
    | none, r => r
    | some a, none => some a
    | some a, some b => some (min a b)

/-- HCALL_REPLY (R239): the reply to the group's oldest request writes s62 and s63, and its lanes go on. -/
def execHcallReply (group : Nat) (s62 s63 : W64) (s : State) : Host.Outcome State Fault Refusal :=
  match s.group? group with
  | none => .next s
  | some g =>
    match firstHcall g.lanes with
    | none => .next s
    | some t =>
      let m := g.lanesWith (fun x => decide (x.hcallSince = some t))
      .next (s.onGroup group (fun g =>
        ({ g with regs := (g.regs.ws 62 s62).ws 63 s63,
                  pend := g.pend.filter (fun p => !decide ((p.reg = .s 62 ∨ p.reg = .s 63) ∧ p.why = .reply)) } : Group).onLanes m (fun _ x => x.resume)))

/-! ### System registers (R240) -/

/-- A context register by its index. -/
def Context.sysreg (c : Context) (i : Nat) : Option W64 :=
  if i = 0 then some c.stallchk
  else if i = 1 then some c.atommode
  else if i = 2 then some c.stopmode
  else if i = 3 then some c.cxlo
  else if i = 4 then some c.cxhi
  else if i = 5 then some c.cxdly
  else if 8 ≤ i ∧ i < 16 then some (Tab.get 0 c.pmsel (i - 8))
  else if 16 ≤ i ∧ i < 24 then some (Tab.get 0 c.pmc (i - 16))
  else if 24 ≤ i ∧ i < 32 then some (Tab.get 0 c.prog (i - 24))
  else none

/-- Is the index one of the table? -/
def sysListed (i : Nat) : Bool := decide (i ≤ 5 ∨ (8 ≤ i ∧ i < 48))

/-- The bits of a writable register that are not reserved (R142, R240, R339, R340). -/
def sysMask (i : Nat) : W64 :=
  if i ≤ 2 then 1
  else if i ≤ 4 then BitVec.ofNat 64 (2 ^ 48 - 1)
  else if i = 5 then BitVec.ofNat 64 (2 ^ 63 + 2 ^ 12 - 1)
  else if 8 ≤ i ∧ i < 16 then 0xFF
  else BitVec.allOnes 64

/-- A write of a context register. -/
def Context.putSysreg (c : Context) (i : Nat) (v : W64) : Context :=
  if i = 0 then { c with stallchk := v }
  else if i = 1 then { c with atommode := v }
  else if i = 2 then { c with stopmode := v }
  else if i = 3 then { c with cxlo := v }
  else if i = 4 then { c with cxhi := v }
  else if i = 5 then { c with cxdly := v }
  else if c.state = .stopped ∨ c.state = .halted then c
  else if 8 ≤ i ∧ i < 16 then { c with pmsel := Tab.set 0 c.pmsel (i - 8) v }
  else if 16 ≤ i ∧ i < 24 then { c with pmc := Tab.set 0 c.pmc (i - 16) v }
  else if 24 ≤ i ∧ i < 32 then { c with prog := Tab.set 0 c.prog (i - 24) v }
  else c

/-- What a register reads: with no current context, 0; the frames on a partition's free list for 32 to 47 (R245). -/
def State.readSysreg (s : State) (p i : Nat) : W64 :=
  if 32 ≤ i then BitVec.ofNat 64 ((((s.part? (i - 32)).map (fun x => x.frames.length)).getD 0) % 2 ^ 32)
  else (((s.context? p).bind (·.sysreg i)).getD 0)

/-- R240. -/
def execMfsr (d n : F7) (s : State) : Host.Outcome State Fault Refusal :=
  wordOf (shMfsr d n) s fun s c =>
    if !sysListed n.toNat then .hard s (Hard.plain fcIllOp)
    else .done (c.write s (fun x => x.ws d.toNat (s.readSysreg c.g.part n.toNat)))

/-- A write reaches the current context; the values saved with a stopped one stand in its block (R292). -/
def State.writeSysreg (s : State) (p i : Nat) (v : W64) : State :=
  let s1 := s.onContext p (fun c => c.putSysreg i v)
  match s.context? p with
  | none => s1
  | some c => if c.state = .stopped ∨ c.state = .halted then s1.syncPart p else s1

/-- R240. -/
def execMtsr (n b : F7) (s : State) : Host.Outcome State Fault Refusal :=
  wordOf (shMtsr n b) s fun s c =>
    let v := c.regs.rs b.toNat
    if !sysListed n.toNat || decide (32 ≤ n.toNat) || decide (v &&& ~~~(sysMask n.toNat) ≠ 0) then .hard s (Hard.plain fcIllOp)
    else .done (s.writeSysreg c.g.part n.toNat v)

/-! ### halt and frpush (R245) -/

/-- R245. -/
def execHalt (s : State) : Host.Outcome State Fault Refusal :=
  wordOf shHalt s fun s c => .moved (s.onGroup c.uid (fun g => { g with halted := true }))

/-- A frame operand: its address and partition. -/
def frameAddr (sa : W64) : Nat := field sa 12 40 * 4096
def operPart (sa : W64) : Nat := field sa 0 4

/-- R245: does a frame operand raise ILLEGAL_OPERAND? -/
def State.frameBad (s : State) (sa : W64) : Bool :=
  decide (field sa 4 8 ≠ 0) || decide (field sa 52 12 ≠ 0) || !Config.isDevice (frameAddr sa) ||
  s.parts.any (fun e => e.2.frames.contains (frameAddr sa)) || (s.part? (operPart sa)).isNone

/-- A frame joins its partition's free list. -/
def State.pushFrame (s : State) (sa : W64) : State :=
  s.onPart (operPart sa) (fun x => { x with frames := x.frames ++ [frameAddr sa], starved := false })

/-- Is the partition under a reset, which management operations wait for (R322)? -/
def State.resetting (s : State) (p : Nat) : Bool := ((s.part? p).map (·.resetting)).getD false

/-- R245. -/
def execFrpush (a : F7) (s : State) : Host.Outcome State Fault Refusal :=
  wordOf (shFrpush a) s fun s c =>
    let sa := c.regs.rs a.toNat
    if s.frameBad sa then .hard s (Hard.plain fcIllOp)
    else if s.resetting (operPart sa) then .wait s
    else .done (s.pushFrame sa)

/-! ### Steps of a group -/

/-- VARIABLE_LATENCY_RESULT (R141, R140): the result of a scoreboard entry returns. -/
def execVariableLatencyResult (group entry : Nat) (s : State) : Host.Outcome State Fault Refusal :=
  .next (s.onGroup group (fun g =>
    match g.pend[entry]? with
    | none => g
    | some p => if p.why = .result then { g with pend := g.pend.eraseIdx entry } else g))

/-- OPERAND_LOG_REPLAY (R38, R272): the head of the group's log is performed again, with the values that it recorded. -/
def execOperandLogReplay (group : Nat) (s : State) : Host.Outcome State Fault Refusal :=
  match s.group? group with
  | none => .next s
  | some g =>
    match g.log with
    | [] => .next (s.onGroup group (fun g => { g with retry := false }))
    | e :: _ =>
      if g.retry && s.mayRun g && s.clocked && decide (g.fault = none) && g.host.isNone && !g.halted then
        .next { s with cur := some ⟨group, e.pc, e.mask, e.word, some (e.regs, e.rm)⟩ }
      else .next s

/-- R57: can nothing release the group's lanes any more? -/
def Group.orphaned (g : Group) : Bool :=
  g.log.isEmpty && decide (g.inState .waitSet ≠ 0) &&
  (List.range g.width).all (fun l => decide ((g.lane l).state = .waitSet ∨ (g.lane l).state = .exit))

/-- ORPHANED_SET (R57, R58). -/
def execOrphanedSet (group : Nat) (s : State) : Host.Outcome State Fault Refusal :=
  match s.group? group with
  | none => .next s
  | some g =>
    if g.orphaned && decide (g.fault = none) && (decide (g.level ≠ .u) || s.ctxRuns g.part) then
      .next (s.takeFault group 0 { Hard.plain fcOrphan with lane := some 0xFFFF, extra := g.waitedSets } false)
    else .next s

end Sys2Proof.Machine
end

