-- ==== Sys2Proof/Machine/Preempt.lean ====
section
/-! DEFINITION. Stopping a context (spec/18_streams_launch_preemption.md R292 to R298; spec/19_traps_faults_recovery.md R300 to R308; R314, R316): the
halt line, the collector, save frames, the discarding of launches, and the handler's activation. -/

namespace Sys2Proof.Machine

/-! ### The fields of a launch record that a stop consults (R286) -/

def Launch.pclass (l : Launch) : Nat := field l.record 75 2

/-- Is the launch one that `ctxstop` discards (R297)? -/
def Launch.restarts (l : Launch) : Bool := decide (l.pclass = 1)

/-- The launches of a partition's current context. -/
def State.ctxLaunches (s : State) (p : Nat) : List (Nat × Launch) :=
  match s.ctxOf p with
  | none => []
  | some a => s.launches.filter (fun e => decide (e.2.ctx = a))

/-- The U teams of a partition that have not retired. -/
def State.residents (s : State) (p : Nat) : List (Nat × Team) :=
  s.teams.filter (fun e => decide (e.2.part = p) && decide (e.2.level = .u) && !e.2.retired)

/-! ### The halt of a partition (R300) -/

/-- The die engines of a partition: 0x100 + die, for each of its dies. -/
def Part.dies (p : Nat) (x : Part) : List Nat := ((List.range x.units).map (fun i => (p + i) / 4)).eraseDups

/-- The record of a fault that no group raised: HOSTIF_SECURITY or PARTITION_RESET. -/
def State.partFault (s : State) (p cause : Nat) : FaultRec :=
  { cause := BitVec.ofNat 8 cause, fmask := 0, lane := 0xFFFF, obj := 0, off := 0, extra := 0, time := s.timebase, engine := 0x100 + p / 4, team := 0,
    group := 0xFFFF, wait := true }

/-- R321, R322: the partition's halt line rises by itself, and H is told. -/
def State.haltPart (s : State) (p cause : Nat) : State :=
  let f := s.partFault p cause
  ((s.onContext p (·.halt f)).syncPart p).toH p ⟨f.cause, headerBytes (s.stopver p) 7 f.engine 0 s.timebase (0, 0) (some f)⟩

/-! ### The engines that must acknowledge (R293, R302) -/

def State.stopNeeds (s : State) (p : Nat) : List (Nat × EngineKind) :=
  match s.part? p with
  | none => []
  | some x =>
    let cores := ((s.residents p).map (·.2.core)).eraseDups
    cores.flatMap (fun c => (List.range 4).map (fun i => (4 * c + i, .issueSlot)) ++
      [(c, .matrixArray), (c, .copyEngine), (c, .boundsSequencer), (c, .channelStore)]) ++
    (Part.dies p x).flatMap (fun d => [(0x100 + d, .collective), (0x100 + d, .streamFrontEnd)])

/-- Is a U group of a partition in an issue slot? -/
def inSlot (p e : Nat) (g : Group) : Bool := decide (g.level = .u ∧ g.part = p ∧ 4 * g.core + g.slot = e)

/-- Do the partition's HOSTIO accesses end unperformed: its secure state has ended, or it is being reset (R321, R322)? -/
def State.hostEnds (s : State) (p : Nat) : Bool := s.hostCut p || ((s.part? p).map (·.resetting)).getD false

/-- May a group's slot acknowledge: its flows and `tsum` operations have written their tokens (R314), no evaluation of the bounds pass runs on it,
no AtomicOp awaits its answer? -/
def State.groupStops (s : State) (g : Group) : Bool :=
  !g.pend.any (fun p => match p.why with
    | .op o => (Tab.find s.copies o).isSome
    | _ => false) &&
  decide (g.mode ≠ 1) &&
  (match g.host with
    | none => true
    | some r => r.service || s.hostEnds g.part)

/-- May an engine acknowledge? -/
def State.mayAck (s : State) (p : Nat) (e : Nat × EngineKind) : Bool :=
  match e.2 with
  | .issueSlot => (s.groups.filter (fun g => inSlot p e.1 g.2)).all (fun g => s.groupStops g.2)
  | .copyEngine => decide (s.accepted e.1 = 0)
  | .boundsSequencer => s.groups.all (fun g => !(decide (g.2.level = .u ∧ g.2.part = p ∧ g.2.core = e.1 ∧ g.2.mode = 1)))
  | _ => true

/-! ### Save frames (R294) -/

/-- Records packed into frames: none spans two. -/
def packRecords : List (List Byte) → List Byte → List (List Byte)
  | [], cur => [cur]
  | r :: rs, cur => if cur.length + r.length ≤ 4032 then packRecords rs (cur ++ r) else cur :: packRecords rs r

/-- A frame header: 64 bytes. -/
def frameHeader (next used kind engine : Nat) (now : W64) : List Byte :=
  toBytes 64 (next + used * 2 ^ 64 + kind * 2 ^ 80 + engine * 2 ^ 96 + now.toNat * 2 ^ 128)

/-- n free bytes. -/
def State.freeBytes (s : State) (d : Nat) : Nat → List Byte × State
  | 0 => ([], s)
  | n + 1 =>
    let (b, s1) := s.freeByte d
    let (bs, s2) := State.freeBytes s1 d n
    (b :: bs, s2)

/-- The sectors of n bytes are encrypted under a key slot (R294). -/
def State.stampRange (s : State) (slot : Nat) (a : Nat) : Nat → State
  | 0 => s
  | n + 1 =>
    let k := a / 32 + n
    let s1 := State.stampRange s slot a n
    if Config.isGddr (32 * k) then
      { s1 with sectors := Tab.set Sector.clean s1.sectors k { Tab.get Sector.clean s1.sectors k with slot := some (slot, (s1.keySlot slot).gen) } }
    else s1

/-- A frame of stop records, under the device key. -/
def State.writeFrame (s : State) (a next engine : Nat) (payload : List Byte) : State :=
  s.devBytes a (frameHeader next (64 + payload.length) 1 engine s.timebase ++ payload)

/-- A frame of another KIND, which one and how far it is used being the device's to choose: its header, and under SAVEKEY bytes that are meaningful to the device
alone. -/
def State.writeImage (s : State) (d key a next engine : Nat) : Nat × State :=
  let (f, s1) := s.fresh d
  let kind := 2 + f.toNat % 5
  let (bs, s2) := s1.freeBytes d 4032
  (kind, (s2.devBytes a (frameHeader next (64 + f.toNat / 8 % 4033) kind engine s.timebase ++ bs)).stampRange key a 128)

/-- The stop-record frames of an engine, chained. -/
def State.writeFrames (s : State) (engine last : Nat) : List (Nat × List Byte) → State
  | [] => s
  | (a, bs) :: r => State.writeFrames (s.writeFrame a ((r.head?.map (·.1)).getD last) engine bs) engine last r

/-- The images of an engine, chained, with their kinds. -/
def State.writeImages (s : State) (d key engine : Nat) : List Nat → List (Nat × Nat) × State
  | [] => ([], s)
  | a :: r =>
    let (k, s1) := s.writeImage d key a (r.headD 0) engine
    let (ks, s2) := State.writeImages s1 d key engine r
    ((a, k) :: ks, s2)

/-- NEXT of the frame that ended the chain. -/
def State.linkFrame (s : State) (chain : List (Nat × Nat)) (a : Nat) : State :=
  match chain.getLast? with
  | none => s
  | some (b, _) => s.rawBytes b (toBytes 8 a)

/-- R294: an engine writes its records, and images whose number and kinds the spec leaves to the device (log entry 2); none, where the free list is too
short. -/
def State.save (s : State) (p engine : Nat) (recs : List (List Byte)) : Option State × State :=
  match s.part? p, s.ctxOf p, s.context? p with
  | some x, some a, some c =>
    let ps := packRecords recs []
    let d := s.dom p
    let (f, s0) := s.fresh d
    let n := f.toNat % 2 ^ 16
    if x.frames.length < ps.length + n then (none, s0)
    else
      let mine := x.frames.take (ps.length + n)
      let s1 := s0.onPart p (fun x => { x with frames := x.frames.drop (ps.length + n) })
      let imgs := mine.drop ps.length
      let (ks, s2) := (s1.writeFrames engine (imgs.headD 0) ((mine.take ps.length).zip ps)).writeImages d (s.readSavekey a) engine imgs
      let s3 := s2.linkFrame c.chain (mine.headD 0)
      (some (s3.onContext p (fun c => { c with chain := c.chain ++ (mine.take ps.length).map (·, 1) ++ ks })), s0)
  | _, _, _ => (none, s)

/-- The groups whose records a slot writes: those of its partition's context, but for a launch that is not saved (R297). -/
def State.recorded (s : State) (c : Context) (g : Group) : Bool :=
  decide (g.level = .u) && (c.halting || !(((s.launch? g.launch).map (·.restarts)).getD false))

/-- The KIND of a context header (R303). -/
def kindCode : EngineKind → Nat
  | .issueSlot => 1
  | .matrixArray => 2
  | .copyEngine => 3
  | .collective => 4
  | .boundsSequencer => 5
  | .channelStore => 6
  | .streamFrontEnd => 7

/-- RING and STREAM of the launch of a core's first team (R303); a die engine serves no one launch. -/
def State.coreLaunch (s : State) (p core : Nat) : Nat × Nat :=
  match (s.residents p).find? (fun e => decide (e.2.core = core)) with
  | none => (0, 0)
  | some e => match s.launch? e.2.launch with
    | none => (0, 0)
    | some l => (l.ring.toNat, l.stream)

/-- The package core of an engine, or 0x100 + die (R294). -/
def engineNo (e : Nat × EngineKind) : Nat := if e.2 = .issueSlot then e.1 / 4 else e.1

/-- The header of a core's matrix array: of the earliest fault of its own operations, if one failed. -/
def State.arrayHeader (s : State) (p core : Nat) : List Byte :=
  match earliest (s.groups.filter (fun e => decide (e.2.part = p ∧ e.2.core = core ∧ e.2.level = .u) && e.2.arrayFault)) with
  | some (_, g, f) => headerBytes (s.stopver p) 2 core 0 s.timebase (s.ringOf g) (some f)
  | none => headerBytes (s.stopver p) 2 core 0 s.timebase (s.coreLaunch p core) none

/-- The records of an engine: the header, and for an issue slot its groups with their lanes (R302). -/
def State.engineRecords (s : State) (p : Nat) (c : Context) (e : Nat × EngineKind) : List (List Byte) :=
  match e.2 with
  | .issueSlot =>
    let gs := s.slotGroups p (e.1 / 4) (e.1 % 4) (s.recorded c)
    s.slotHeader (s.stopver p) (e.1 / 4) gs ::
      gs.flatMap (fun g => toBytes 32 (g.2.record (s.tidOf g.2)) :: (List.range g.2.width).map (fun l => toBytes 8 (g.2.laneRecord l)))
  | .matrixArray => [s.arrayHeader p e.1]
  | k => [headerBytes (s.stopver p) (kindCode k) e.1 0 s.timebase (s.coreLaunch p e.1) none]

/-! ### What a stop leaves in an engine -/

/-- R293, R117: the HELD claims of a core become DORMANT. -/
def State.sleepClaims (s : State) (p core : Nat) : State :=
  let rest (t : Team) : Team := { t with claims := t.claims.map (fun k => (k.1, if k.2.state = 1 then { k.2 with state := 2 } else k.2)) }
  { s with teams := s.teams.map (fun e => (e.1, if e.2.part = p ∧ e.2.core = core ∧ e.2.level = .u then rest e.2 else e.2)) }

/-- A host request that ends unperformed: its lanes stand at the word (R321). -/
def Group.cutHost (g : Group) : Group :=
  match g.host with
  | none => g
  | some r =>
    let g1 : Group := { g with host := none, memHold := none }
    if r.replay then g1 else g1.onLanes r.mask (fun _ x => if x.state = .park ∧ x.park = .service then { x with state := .run, park := .no, pc := r.pc } else x)

/-- R306: every load has returned; the windows of fixed latencies are over; what the group has fetched is not saved. -/
def Group.rest (g : Group) (cut : Bool) : Group :=
  let g1 : Group := { g with octets := [], fetchHeld := false, recent := [], stall := 0, yielded := none, pend := g.pend.filter (fun p => !decide (p.why = .result)) }
  if cut then g1.cutHost else g1

/-- R117: every HELD claim of a stopped context is DORMANT, also one that a group has claimed after its core's copy engine acknowledged. -/
def State.sleepAll (s : State) (p : Nat) : State := (((s.residents p).map (·.2.core)).eraseDups).foldl (fun s c => s.sleepClaims p c) s

/-- R128: the teams of a halted context withdraw. -/
def State.withdrawPart (s : State) (p : Nat) : State := s.withdraw (s.dom p) (fun t => (s.residents p).any (fun e => decide (e.1 = t)))

/-- What an acknowledgement changes. -/
def State.ackEffect (s : State) (p : Nat) (c : Context) (e : Nat × EngineKind) : State :=
  match e.2 with
  | .issueSlot => { s with groups := s.groups.map (fun g => (g.1, if inSlot p e.1 g.2 then g.2.rest (s.hostEnds p) else g.2)) }
  | .copyEngine => s.sleepClaims p e.1
  | .collective => if c.halting then s.withdrawPart p else s
  | _ => s

/-! ### Discarding a launch (R297, R310, R311, R318) -/

/-- The save frames of its page copies return to their partition. -/
def State.dropSnaps (s : State) (u : Nat) : State :=
  match s.launch? u with
  | none => s
  | some l =>
    let fs := l.snaps.flatMap (·.frames)
    let s1 := s.onLaunch u (fun l => { l with snaps := [] })
    if fs.isEmpty then s1 else s1.onPart l.part (fun x => { x with frames := x.frames ++ fs, starved := false })

/-- The places that the engines under way still read (R132). -/
def State.engineSources (s : State) : List Loc := (s.copies.flatMap (·.2.srcs) ++ s.contribs.flatMap (·.srcs)).eraseDups

/-- The sectors of a page after its copy has been written back: under its object's key slot where its bytes are, and marked where the copy was (R197, R261). -/
def State.restoreSectors (s : State) (p : SnapPage) : State :=
  if p.host then s
  else
    let back (e : Nat × Sector) : Nat × Sector :=
      (e.1, if p.base / 32 ≤ e.1 ∧ e.1 < (p.base + p.size) / 32 then { e.2 with slot := some (p.slot, (s.keySlot p.slot).gen), unc := p.marks.contains e.1 } else e.2)
    { s with sectors := (s.sectors.map back).filter (fun e => decide (e.2 ≠ Sector.clean)) }

/-- A copied page is restored: its bytes and tags, as a write in T under its object's key slot. -/
def State.restorePage (s : State) (p : SnapPage) : State :=
  let inside (u : Unpub) : Bool := p.holds u.loc
  let met (u : Unpub) : Option Unpub :=
    if !inside u then some u else if u.dead.isSome then none else some { u with met := u.met.orElse (fun _ => some s.place), last := s.place }
  let s1 : State := if p.host then { s with hostMem := Tab.blit 0 0 0 p.cells (Tab.clear s.hostMem p.base p.size) }
    else { s with mem := Tab.blit 0 0 0 p.cells (Tab.clear s.mem p.base p.size)
                  mtags := Tab.blit false 0 0 p.tags (Tab.clear s.mtags (p.base / 16) (p.size / 16))
                  owned := Tab.clear s.owned (p.base / 128) (p.size / 128) }
  let s2 := { s1.restoreSectors p with unpub := s1.unpub.filterMap met }
  let s3 := (s2.engineSources.filter p.holds).foldl (fun s l => s.noteWrite l (s.rawByte l)) s2
  ((s3.icache.map (fun x => Loc.dev x.addr)).eraseDups.filter p.holds).foldl State.versions s3

/-- Every copied page of a launch, as one step (R310). -/
def State.restoreSnaps (s : State) (u : Nat) : State :=
  match s.launch? u with
  | none => s
  | some l => (l.snaps.foldl State.restorePage s).dropSnaps u

/-- Teams of a launch that no longer run: a FLUSH of its stream still waits for what they have written (R282). -/
def Context.leave (c : Context) (stream : Nat) (teams : List Nat) : Context :=
  let d := Tab.get Stream.zero c.streams stream
  { c with streams := Tab.set Stream.zero c.streams stream { d with past := d.past ++ teams } }

/-- The teams of a launch. -/
def State.teamsOf (s : State) (u : Nat) : List Nat := (s.teams.filter (fun e => decide (e.2.launch = u))).map (·.1)

/-- A launch's teams, groups, matrix operations and claims are gone. -/
def State.clearLaunch (s : State) (u : Nat) : State :=
  match s.launch? u with
  | none => s
  | some l =>
    let mine (g : Nat) : Bool := ((s.group? g).map (fun x => decide (x.launch = u))).getD false
    let s1 := { s with
      latch := s.latch.filter (fun w => !mine w.group)
      mats := s.mats.filter (fun e => decide (e.2.launch ≠ u))
      groups := s.groups.filter (fun e => decide (e.2.launch ≠ u))
      teams := s.teams.filter (fun e => decide (e.2.launch ≠ u)) }
    s1.onCtx l.ctx (·.leave l.stream (s.teamsOf u))

/-- A launch is discarded after a hard fault, a kill or a reset: its teams withdraw from their rounds (R128). -/
def State.discardLaunch (s : State) (u : Nat) : State :=
  match s.launch? u with
  | none => s
  | some l => (s.withdraw (s.ctxDom l.ctx) (fun t => (s.teamsOf u).contains t)).clearLaunch u

/-- A contribution that has not left its port has not been made (R293): its contributor's next `coll` joins its round. -/
def State.unmakeContrib (s : State) (d : Nat) (c : Contrib) : State :=
  let k := s.claim c.team c.claim
  let key := roundCounter k.header d k.dst.obj
  { s with contribs := s.contribs.filter (fun x => decide (x.op ≠ c.op)), unpub := dropAhead c.op s.unpub, roundNo := Tab.put s.roundNo key (Tab.get 0 s.roundNo key - 1) }

/-- R297, R128: a launch is discarded at `ctxstop`, which withdraws from no round: a contribution that has left its port goes on, one that has not is not sent. -/
def State.dropLaunch (s : State) (u : Nat) : State :=
  match s.launch? u with
  | none => s
  | some l => ((s.contribs.filter (fun c => decide (c.launch = u) && !c.sent)).foldl (fun s c => s.unmakeContrib (s.ctxDom l.ctx) c) s).clearLaunch u

/-- The launch waits at its front end again, to be placed from its ring entry (R297, R310). -/
def State.requeue (s : State) (u : Nat) (recovery : Option Nat) (failed : Bool) : State :=
  match s.launch? u with
  | none => s
  | some l =>
    let r : Ready := { stream := l.stream, ring := l.ring, tag := l.tag, record := match recovery with
                        | none => l.record
                        | some n => setField l.record 73 2 n, complete := l.complete, type := l.type, tick := 0, replays := l.replays + (if failed then 1 else 0), age := l.age }
    ({ s with launches := Tab.del s.launches u }).onCtx l.ctx (fun c => { c with ready := c.ready ++ [r] })

/-- R297: the RESTART launches of a stopped context. -/
def State.restartAll (s : State) : List Nat → State
  | [] => s
  | u :: us => State.restartAll (((s.restoreSnaps u).dropLaunch u).requeue u none false) us

/-! ### The end of a stop -/

/-- Does the device itself act on the first fault (R310, R311)? -/
def State.deviceFirst (s : State) (p : Nat) (f : FaultRec) : Bool :=
  s.groups.any (fun e => decide (e.2.part = p ∧ e.2.fault = some f) &&
    (((s.launch? e.2.launch).map (fun l => decide (l.failing ≠ 0) && deviceFault l f.cause.toNat)).getD false))

/-- What the handler is given of the first fault (R307). -/
def State.firstBytes (s : State) (p : Nat) (f : FaultRec) : List Byte :=
  match s.groups.find? (fun e => decide (e.2.part = p ∧ e.2.fault = some f)) with
  | some e => s.eventBytes e.1 f
  | none => headerBytes (s.stopver p) 7 f.engine 0 s.timebase (0, 0) (some f)

/-- The receiver of a halt's event (R308); H has been told already of what it is to hear of (R321, R322). -/
def State.deliverHalt (s : State) (p : Nat) (f : FaultRec) : State :=
  let e : Event := ⟨f.cause, s.firstBytes p f⟩
  if f.cause.toNat = fcHostif ∨ f.cause.toNat = fcReset then s
  else if f.cause.toNat = fcHandler then s.toH p e
  else if s.deviceFirst p f then s
  else s.onPart p (fun x => { x with events := x.events ++ [e] })

/-- Every engine has acknowledged: STATE becomes STOPPED, or HALTED with the first fault's CAUSE (R293, R300). -/
def State.finishStop (s : State) (p a : Nat) (c : Context) : State :=
  let s0 := (if c.halting then s.withdrawPart p else s).sleepAll p
  let s1 := s0.onCtx a (fun c => { c with state := if c.halting then .halted else .stopped, cause := if c.halting then ((c.first.map (·.cause)).getD 0) else 0 })
  let s2 := if c.halting then s1 else s1.restartAll (((s1.ctxLaunches p).filter (fun e => e.2.restarts)).map (·.1))
  let s3 := match c.first with
    | none => s2
    | some f => if c.halting then s2.deliverHalt p f else s2
  match s3.ctx? a with
  | none => s3
  | some c3 => (s3.saveStreams a c3).syncBlock a

/-- Have all engines acknowledged? -/
def State.checkStop (s : State) (p : Nat) : State :=
  match s.ctxOf p, s.context? p with
  | some a, some c => if c.state = .stopping ∧ (s.stopNeeds p).all (fun e => c.acks.contains e) then s.finishStop p a c else s
  | _, _ => s

/-- ENGINE_STOP (R293, R300, R302): an engine of a stopping context stops at its unit, saves, and acknowledges. -/
def execEngineStop (part engine : Nat) (kind : EngineKind) (s : State) : Host.Outcome State Fault Refusal :=
  match s.context? part with
  | none => .next s
  | some c =>
    let e := (engine, kind)
    if c.state ≠ .stopping then .next s
    else if !(s.stopNeeds part).contains e || c.acks.contains e then .next (s.checkStop part)
    else if !s.mayAck part e then .next s
    else
      let s1 := s.ackEffect part c e
      match s1.save part (engineNo e) (s1.engineRecords part c e) with
      | (none, s2) => .next ({ s with free := s2.free }.starve part)
      | (some s2, _) => .next ((s2.onContext part (fun c => { c with acks := c.acks ++ [e] })).checkStop part)

/-- R293: a stop of a running context begins. -/
def State.beginStop (s : State) (p : Nat) : State :=
  (s.onContext p (fun c => if c.state = .running then { c with state := .stopping, halting := false, acks := [], first := none } else c)).syncPart p

/-! ### The handler (R306, R307) -/

/-- Is the handler parked at `rti`, with nothing left to do? -/
def State.handlerFree (s : State) (u : Nat) : Bool :=
  match s.group? u with
  | none => false
  | some g => decide (g.live ≠ 0) && decide (g.lanesWith (fun x => decide (x.state = .park ∧ x.park = .rti)) = g.live) && decide (g.fault = none) && !g.halted

/-- ACTIVATION (R307): the partition's next event starts its handler at next(p) of its `rti`, with the records in team memory and s0 and s1 set. -/
def execActivation (part : Nat) (s : State) : Host.Outcome State Fault Refusal :=
  match s.part? part with
  | none => .next s
  | some x =>
    match s.handlerOf part, x.events with
    | some u, e :: es =>
      if !s.handlerFree u then .next s
      else
        let t := ((s.group? u).map (·.team)).getD 0
        let bs := e.bytes.take ((s.team? t).map (·.tmBytes) |>.getD 0)
        let s1 := (s.onPart part (fun x => { x with events := es })).writeBytes 0 (.team t 0) bs
        .next (s1.onGroup u (fun g =>
          ({ g with regs := (g.regs.ws 0 (e.code.setWidth 64)).ws 1 (BitVec.ofNat 64 bs.length) } : Group).onLanes (BitVec.allOnes 64)
            (fun _ x => if x.state = .park then x.resume else x)))
    | _, _ => .next s

end Sys2Proof.Machine
end

