-- ==== Sys2Proof/Machine/Streams.lean ====
section
/-! DEFINITION. Command streams (spec/18_streams_launch_preemption.md R278, R279, R281, R282, R285, R289, R350): descriptors and their registers, the ring,
completion records, the checks of a packet, and the semaphore, FLUSH and CAPWRITE packets. -/

namespace Sys2Proof.Machine

/-! ### Descriptors (R278) -/

/-- A partition's stream n, of its current context; the management stream. -/
def State.stream (s : State) : StreamRef → Option Stream
  | .user p n => (s.context? p).map (fun c => Tab.get Stream.zero c.streams n)
  | .mgmt => some s.pf.mgmt

def State.onStream (s : State) (r : StreamRef) (f : Stream → Stream) : State :=
  match r with
  | .user p n => s.onContext p (fun c => { c with streams := Tab.set Stream.zero c.streams n (f (Tab.get Stream.zero c.streams n)) })
  | .mgmt => { s with pf := { s.pf with mgmt := f s.pf.mgmt } }

/-- A register write: the bits of a mask change. -/
def merge64 (old v m : W64) : W64 := (old &&& ~~~m) ||| (v &&& m)

/-- A write of quadword q of a descriptor (R278, R279): TAIL, COMPCONS, ERROR and ENABLE at any time, every other RW field only while ENABLE is 0 and
no packet is under way. -/
def Stream.write (d : Stream) (q : Nat) (v m : W64) : Stream :=
  let x := merge64 (BitVec.ofNat 64 (d.bits / 2 ^ (64 * q))) v m
  let free := !d.enable && !d.busy
  if q = 0 then (if free then { d with ringBase := x.extractLsb' 0 52 } else d)
  else if q = 1 then
    let d1 : Stream := { d with enable := x.getLsbD 10, error := d.error && !(v &&& m).getLsbD 11 }
    if free then { d1 with ringLog2 := x.extractLsb' 0 7, prio := x.extractLsb' 7 3 } else d1
  else if q = 2 then { d with tail := x }
  else if q = 4 then (if free then { d with compBase := x.extractLsb' 0 52 } else d)
  else if q = 5 then (if free then { d with compLog2 := x.extractLsb' 0 5 } else d)
  else if q = 7 then { d with compCons := x }
  else d

/-- Do the host's accesses reach the stream's registers: for a VF, the device is out of reset (R343), and the secure state has not ended (R321)? The
management stream takes packets before READY too, to refuse them. -/
def State.reaches (s : State) : StreamRef → Bool
  | .user p _ => s.pf.ready && (match s.part? p with
    | none => false
    | some x => !x.cut)
  | .mgmt => true

/-- A write of a descriptor's register; those of a stopped context stand in its block (R292). -/
def State.streamWrite (s : State) (r : StreamRef) (q : Nat) (v m : W64) : State :=
  if !s.reaches r then s
  else
    let s1 := s.onStream r (fun d => d.write q v m)
    match r with
    | .mgmt => s1
    | .user p _ => match s1.ctxOf p, s1.context? p with
      | some a, some c => if c.state = .stopped ∨ c.state = .halted then s1.saveStreams a c else s1
      | _, _ => s1

/-- DOORBELL (R278): a store to TAIL. -/
def execDoorbell (stream : StreamRef) (tail : W64) (s : State) : Host.Outcome State Fault Refusal :=
  .next (s.streamWrite stream 2 tail (BitVec.allOnes 64))

/-- ENABLE_SET (R278). -/
def execEnableSet (stream : StreamRef) (s : State) : Host.Outcome State Fault Refusal :=
  .next (s.streamWrite stream 1 (BitVec.allOnes 64) (oneBit 10))

/-- ENABLE_CLEAR (R278). -/
def execEnableClear (stream : StreamRef) (s : State) : Host.Outcome State Fault Refusal :=
  .next (s.streamWrite stream 1 0 (oneBit 10))

/-- ERROR_CLEAR (R279): a write of 1 to ERROR. -/
def execErrorClear (stream : StreamRef) (s : State) : Host.Outcome State Fault Refusal :=
  .next (s.streamWrite stream 1 (BitVec.allOnes 64) (oneBit 11))

/-! ### Completion records of user streams (R285) -/

/-- A stage-2 miss of a front end's own access: its SOFTFAULT record (R279). -/
def State.ringMiss (s : State) (p a : Nat) : State := s.postSoft p ⟨true, false, false, 0, a, false⟩

/-- Write the records that are due, oldest first, while the completion ring has room and its page is there. -/
def State.postRecords (s : State) (p n : Nat) : List (W64 × W64) → State
  | [] => s.onStream (.user p n) (fun d => { d with due := [] })
  | q :: qs =>
    let stay (s : State) : State := s.onStream (.user p n) (fun d => { d with due := q :: qs })
    match s.stream (.user p n) with
    | none => s
    | some d =>
      if !d.room then stay s
      else
        match s.stage2 (s.tbOf p) d.compAddr with
        | .at a =>
          if s.shortAt a 16 then (stay s).starveAt a 16
          else State.postRecords (((s.guestPut a q.1).guestPut (a + 8) q.2).onStream (.user p n) (fun d => { d with compProd := d.compProd + 1 })) p n qs
        | .page _ a => stay (s.ringMiss p a)
        | _ => stay s

/-- The records of a stream that are due. -/
def State.flushStream (s : State) (p n : Nat) : State :=
  match s.stream (.user p n) with
  | none => s
  | some d => if d.due.isEmpty then s else s.postRecords p n d.due

/-- A completion record of a user stream, with the timebase at completion. -/
def State.record (s : State) (p n : Nat) (q : W64) : State :=
  match s.stream (.user p n) with
  | none => s
  | some d => s.postRecords p n (d.due ++ [(q, s.timebase)])

/-! ### Packet headers (R281) -/

def hType (h : W64) : Nat := field h 0 8
def hComplete (h : W64) : Bool := h.getLsbD 8
def hVersion (h : W64) : Nat := field h 16 16
def hLen (h : W64) : Nat := field h 32 16
def hTag (h : W64) : Nat := field h 48 16

/-- The packet types of R282 and R283. -/
def tyLaunch : Nat := 1
def tyTlaunch : Nat := 2
def tySemwait : Nat := 3
def tySemsignal : Nat := 4
def tyFlush : Nat := 5
def tyCapwrite : Nat := 6
def tyCtxstop : Nat := 0x81
def tyCtxresume : Nat := 0x82
def tyCtxkill : Nat := 0x83
def tyOtinv : Nat := 0x84
def tyOtswap : Nat := 0x85
def tyKeyrev : Nat := 0x86
def tyFrames : Nat := 0x87
def tyPartcfg : Nat := 0x88

/-- The length that a user type requires (R282). -/
def userLen (t : Nat) : Option Nat :=
  if t = tyLaunch then some 37 else if t = tyTlaunch then some 38 else if t = tySemwait then some 4 else if t = tySemsignal then some 4
  else if t = tyFlush then some 1 else if t = tyCapwrite then some 5 else none

/-- The header check of a user stream (R350, reason 14). -/
def userHeaderBad (h : W64) : Bool := decide (userLen (hType h) ≠ some (hLen h)) || decide (field h 9 7 ≠ 0)

/-- The version check (R299, R350 reason 1): `v` is the version chosen; 0 while none has been. -/
def versionBad (v : W16) (n : Nat) : Bool := decide (v = 0) || decide (n ≠ v.toNat)

/-! ### The front end of a user stream (R279) -/

/-- Quadword i of the packet at HEAD, as the ring holds it. -/
def State.ringWord (s : State) (p : Nat) (d : Stream) (i : Nat) : Walk W64 :=
  s.guest64 (s.tbOf p) (d.ringBase.toNat + 8 * ((d.head + BitVec.ofNat 64 i).toNat % 2 ^ d.ringLog2.toNat))

/-- Some quadwords of the packet, or the walk that did not find one. -/
def State.ringWords (s : State) (p : Nat) (d : Stream) : List Nat → Except (Walk W64) (List W64)
  | [] => .ok []
  | i :: is =>
    match s.ringWord p d i with
    | .at w =>
      match State.ringWords s p d is with
      | .ok ws => .ok (w :: ws)
      | .error e => .error e
    | e => .error e

/-- What a front end finds at HEAD: nothing that it may start; a page that is absent; an address that does not exist; a packet to reject with a
reason, and the quadwords that HEAD then passes; a packet with its body. -/
inductive Start where
  | idle
  | miss (addr : Nat)
  | beyond (addr : Nat)
  | bad (h : W64) (reason adv : Nat)
  | packet (h : W64) (body : List W64)
  deriving DecidableEq, Repr

def Start.ofWalk : Walk W64 → Start
  | .page _ a => .miss a
  | .beyond a => .beyond a
  | _ => .idle

/-- The quadwords that software has written from HEAD on. -/
def Stream.avail (d : Stream) : Nat := (d.tail - d.head).toNat

/-- The packet at HEAD (R279, R281, R350). HEAD passes a packet whose header is bad by the LEN it names, within what is there (log entry 24). -/
def State.sfeStart (s : State) (p : Nat) (pktver : W16) (d : Stream) : Start :=
  if d.avail = 0 then .idle
  else
    match s.ringWord p d 0 with
    | .at h =>
      if userHeaderBad h then .bad h 14 (min d.avail (max 1 (hLen h)))
      else if d.avail < hLen h then .idle
      else if versionBad pktver (hVersion h) then .bad h 1 (hLen h)
      else
        match s.ringWords p d ((List.range (hLen h)).tail) with
        | .ok ws => .packet h ws
        | .error e => .ofWalk e
    | e => .ofWalk e

/-- Does the context run, the stream with no record to write and room for one (R279)? -/
def State.sfeServes (s : State) (p : Nat) (d : Stream) : Bool := s.clocked && s.ctxRuns p && d.due.isEmpty && d.room

/-- May the front end start a packet? -/
def State.sfeOpen (s : State) (p : Nat) (d : Stream) : Bool := s.sfeServes p d && d.enable && !d.error && decide (d.step = 0)

/-- The end of a packet (R279, R285): HEAD passes it, a record is written where one is due, a rejected or faulted one stops the stream. -/
def State.packetEnd (s : State) (p n : Nat) (h : W64) (adv status reason fault : Nat) : State :=
  let fails := decide (status = stRejected ∨ status = stFaulted)
  let s1 := s.onStream (.user p n) (fun d =>
    { d with head := d.head + BitVec.ofNat 64 adv, step := 0, busy := false, error := d.error || fails,
             reason := if fails then BitVec.ofNat 8 reason else d.reason })
  if status = stDone ∧ hComplete h = false then s1 else s1.record p n (compWord n fault reason (hTag h) (hType h) status)

/-- The packet at HEAD goes on from a step. -/
def State.packetStep (s : State) (p n step : Nat) : State := s.onStream (.user p n) (fun d => { d with step := step, busy := true })

/-- A user packet of a type: the front end's conditions and the header's checks, then the packet's own meaning. -/
def userPacket (type p n : Nat) (s : State) (body : State → W64 → List W64 → Host.Outcome State Fault Refusal) : Host.Outcome State Fault Refusal :=
  let s0 := s.flushStream p n
  match s0.stream (.user p n), s0.part? p with
  | some d, some x =>
    if !s0.sfeOpen p d then .next s0
    else
      match s0.sfeStart p x.pktver d with
      | .idle => .next s0
      | .miss a => .next (s0.ringMiss p a)
      | .beyond a => .fault (.noSuchAddress a)
      | .bad h r adv => .next (s0.packetEnd p n h adv stRejected r 0)
      | .packet h ws => if hType h = type then body s0 h ws else .next s0
  | _, _ => .next s0

/-- The packet under way on a stream, at a step. -/
def stepPacket (step p n : Nat) (s : State) (body : State → W64 → List W64 → Host.Outcome State Fault Refusal) : Host.Outcome State Fault Refusal :=
  let s0 := s.flushStream p n
  match s0.stream (.user p n) with
  | none => .next s0
  | some d =>
    if !s0.sfeServes p d || decide (d.step ≠ step) then .next s0
    else
      match s0.ringWord p d 0 with
      | .at h =>
        match s0.ringWords p d ((List.range (hLen h)).tail) with
        | .ok ws => body s0 h ws
        | .error (.beyond a) => .fault (.noSuchAddress a)
        | .error (.page _ a) => .next (s0.ringMiss p a)
        | .error _ => .next s0
      | .beyond a => .fault (.noSuchAddress a)
      | .page _ a => .next (s0.ringMiss p a)
      | _ => .next s0

/-- Body quadword i, numbered from 1. -/
def bodyWord (ws : List W64) (i : Nat) : W64 := ws.getD (i - 1) 0

/-! ### The front end's accesses to objects (R282) -/

/-- A front end as an actor: its partition's tables, no core, no team. -/
def State.sfeActor (s : State) (p : Nat) : Actor :=
  { obs := ⟨0, 0, 2 ^ 20, p, 0, s.dom p⟩, tb := s.tbOf p, team := 0, tm := 0, wb := 0, held := false, stack := 0 }

/-- The window that a front end's access stands in: the whole object, by the kind of its placement (R66). -/
def State.sfeCap (s : State) (p o : Nat) : Cap :=
  let k := match s.objEntry (s.tbOf p) o with
    | .at e => if e.place = plHost ∧ e.hostcoh = false then kHostio else kMem
    | _ => kMem
  ⟨capBits o (rR + rW + rA) k 0 (2 ^ 40 - 1), true⟩

/-- The translation of an access of w bytes at offset x of object o, with the checks of R266 and R197. It is not cached: a front end stands in no
cluster. The access is counted at the block's home, where it comes from another die (R276). -/
def State.sfeWalk (s : State) (p o x w : Nat) (u : Use) : Except Stop Trans × State :=
  let me := s.sfeActor p
  let c := s.sfeCap p o
  match s.walk p me.tb c.kind o x w with
  | .at t => match s.afterWalk me c u w ⟨0, x⟩ t with
    | (.ok t, s1) => (.ok t, s1.hotness me.obs.dom (dieReq (16 * p)) true t.loc)
    | r => r
  | r => (.error (walkStop me false c (s.pageOf me o) ⟨0, x⟩ r), s)

/-- What becomes of a packet whose access is not performed: a soft fault makes the front end wait, a hard one completes it FAULTED (R282). -/
def sfeStop (s : State) (p n : Nat) (h : W64) : Stop → Host.Outcome State Fault Refusal
  | .hard e => .next (s.packetEnd p n h (hLen h) stFaulted 0 e.cause)
  | .soft f => .next (s.postSoft p f)
  | .wait => .next s
  | .beyond a => .fault (.noSuchAddress a)

/-- After a store of w bytes from state s0: the queues that it reached, and the sectors written whole, which lose their marks. -/
def State.sfeStored (s s0 : State) (t : Trans) (w : Nat) : State := (s.queueHook s0 (t.loc.addrs w)).unmark (t.loc.addrs w)

/-! ### SEMWAIT, SEMSIGNAL, FLUSH (R282) -/

/-- The range of a semaphore's operands (R350, reason 15). -/
def semBad (ws : List W64) (op : Bool) : Bool :=
  decide (field (bodyWord ws 1) 32 32 ≠ 0) || decide (field (bodyWord ws 2) 0 40 % 8 ≠ 0) ||
  (if op then decide (field (bodyWord ws 2) 40 22 ≠ 0) || decide (2 ≤ field (bodyWord ws 2) 62 2) else decide (field (bodyWord ws 2) 40 24 ≠ 0))

/-- SEMWAIT: the packet becomes current; its loads follow. -/
def execSemwait (part stream : Nat) (s : State) : Host.Outcome State Fault Refusal :=
  userPacket tySemwait part stream s fun s h ws =>
    if semBad ws false then .next (s.packetEnd part stream h (hLen h) stRejected 15 0) else .next (s.packetStep part stream 3)

/-- SEMWAIT_LOAD: one load of a current SEMWAIT; it completes at the load that finds the value. -/
def execSemwaitLoad (part stream : Nat) (s : State) : Host.Outcome State Fault Refusal :=
  stepPacket 3 part stream s fun s h ws =>
    match s.sfeWalk part (field (bodyWord ws 1) 0 32) (field (bodyWord ws 2) 0 40) 8 .load with
    | (.error e, s1) => sfeStop s1 part stream h e
    | (.ok t, s1) =>
      let (bs, s2) := (s1.arriveAt t.loc).readBytes (s1.sfeActor part).obs t.slot t.loc 8
      if (bodyWord ws 3).toNat ≤ ofBytes bs then .next (s2.packetEnd part stream h (hLen h) stDone 0 0) else .next s2

/-- SEMSIGNAL: a store, or an atomic add modulo 2^64. -/
def execSemsignal (part stream : Nat) (s : State) : Host.Outcome State Fault Refusal :=
  userPacket tySemsignal part stream s fun s h ws =>
    if semBad ws true then .next (s.packetEnd part stream h (hLen h) stRejected 15 0)
    else
      let add := decide (field (bodyWord ws 2) 62 2 = 1)
      match s.sfeWalk part (field (bodyWord ws 1) 0 32) (field (bodyWord ws 2) 0 40) 8 (if add then .atomic else .store) with
      | (.error e, s1) => sfeStop s1 part stream h e
      | (.ok t, s1) =>
        let (bs, s2) := if add then s1.readBytes (s1.sfeActor part).obs t.slot t.loc 8 else ([], s1)
        let v := bodyWord ws 3 + BitVec.ofNat 64 (ofBytes bs)
        .next (((s2.writeBytes t.slot t.loc (toBytes 8 v.toNat)).sfeStored s2 t 8).packetEnd part stream h (hLen h) stDone 0 0)

/-- FLUSH: the posted writes of the stream's earlier launches complete at their targets, and what the launches have written is published at SYSTEM. A flow
whose writes have not all been made is waited for, as are save frames that a write needs (R309). -/
def execFlush (part stream : Nat) (s : State) : Host.Outcome State Fault Refusal :=
  userPacket tyFlush part stream s fun s h _ =>
    let past := ((s.stream (.user part stream)).map (·.past)).getD []
    let theirs (q : Posted) : Bool := past.contains q.team
    if s.stuck theirs then .next (s.starvePosted theirs)
    else
      let s1 := s.landFor theirs
      let ops := (s1.unpub.filter (fun u => past.contains u.team)).map (·.op)
      let s2 := s1.publish (fun o => ops.contains o) 7
      .next ((s2.onStream (.user part stream) (fun d => { d with past := [] })).packetEnd part stream h (hLen h) stDone 0 0)

/-! ### Valid capabilities (R289), CAPWRITE (R282) -/

/-- The result of a check that reads the object table: it passes, fails, meets an absent page, or an address that does not exist. -/
inductive Chk where
  | ok
  | fail
  | miss (addr : Nat)
  | beyond (addr : Nat)
  deriving DecidableEq, Repr

/-- The entry of an object, checked. -/
def State.onEntry (s : State) (p o : Nat) (f : ObjEntry → Bool) : Chk :=
  match s.objEntry (s.tbOf p) o with
  | .at e => if f e then .ok else .fail
  | .page _ a => .miss a
  | .beyond a => .beyond a
  | _ => .fail

/-- R66: does a kind agree with an object's placement and flags? -/
def State.kindAgrees (s : State) (p k : Nat) (e : ObjEntry) : Bool :=
  let device := decide (e.place = plFar) || (decide (e.place = plVault) && (match s.part? p with
    | none => false
    | some x => Part.hasVault p x e.vault))
  if k = kMem then device || (decide (e.place = plHost) && e.hostcoh) || (decide (e.place = plPeer) && s.domain.any (fun d => decide (d.toNat = e.peerdev)))
  else if k = kCode then device && e.execFlag
  else if k = kColl then device
  else if k = kHostio then decide (e.place = plHost) && !e.hostcoh
  else if k = kWindow then decide (e.place = plPeer)
  else false

/-- R289: is the capability valid for the partition's context? -/
def State.capValid (s : State) (p : Nat) (c : Cap) : Chk :=
  if 7 ≤ c.kind ∨ c.rsv ≠ 0 ∨ c.rights.toNat &&& (255 - kindRights c.kind) ≠ 0 then .fail
  else s.onEntry p c.obj (fun e => decide (c.base + c.length ≤ e.size) && s.kindAgrees p c.kind e)

/-- Does an object keep tags (R64, R282)? -/
def State.keepsTags (s : State) (e : ObjEntry) : Bool :=
  decide (e.place = plVault ∨ e.place = plFar) || (decide (e.place = plPeer) && s.domain.any (fun d => decide (d.toNat = e.peerdev)))

/-- CAPWRITE. -/
def execCapwrite (part stream : Nat) (s : State) : Host.Outcome State Fault Refusal :=
  userPacket tyCapwrite part stream s fun s h ws =>
    let rejected (r : Nat) : Host.Outcome State Fault Refusal := .next (s.packetEnd part stream h (hLen h) stRejected r 0)
    let o := field (bodyWord ws 1) 0 32
    let x := field (bodyWord ws 2) 0 40
    let c : Cap := ⟨bodyWord ws 4 ++ bodyWord ws 3, true⟩
    if field (bodyWord ws 1) 32 32 ≠ 0 ∨ field (bodyWord ws 2) 40 24 ≠ 0 ∨ x % 16 ≠ 0 then rejected 15
    else
      match s.capValid part c with
      | .fail => rejected 13
      | .miss a => .next (s.ringMiss part a)
      | .beyond a => .fault (.noSuchAddress a)
      | .ok =>
        match s.objEntry (s.tbOf part) o with
        | .page _ a => .next (s.ringMiss part a)
        | .beyond a => .fault (.noSuchAddress a)
        | .at e =>
          if !s.keepsTags e then rejected 13
          else
            match s.sfeWalk part o x 16 .cst with
            | (.error st, s1) => sfeStop s1 part stream h st
            | (.ok t, s1) =>
              .next ((((s1.writeBytes t.slot t.loc (toBytes 16 c.bits.toNat)).setTag t.loc true).sfeStored s1 t 16).packetEnd part stream h (hLen h) stDone 0 0)
        | _ => .next (s.packetEnd part stream h (hLen h) stFaulted 0 fcObject)

end Sys2Proof.Machine
end

