-- ==== Sys2Proof/Machine/Launching.lean ====
section
/-! DEFINITION. Launches (spec/18_streams_launch_preemption.md R282, R286 to R291; spec/02_execution_model.md R20, R22, R26, R27, R30, R43;
spec/04_memory_capabilities_tensors.md R65; spec/06_bounds_pass.md R98; spec/19_traps_faults_recovery.md R309): the checks of a launch record, placement, the
start of the teams, and retirement. -/

namespace Sys2Proof.Machine

/-! ### Fields of the launch record (R286, R287) -/

def Launch.entryPc (l : Launch) : Nat := field l.record 0 48
def Launch.atom (l : Launch) : Nat := field l.record 72 1
def Launch.prio (l : Launch) : Nat := field l.record 77 3
def Launch.entryPrio (l : Launch) : Nat := field l.record 80 4
def Launch.accBands (l : Launch) : Nat := field l.record 128 4
def Launch.wbuf64 (l : Launch) : Nat := field l.record 138 4
def Launch.tmKib (l : Launch) : Nat := field l.record 142 9
def Launch.stackz (l : Launch) : Nat := field l.record 160 32
def Launch.codeCap (l : Launch) : Cap := ⟨l.record.extractLsb' 1664 128, true⟩
def Launch.argCap (l : Launch) : Cap := ⟨l.record.extractLsb' 1792 128, true⟩
def Launch.stackCap (l : Launch) : Cap := ⟨l.record.extractLsb' 1920 128, true⟩

/-- Role entry n, level entry n, channel entry n, SNAP entry n. -/
def Launch.roleWord (l : Launch) (n : Nat) : W32 := l.record.extractLsb' (192 + 32 * n) 32
def Launch.levelWord (l : Launch) (n : Nat) : W32 := l.record.extractLsb' (320 + 32 * (n - 3)) 32
def Launch.chanWord (l : Launch) (n : Nat) : W64 := l.record.extractLsb' (640 + 64 * n) 64

/-- A used role: its role, width, group count and register budget. -/
structure RoleSpec where
  role   : Nat
  width  : Nat
  count  : Nat
  budget : Nat
  deriving DecidableEq, Repr

def roleSpec (w : W32) : RoleSpec := ⟨field w 30 2, 8 * 2 ^ field w 24 2, field w 16 8, 32 * field w 0 6⟩

/-- The role entries. -/
def Launch.roles (l : Launch) : List RoleSpec := (List.range 4).map (fun n => roleSpec (l.roleWord n))

/-- The groups of a team in their order: by role entry, then by index (R20). -/
def Launch.groupSpecs (l : Launch) : List RoleSpec := l.roles.flatMap (fun r => List.replicate r.count r)

/-- The register bytes of a group in its slot: doubled for the bounds role (R26). -/
def Launch.groupBytes (l : Launch) (r : RoleSpec) : Nat := (if l.ben ∧ l.brole = r.role then 2 else 1) * (r.budget * r.width * 4)

/-- A valid channel: its source and destination TEAMID and its slots. -/
def Launch.chanSpecs (l : Launch) : List (Nat × Chan) :=
  (List.range 16).filterMap (fun n =>
    let w := l.chanWord n
    if w.getLsbD 63 then some (n, ⟨field w 0 28, field w 28 28, field w 56 4 + 1, [], [], []⟩) else none)


/-- The teams of the whole launch. -/
def Launch.teamCount (l : Launch) : Nat := l.teamsIn (l.nlvl - 1)

/-- How many teams this device holds, and which: R291 divides a launch bound to DOMAIN by DEVINDEX. -/
def Launch.localCount (l : Launch) : Nat :=
  match l.domainLevel with
  | none => l.teamCount
  | some n => l.teamCount / l.extent n

def Launch.localTeams (l : Launch) : List Nat := (List.range l.teamCount).filter l.holds

/-! ### Placement (R30, R290) -/

/-- The service cores of a partition: core 0 of its lowest cluster on each die (R250). -/
def Part.services (p : Nat) (x : Part) : List Nat := (Part.dies p x).map (fun d => 16 * max p (4 * d))

/-- Its kernel cores; the H partition's stay idle (R249). -/
def Part.kernels (p : Nat) (x : Part) : List Nat :=
  if x.hpart then [] else ((List.range (16 * x.units)).map (16 * p + ·)).filter (fun c => !(Part.services p x).contains c)

/-- What a core holds: team memory in KiB, weight buffer in 64 KiB, accumulator rows in 64, channel slots, teams under HELD, and for each slot its groups and
register bytes. -/
structure CoreLoad where
  tm    : Nat
  wb    : Nat
  acc   : Nat
  chans : Nat
  held  : Nat
  slots : List (Nat × Nat)
  deriving DecidableEq, Repr

def CoreLoad.empty : CoreLoad := ⟨0, 0, 0, 0, 0, [(0, 0), (0, 0), (0, 0), (0, 0)]⟩

/-- Add a group to slot i. -/
def addGroup (i bytes : Nat) (slots : List (Nat × Nat)) : List (Nat × Nat) := slots.modify i (fun e => (e.1 + 1, e.2 + bytes))

/-- Slots for groups of these register bytes: at most 32 groups and 256 KiB a slot (R22, R26). The search is exhaustive, the lowest slots first. -/
def packGroups : List Nat → List (Nat × Nat) → Option (List Nat × List (Nat × Nat))
  | [], slots => some ([], slots)
  | b :: bs, slots => (List.range 4).findSome? (fun i =>
      match slots[i]? with
      | none => none
      | some (n, used) =>
        if n < 32 ∧ used + b ≤ 2 ^ 18 then (packGroups bs (addGroup i b slots)).map (fun r => (i :: r.1, r.2)) else none)

/-- The channel slots that team t receives on. -/
def Launch.chanSlots (l : Launch) (t : Nat) : Nat := ((l.chanSpecs.filter (fun e => decide (e.2.dst = t))).map (·.2.slots)).sum

/-- A core with one more team, and the slots of its groups (R290). -/
def CoreLoad.addTeam (x : CoreLoad) (l : Launch) (t : Nat) : Option (List Nat × CoreLoad) :=
  let held := decide (l.recovery = rcHeld)
  if 256 < x.tm + l.tmKib ∨ 8 < x.wb + l.wbuf64 ∨ 8 < x.acc + l.accBands ∨ 64 < x.chans + l.chanSlots t ∨ (held ∧ 1 ≤ x.held) then none
  else (packGroups (l.groupSpecs.map l.groupBytes) x.slots).map (fun r =>
    (r.1, ⟨x.tm + l.tmKib, x.wb + l.wbuf64, x.acc + l.accBands, x.chans + l.chanSlots t, x.held + (if held then 1 else 0), r.2⟩))

/-- R30, R225: may team t stand on core c beside teams already chosen: each span in one unit of its domain, the teams of a CLUSTER span of at most 8 on
distinct cores? -/
def Launch.spanOk (l : Launch) (chosen : List (Nat × Nat)) (t c : Nat) : Bool :=
  chosen.all (fun e => ((List.range (l.nlvl - 3)).map (· + 3)).all (fun n =>
    decide (t / l.teamsIn n ≠ e.1 / l.teamsIn n) ||
    (if l.domain n = 0 then decide (c / 8 = e.2 / 8) && !(decide (n = 3 ∧ l.extent 3 ≤ 8) && decide (c = e.2))
     else if l.domain n = 1 then decide (c / 64 = e.2 / 64) else true)))

/-- A team in its place: TEAMID, core, the slots of its groups. -/
structure Placed where
  tid   : Nat
  core  : Nat
  slots : List Nat
  deriving DecidableEq, Repr

/-- The launch's teams on cores, with the cores' loads; each team on one of the cores that `choice` gives for it. The search is exhaustive. -/
def seat (l : Launch) : List (Nat × List Nat) → List (Nat × Nat) → Tab CoreLoad → Option (List Placed)
  | [], _, _ => some []
  | (t, cores) :: ts, chosen, loads => cores.findSome? (fun c =>
      if l.spanOk chosen t c then
        match (Tab.get CoreLoad.empty loads c).addTeam l t with
        | none => none
        | some (ss, x) => (seat l ts (chosen ++ [(t, c)]) (Tab.put loads c x)).map (⟨t, c, ss⟩ :: ·)
      else none)

/-- Could some state of the partition hold the launch: an empty one (R30, R288 reason 5)? No core holds more than 128 groups. -/
def Launch.fitsEmpty (l : Launch) (cores : List Nat) : Bool :=
  decide (l.tmKib ≤ 256 ∧ l.wbuf64 ≤ 8 ∧ l.accBands ≤ 8 ∧ l.localCount * l.groupSpecs.length ≤ 128 * cores.length) &&
  (seat l (l.localTeams.map (fun t => (t, cores))) [] []).isSome

/-! ### The checks of a record (R288) -/

/-- Reason 2: the bits that R286 and R287 name nowhere. -/
def Launch.reservedBad (l : Launch) : Bool :=
  [(64, 8), (88, 8), (132, 6), (151, 9), (496, 16), (515, 1), (535, 1), (560, 16), (632, 8)].any (fun e => decide (field l.record e.1 e.2 ≠ 0)) ||
  (List.range 4).any (fun n => decide (field (l.roleWord n) 26 4 ≠ 0 ∨ field (l.roleWord n) 6 10 ≠ 0)) ||
  ((List.range 5).map (· + 3)).any (fun n => decide (field (l.levelWord n) 29 3 ≠ 0 ∨ field (l.levelWord n) 16 8 ≠ 0)) ||
  (List.range 16).any (fun n => decide (field (l.chanWord n) 60 3 ≠ 0))

/-- Reason 3: R28, R29, R291. -/
def Launch.levelsBad (l : Launch) : Bool :=
  decide (l.nlvl < 3 ∨ 8 < l.nlvl) ||
  ((List.range 5).map (· + 3)).any (fun n =>
    if l.nlvl ≤ n then decide (l.levelWord n ≠ 0)
    else decide (l.extent n = 0 ∨ l.scope n < l.domain n + 2 ∨ 6 < l.scope n ∨ (3 < n ∧ l.domain n < l.domain (n - 1)))) ||
  (match l.domainLevel with
    | none => false
    | some n => decide (l.extent n ≤ l.devIndex))

/-- Reason 4. The order of used entries is part of it. -/
def Launch.rolesBad (l : Launch) : Bool :=
  let used := l.roles.filter (fun r => decide (r.count ≠ 0))
  used.isEmpty || decide (l.roles.takeWhile (fun r => decide (r.count ≠ 0)) ≠ used) || decide ((used.map (·.role)).eraseDups.length ≠ used.length) ||
  used.any (fun r => decide (r.budget < 32 ∨ 1024 < r.budget)) || decide (128 < l.groupSpecs.length)

/-- Reason 8: R98. -/
def Launch.boundsBad (l : Launch) : Bool :=
  let th := field l.record 516 4
  let tw := field l.record 520 4
  let mh := field l.record 524 4
  let mw := field l.record 528 4
  l.ben && (decide (th < 3 ∨ 9 < th ∨ tw < 3 ∨ 9 < tw ∨ mh < 3 ∨ th < mh ∨ mw < 3 ∨ tw < mw ∨ 4 < l.maxDepth ∨ l.domH % l.tileH ≠ 0 ∨ l.domW % l.tileW ≠ 0) ||
    (decide (0 < l.totCap) && decide (l.totOff % 16 ≠ 0 ∨ 1024 * l.tmKib < 16 + 16 * l.totCap + l.totOff)) ||
    !l.groupSpecs.any (fun r => decide (r.role = l.brole)))

/-- A check of a plain condition. -/
def Chk.plain (bad : Bool) : Chk := if bad then .fail else .ok

/-- The first check that does not pass. -/
def Chk.first : List Chk → Chk
  | [] => .ok
  | .ok :: cs => Chk.first cs
  | c :: _ => c

/-- Reason 6: the code capability, the entry, and an argument capability that c27 can hold: kind MEM (R65). -/
def State.codeCheck (s : State) (p : Nat) (l : Launch) : Chk :=
  let c := l.codeCap
  let e := l.entryPc
  Chk.first [s.capValid p c, Chk.plain (decide (c.kind ≠ kCode) || !c.has rX || decide (e % 4 ≠ 0 ∨ e % 32 = 0 ∨ e < c.base ∨ c.base + c.length < e + 4)),
    if l.argCap.bits = 0 then .ok else Chk.first [s.capValid p l.argCap, Chk.plain (decide (l.argCap.kind ≠ kMem))]]

/-- Reason 7. -/
def State.stackCheck (s : State) (p : Nat) (l : Launch) : Chk :=
  let c := l.stackCap
  Chk.first [s.capValid p c,
    Chk.plain (decide (c.kind ≠ kMem) || !c.has (rR + rW + rS + rL) || decide (c.length < l.stackz * (l.groupSpecs.length * l.teamCount) ∨ l.stackz % 8 ≠ 0)),
    s.onEntry p c.obj (·.pin)]

/-- Reason 10. -/
def State.snapCheck (s : State) (p : Nat) (l : Launch) : Chk :=
  Chk.first (Chk.plain (((List.range 8).drop l.snapList.length).any (fun n => decide (l.snapId n ≠ 0))) :: l.snapList.map (fun o => s.onEntry p o (·.snap)))

/-- R288, R350: the checks of a launch record in their order, each with its reason. -/
def State.launchChecks (s : State) (p : Nat) (x : Part) (l : Launch) : List (Nat × (Unit → Chk)) :=
  [(1, fun _ => Chk.plain (versionBad x.lrver (field l.record 48 16))),
   (2, fun _ => Chk.plain l.reservedBad),
   (3, fun _ => Chk.plain l.levelsBad),
   (4, fun _ => Chk.plain l.rolesBad),
   (5, fun _ => Chk.plain (!l.fitsEmpty (Part.kernels p x))),
   (6, fun _ => s.codeCheck p l),
   (7, fun _ => s.stackCheck p l),
   (8, fun _ => Chk.plain l.boundsBad),
   (9, fun _ => Chk.plain (l.chanSpecs.any (fun e => decide (l.teamCount ≤ e.2.src ∨ l.teamCount ≤ e.2.dst)))),
   (10, fun _ => s.snapCheck p l),
   (11, fun _ => Chk.plain (decide (2 ≤ l.pclass ∨ (l.pclass = 1 ∧ l.recovery = rcNormal)))),
   (12, fun _ => Chk.plain (decide (l.recovery = 3)))]

/-- The first check that does not pass, with its reason; reason 0 when all pass. -/
def firstCheck : List (Nat × (Unit → Chk)) → Nat × Chk
  | [] => (0, .ok)
  | (r, f) :: cs =>
    match f () with
    | .ok => firstCheck cs
    | c => (r, c)

/-- A record in 36 quadwords. -/
def recordOf (ws : List W64) : BitVec 2304 := BitVec.ofNat 2304 (ofBytes (ws.flatMap (fun w => toBytes 8 w.toNat)))

/-- A record alone, for its fields. -/
def Launch.ofRecord (r : BitVec 2304) : Launch := { Launch.base with record := r }

/-- The record of a LAUNCH or TLAUNCH packet is checked; one that passes is ready, at step 1, or waits for its tick, at step 2 (R282). -/
def launchPacket (p n : Nat) (s : State) (h : W64) (ws : List W64) (tick : W64) (step : Nat) : Host.Outcome State Fault Refusal :=
  match s.part? p with
  | none => .next s
  | some x =>
    let l := Launch.ofRecord (recordOf ws)
    match firstCheck (s.launchChecks p x l) with
    | (r, .fail) => .next (s.packetEnd p n h (hLen h) stRejected r 0)
    | (_, .miss a) => .next (s.ringMiss p a)
    | (_, .beyond a) => .fault (.noSuchAddress a)
    | (_, .ok) =>
      let (age, s1) := s.newUid
      let ring := ((s.stream (.user p n)).map (·.head)).getD 0
      let r : Ready := { stream := n, ring := ring, tag := BitVec.ofNat 16 (hTag h), record := l.record, complete := hComplete h, type := BitVec.ofNat 8 (hType h),
                         tick := tick, replays := 0, age := age }
      .next ((s1.onContext p (fun c => { c with ready := c.ready ++ [r] })).packetStep p n step)

/-- LAUNCH (R282). -/
def execLaunch (part stream : Nat) (s : State) : Host.Outcome State Fault Refusal :=
  userPacket tyLaunch part stream s fun s h ws => launchPacket part stream s h ws 0 1

/-- TLAUNCH (R282): body quadword 1 is the timebase value. -/
def execTlaunch (part stream : Nat) (s : State) : Host.Outcome State Fault Refusal :=
  userPacket tyTlaunch part stream s fun s h ws => launchPacket part stream s h ws.tail (bodyWord ws 1) 2

/-- TLAUNCH_TICK (R282): the timebase has reached the value; placement may begin. -/
def execTlaunchTick (part stream : Nat) (s : State) : Host.Outcome State Fault Refusal :=
  match s.stream (.user part stream), s.context? part with
  | some d, some c =>
    if s.ctxRuns part && s.clocked && decide (d.step = 2) && c.ready.any (fun r => decide (r.stream = stream ∧ r.tick.toNat ≤ s.timebase.toNat))
    then .next (s.packetStep part stream 1) else .next s
  | _, _ => .next s

/-! ### Which launch is placed next (R290) -/

/-- The launches of a context that run. -/
def State.running (s : State) (a : Nat) : List (Nat × Launch) := s.launches.filter (fun e => decide (e.2.ctx = a))

/-- Is a checked launch ready: its tick has come, and its ATOM equals ATOMMODE or no launch of the context runs? -/
def State.isReady (s : State) (a : Nat) (c : Context) (r : Ready) : Bool :=
  decide ((Tab.get Stream.zero c.streams r.stream).step = 1) &&
  ((s.running a).isEmpty || decide ((Launch.ofRecord r.record).atom = (if c.atommode.getLsbD 0 then 1 else 0)))

/-- The order of R290: stream PRIO, launch PRIO, packet age. -/
def Ready.before (c : Context) (x y : Ready) : Bool :=
  let k (r : Ready) : List Nat := [7 - (Tab.get Stream.zero c.streams r.stream).prio.toNat, 7 - (Launch.ofRecord r.record).prio, r.age]
  decide (k x < k y)

/-- The launch at the head of the order. -/
def firstReadyLaunch (c : Context) : List Ready → Option Ready
  | [] => none
  | r :: rs =>
    match firstReadyLaunch c rs with
    | none => some r
    | some x => some (if Ready.before c x r then x else r)

/-- The next launch of a context. -/
def State.nextLaunch (s : State) (a : Nat) (c : Context) : Option Ready := firstReadyLaunch c (c.ready.filter (s.isReady a c))

/-- Does a launch list an object that one that runs lists too (R309)? -/
def State.snapClash (s : State) (a : Nat) (l : Launch) : Bool := (s.running a).any (fun e => e.2.snapList.any (fun o => l.snapList.contains o))

/-- What a core of the partition holds of its U teams that have not retired. -/
def State.coreLoad (s : State) (p core : Nat) : CoreLoad :=
  let ts := (s.residents p).filter (fun e => decide (e.2.core = core))
  let rec? (t : Team) : Launch := (s.launch? t.launch).getD Launch.base
  let sum (f : Team → Nat) : Nat := (ts.map (fun e => f e.2)).sum
  let gs := s.groups.filter (fun g => decide (g.2.core = core ∧ g.2.part = p ∧ g.2.level = .u) && !g.2.retired)
  let bytes (g : Group) : Nat := ((rec? ((s.team? g.team).getD Team.base)).groupBytes ⟨g.role, g.width, 1, g.budget⟩)
  { tm := sum (fun t => t.tmBytes / 1024), wb := sum (fun t => t.wbBytes / 65536), acc := sum (fun t => t.accRows / 64),
    chans := sum (fun t => (rec? t).chanSlots t.tid), held := sum (fun t => if (rec? t).recovery = rcHeld then 1 else 0),
    slots := (List.range 4).map (fun i => let ms := gs.filter (fun g => decide (g.2.slot = i)); (ms.length, (ms.map (fun g => bytes g.2)).sum)) }

/-- The loads of the kernel cores of a partition. -/
def State.loads (s : State) (p : Nat) (cores : List Nat) : Tab CoreLoad := cores.map (fun c => (c, s.coreLoad p c))

/-- The teams of a launch on the cores that are named, one for each, or none where one does not fit. -/
def State.seatOn (s : State) (p : Nat) (x : Part) (l : Launch) (cores : List Nat) : Option (List Placed) :=
  let ks := Part.kernels p x
  if l.localTeams.length ≠ cores.length ∨ !cores.all (fun c => ks.contains c) then none
  else seat l (l.localTeams.zip (cores.map (fun c => [c]))) [] (s.loads p ks)

/-- Cores on which the launch fits now, by the exhaustive search. -/
def State.findCores (s : State) (p : Nat) (x : Part) (l : Launch) : Option (List Nat) :=
  let ks := Part.kernels p x
  (seat l (l.localTeams.map (fun t => (t, ks))) [] (s.loads p ks)).map (fun r => r.map (·.core))

/-! ### The start of a launch (R27, R65) -/

/-- c27 to c31 of a group (R65); `g` is TEAMID · groups per team + GROUPID. -/
def Launch.caps (l : Launch) (g : Nat) : Tab Cap :=
  let st := l.stackCap
  [(27, ⟨l.argCap.bits, true⟩), (28, ⟨capBits 0 (rR + rW + rC) kWbuf 0 (65536 * l.wbuf64), true⟩),
   (29, ⟨capBits l.codeCap.obj (rR + rX) kCode l.codeCap.base l.codeCap.length, true⟩),
   (30, ⟨capBits 0 (rR + rW + rA + rC + rS + rL) kTeam 0 (1024 * l.tmKib), true⟩),
   (31, ⟨capBits st.obj (rR + rW + rS + rL) kMem (st.base + g * l.stackz) l.stackz, true⟩)]

/-- A group at its start. -/
def Launch.group (l : Launch) (u team tid gid core slot now : Nat) (r : RoleSpec) : Group :=
  { Group.base with
    part := l.part, launch := u, team := team, gid := gid, width := r.width, role := r.role, budget := r.budget, core := core, slot := slot, born := now,
    regs := { Regs.zero with c := l.caps (tid * l.groupSpecs.length + gid) },
    lanes := List.replicate r.width (Lane.start (BitVec.ofNat 48 l.entryPc) l.entryPrio) }

/-- The groups of a team, under new numbers. -/
def State.startGroups (s : State) (l : Launch) (u team : Nat) (x : Placed) : Nat → List RoleSpec → State
  | _, [] => s
  | gid, r :: rs =>
    let (v, s1) := s.newUid
    State.startGroups (s1.putGroup v (l.group u team x.tid gid x.core (x.slots.getD gid 0) s.aclk r)) l u team x (gid + 1) rs

/-- The teams of a launch, each with its groups. -/
def State.startTeams (s : State) (l : Launch) (u : Nat) : List Placed → State
  | [] => s
  | x :: xs =>
    let (t, s1) := s.newUid
    let tm : Team := { Team.base with part := l.part, launch := u, tid := x.tid, core := x.core, tmBytes := 1024 * l.tmKib, wbBytes := 65536 * l.wbuf64,
                                      accRows := 64 * l.accBands }
    State.startTeams ((s1.putTeam t tm).startGroups l u t x 0 l.groupSpecs) l u xs

/-! ### Service teams (R249) -/

/-- The groups of a service team start, under new numbers. -/
def State.sowGroups (s : State) (p t : Nat) (l : Level) : List Group → Tab Group × State
  | [] => ([], s)
  | g :: gs =>
    let (u, s1) := s.newUid
    let (r, s2) := State.sowGroups s1 p t l gs
    (Tab.put r u { g with part := p, launch := 0, team := t, level := l, born := s.aclk }, s2)

/-- The service teams of a level that a partition's configuration names, each with its groups, under new numbers. -/
def State.sow (s : State) (p : Nat) (l : Level) : List Seed → Tab Team × Tab Group × State
  | [] => ([], [], s)
  | x :: xs =>
    if x.team.level ≠ l then State.sow s p l xs
    else
      let (t, s1) := s.newUid
      let (gs, s2) := s1.sowGroups p t l x.groups
      let (ts, hs, s3) := State.sow s2 p l xs
      (Tab.put ts t { x.team with part := p, launch := 0 }, gs.foldl (fun m e => Tab.put m e.1 e.2) hs, s3)

/-- They start in their partition: those of an H partition by PARTCFG, those of a guest's supervisor with its context. -/
def State.sowOn (s : State) (p : Nat) (l : Level) : State :=
  let (ts, gs, s1) := s.sow p l (Tab.get [] s.seeds p)
  { s1 with teams := ts.foldl (fun m e => Tab.put m e.1 e.2) s1.teams, groups := gs.foldl (fun m e => Tab.put m e.1 e.2) s1.groups }

/-- The core on which a team of a context stands in another partition: a service team's on one of its service cores. -/
def Part.serviceCore (p : Nat) (x : Part) (c : Nat) : Nat := if (Part.services p x).contains c then c else (Part.services p x).headD c

/-- PLACEMENT (R290): the launch at the head of the order starts on these cores, one for each of its teams on this device, if it fits there. -/
def execPlacement (part : Nat) (cores : List Nat) (s : State) : Host.Outcome State Fault Refusal :=
  match s.part? part, s.ctxOf part, s.context? part with
  | some x, some a, some c =>
    if !s.ctxRuns part || !s.clocked then .next s
    else
      match s.nextLaunch a c with
      | none => .next s
      | some r =>
        let l : Launch := { Launch.base with part := part, ctx := a, stream := r.stream, ring := r.ring, tag := r.tag, record := r.record,
                                             complete := r.complete, type := r.type, replays := r.replays, age := r.age }
        let lone := (s.running a).isEmpty
        if s.snapClash a l then .next s
        else
          match s.seatOn part x l cores with
          | none => .next s
          | some ps =>
            let (u, s1) := s.newUid
            let l1 : Launch := { l with chans := l.chanSpecs }
            let s2 := (s1.onContext part (fun c => { c with ready := c.ready.filter (fun y => decide (y.age ≠ r.age)),
                                                            atommode := if lone then BitVec.ofNat 64 l.atom else c.atommode })).putLaunch u l1
            .next (s2.startTeams l1 u ps)
  | _, _, _ => .next s

/-! ### Retirement (R43) -/

/-- The header quadword of a launch's packet. -/
def Launch.header (l : Launch) : W64 :=
  BitVec.ofNat 64 (l.type.toNat + (if l.complete then 2 ^ 8 else 0) + (if l.type.toNat = tyTlaunch then 38 else 37) * 2 ^ 32 + l.tag.toNat * 2 ^ 48)

/-- The end of a launch's packet. -/
def State.launchEnd (s : State) (l : Launch) (status fault : Nat) : State := s.packetEnd l.part l.stream l.header (hLen l.header) status 0 fault

/-- LAUNCH_RETIREMENT: every team has retired, every flow and round has completed; what the launch wrote is published at PACKAGE and its packet completes. -/
def execLaunchRetirement (launch : Nat) (s : State) : Host.Outcome State Fault Refusal :=
  match s.launch? launch with
  | none => .next s
  | some l =>
    let ts := s.teams.filter (fun e => decide (e.2.launch = launch))
    let busy := s.copies.any (fun e => decide (e.2.launch = launch)) || s.contribs.any (fun c => decide (c.launch = launch)) ||
      s.mats.any (fun e => decide (e.2.launch = launch))
    if decide (s.ctxOf l.part ≠ some l.ctx) || !s.ctxRuns l.part || busy || !ts.all (fun e => e.2.retired) then .next s
    else
      let us := ts.map (·.1)
      let ops := (s.unpub.filter (fun u => us.contains u.team)).map (·.op)
      let s1 := (s.publish (fun o => ops.contains o) 5).dropSnaps launch
      let s2 := { s1 with teams := s1.teams.filter (fun e => decide (e.2.launch ≠ launch)), groups := s1.groups.filter (fun e => decide (e.2.launch ≠ launch)),
                          launches := Tab.del s1.launches launch }
      .next ((s2.onStream (.user l.part l.stream) (fun d => { d with past := d.past ++ us })).launchEnd l stDone 0)

end Sys2Proof.Machine
end

