-- ==== Sys2Proof/Machine/Recover.lean ====
section
/-! DEFINITION. Resuming a context (spec/18_streams_launch_preemption.md R296; spec/19_traps_faults_recovery.md R301, R308) and what the device does by itself after a
failure (R310, R311; spec/02_execution_model.md R44, R45). -/

namespace Sys2Proof.Machine

/-! ### The resume column of R308 -/

/-- The lanes of a fault go on to next(p). -/
def Group.skipWord (g : Group) (f : FaultRec) : Group :=
  g.onLanes f.fmask (fun _ x => if x.state = .run ∨ x.state = .brk then { x with state := .run, pc := nextPc x.pc } else x)

/-- A group as its fault's column has it resume: NEXT for USER_TRAP and BREAKPOINT, every other fault cleared so that the word or the wait goes on; its
operand log replays. -/
def Group.resumeFault (g : Group) : Group :=
  let g1 := match g.fault with
    | none => g
    | some f => if f.cause.toNat = fcTrap ∨ f.cause.toNat = fcBreak then g.skipWord f else g
  { g1 with fault := none, arrayFault := false, retry := !g1.log.isEmpty }

/-- WAIT: the watchdog counts afresh for the waits of a group: its latch entry, the barriers where it has arrived, its channels. -/
def State.waitAfresh (s : State) (uid : Nat) (g : Group) : State :=
  let now := s.watchOf g
  let bar (b : Barrier) : Barrier := if b.arrived.contains uid then { b with times := b.arrived.map s.barClock } else b
  let s1 := { s with latch := s.latch.map (fun (w : Waiter) => if w.group = uid then { w with since := now } else w) }
  let s2 := s1.onTeam g.team (fun t => { t with bars := t.bars.map (fun (e : Nat × Barrier) => (e.1, bar e.2)) })
  let s3 := s2.onLaunch g.launch (fun l => { l with lvlBars := l.lvlBars.map (fun (e : Nat × Barrier) => (e.1, bar e.2)) })
  s3.onGroup uid (fun g => { g with lanes := g.lanes.map (fun (x : Lane) => if x.chanOf.isSome then { x with since := now } else x) })

/-- Is a fault one whose column is WAIT? -/
def FaultRec.waits (f : FaultRec) : Bool := decide (f.cause.toNat = fcGang ∨ f.cause.toNat = fcBarrier ∨ f.cause.toNat = fcWatchdog)

/-- Groups resume. -/
def State.resumeGroups (s : State) : List (Nat × Group) → State
  | [] => s
  | (u, g) :: gs =>
    let s1 := if (g.fault.map (·.waits)).getD false then s.waitAfresh u g else s
    State.resumeGroups (s1.onGroup u (·.resumeFault)) gs

/-- R311: a launch is aborted: its teams and claims are discarded, its packet completes FAULTED with the fault's code, its stream sets ERROR. -/
def State.abort (s : State) (u : Nat) (code : Nat) : State :=
  match s.launch? u with
  | none => s
  | some l => ({ (s.dropSnaps u).discardLaunch u with launches := Tab.del s.launches u }).launchEnd l stFaulted code

/-- Is a fault an unrecovered failure of the hardware (R311)? -/
def FaultRec.failed (f : FaultRec) : Bool := decide (f.cause.toNat = fcShadow ∨ f.cause.toNat = fcUncorr)

/-- The launches of a context that a failure of the hardware leaves to S (R311), with its code: any of a launch's groups may have it. -/
def State.toAbort (s : State) (p : Nat) : List (Nat × Nat) :=
  (s.ctxLaunches p).filterMap (fun e =>
    if e.2.failing ≠ 0 then none
    else (s.groups.findSome? (fun g => if g.2.launch = e.1 then g.2.fault.filter FaultRec.failed else none)).map (fun f => (e.1, f.cause.toNat)))

/-- Is the partition's interface in RUN, with its session (R321)? -/
def State.secure (s : State) (p : Nat) : Bool :=
  match s.part? p with
  | none => false
  | some x => decide (x.tdi = .run) && x.spdm

/-- The stopped S and H teams of a partition are retried (R308). -/
def State.retryService (s : State) (p : Nat) : State :=
  let s1 := s.resumeGroups (s.groups.filter (fun e => decide (e.2.part = p ∧ e.2.level ≠ .u) && e.2.fault.isSome))
  { s1 with teams := s1.teams.map (fun (e : Nat × Team) => (e.1, if e.2.part = p ∧ e.2.level ≠ Level.u then { e.2 with stopped := false } else e.2)) }

/-! ### Restarting a team under HELD (R44, R311) -/

/-- What the launch holds of the groups of a team that starts again: their arrivals, and their channel entries. -/
def Launch.forget (l : Launch) (tid : Nat) (us : List Nat) : Launch :=
  let bar (b : Barrier) : Barrier := b.keep (fun u => !us.contains u)
  let chan (q : Chan) : Chan :=
    { q with fifo := if q.src = tid then [] else q.fifo, senders := q.senders.filter (fun w => !us.contains w.group),
             takers := q.takers.filter (fun w => !us.contains w.group) }
  { l with lvlBars := l.lvlBars.map (fun e => (e.1, bar e.2)), chans := l.chans.map (fun e => (e.1, chan e.2)) }

/-- Another core of the team's domain unit that fits it, with the slots of its groups. -/
def State.otherCore (s : State) (l : Launch) (launch team : Nat) (t : Team) : Option (Nat × List Nat) :=
  match s.part? t.part with
  | none => none
  | some x =>
    let mates := (s.teams.filter (fun e => decide (e.2.launch = launch ∧ e.1 ≠ team))).map (fun e => (e.2.tid, e.2.core))
    (Part.kernels t.part x).findSome? (fun c =>
      if decide (c ≠ t.core) && l.spanOk mates t.tid c then ((s.coreLoad t.part c).addTeam l t.tid).map (fun r => (c, r.1)) else none)

/-- The groups of a team start again, each in its slot. -/
def State.restartGroups (s : State) (l : Launch) (u team : Nat) (tid core : Nat) (slots : List Nat) : List (Nat × Group) → State
  | [] => s
  | (v, g) :: gs =>
    State.restartGroups (s.putGroup v (l.group u team tid g.gid core (slots.getD g.gid g.slot) s.aclk ⟨g.role, g.width, 1, g.budget⟩)) l u team tid core slots gs

/-- R311: the team's buffer is discarded, and it starts again. -/
def State.restartTeam (s : State) (u team : Nat) : State :=
  match s.launch? u, s.team? team with
  | some l, some t =>
    let gs := s.groups.filter (fun e => decide (e.2.team = team))
    let us := gs.map (·.1)
    let (core, slots) := (s.otherCore l u team t).getD (t.core, [])
    let s1 := { s with latch := s.latch.filter (fun w => !us.contains w.group), mats := s.mats.filter (fun e => !us.contains e.2.group) }
    let s2 := (s1.onLaunch u (·.forget t.tid us)).putTeam team
      { Team.base with part := t.part, launch := u, tid := t.tid, core := core, tmBytes := t.tmBytes, wbBytes := t.wbBytes, accRows := t.accRows, failed := t.failed }
    s2.restartGroups l u team t.tid core slots gs
  | _, _ => s

/-! ### SNAPSHOT_ROLLBACK (R310, R311, R45) -/

/-- The teams of a launch with a failed group. -/
def State.failedTeams (s : State) (u : Nat) : List Nat :=
  ((s.groups.filter (fun e => decide (e.2.launch = u) && (match e.2.fault with
    | none => false
    | some f => f.failed))).map (·.2.team)).eraseDups

/-- What the device does with a failed launch: SNAPSHOT: its pages are restored and it waits to be placed again; HELD: the failed teams start again, or, after
HELD_OVERFLOW, a second failure of a team, or a `recv` slot taken, it waits to be placed again under SNAPSHOT. -/
def State.recover (s : State) (u : Nat) (l : Launch) : State :=
  if l.recovery = rcHeld then
    let ts := s.failedTeams u
    let worn := ts.any (fun t => ((s.team? t).map (fun x => x.tookRecv || decide (2 ≤ x.failed))).getD false)
    if l.failing.toNat = fcHeld ∨ worn then (s.discardLaunch u).requeue u (some rcSnapshot) false
    else (ts.foldl (fun s t => s.restartTeam u t) s).onLaunch u (fun l => { l with failing := 0 })
  else ((s.restoreSnaps u).discardLaunch u).requeue u none true

/-- The launches of a partition's context that the device must recover yet: no group of theirs resumes before that (R308, R310). -/
def State.toRecover (s : State) (p : Nat) : List (Nat × Launch) := (s.ctxLaunches p).filter (fun e => decide (e.2.failing ≠ 0))

/-- The context of a partition runs again (R296): the device recovers its failed launches, the frames of its chain return to the free list, every group acts by its
fault's column. -/
def State.resumeContext (s : State) (p : Nat) : State :=
  match s.context? p with
  | none => s
  | some c =>
    let s0 := (s.toRecover p).foldl (fun s e => s.recover e.1 e.2) s
    let s1 := (s0.toAbort p).foldl (fun s e => s.abort e.1 e.2) s0
    let s2 := s1.resumeGroups (s1.groups.filter (fun e => decide (e.2.part = p ∧ e.2.level = .u)))
    let fs := c.chain.map (·.1)
    let s3 := if fs.isEmpty then s2 else s2.onPart p (fun x => { x with frames := x.frames ++ fs, starved := false })
    (s3.onContext p (fun c => { c with state := .running, halting := false, acks := [], first := none, chain := [] })).syncPart p

/-- SNAPSHOT_ROLLBACK: under the halt, the device recovers the launch; once it has recovered every failed launch, and no fault is left to S or H, the other
launches resume. -/
def execSnapshotRollback (launch : Nat) (s : State) : Host.Outcome State Fault Refusal :=
  match s.launch? launch with
  | none => .next s
  | some l =>
    match s.context? l.part with
    | none => .next s
    | some c =>
      if s.ctxOf l.part ≠ some l.ctx ∨ c.state ≠ .halted ∨ l.failing = 0 then .next s
      else
        let own := match c.first with
          | none => true
          | some f => s.deviceFirst l.part f
        let s1 := (s.recover launch l).onContext l.part (fun c => { c with first := if own then none else c.first })
        .next (if (s1.toRecover l.part).isEmpty && own && s.secure l.part then s1.resumeContext l.part else s1)

end Sys2Proof.Machine
end

