-- ==== Sys2Proof/Machine/Manage.lean ====
section
/-! DEFINITION. Management operations (spec/13_ref_matrix_bounds_system.md R238, R241 to R244; spec/17_translation_and_migration.md R267 to R274; spec/16_system_architecture.md
R262; spec/18_streams_launch_preemption.md R292, R296; spec/20_program_claims_revoked.md R315; spec/21_program_barrier_watchdog.md R318; spec/22_host_and_links.md R322): what each
does at its start, what it waits for, what it does at its end; and the instructions that ask for them. -/

namespace Sys2Proof.Machine

/-! ### The pages of an object -/

/-- Operands of `otinv` and `otswap` (R241): object, partition, first offset, count. -/
def opObj (sa : W64) : Nat := field sa 0 32
def opPart (sa : W64) : Nat := field sa 32 4
def opOff (sb : W64) : Nat := field sb 0 40
def opCount (sb : W64) : Nat := field sb 40 24

/-- A page of an object: where its entry stands, whether it is present, and its frames of 64 KiB: guest-physical and machine address. -/
structure PageRef where
  entry  : Nat
  bits   : W64
  frames : List (Nat × Nat)
  deriving DecidableEq, Repr

/-- Page i of an object, where its page list is mapped. -/
def State.pageRef (s : State) (tb : Translation) (e : ObjEntry) (i : Nat) : Option PageRef :=
  match s.stage2 tb (e.plist + 8 * i) with
  | .at a =>
    let pe := s.dev64 a
    some ⟨a, pe, (List.range (e.pageBytes / 2 ^ 16)).filterMap (fun k =>
      match s.stage2 tb (field pe 16 36 * 2 ^ 16 + k * 2 ^ 16) with
      | .at m => some (k, m)
      | _ => none)⟩
  | _ => none

/-- The pages that an operation names; an object on a peer has no page list. -/
def State.pageRefs (s : State) (tb : Translation) (e : ObjEntry) (off n : Nat) : List (Nat × PageRef) :=
  if e.place = plPeer then []
  else (List.range n).filterMap (fun i => (s.pageRef tb e (off / e.pageBytes + i)).map (i, ·))

/-- R241: ILLEGAL_OPERAND for an object absent from the table, a misaligned offset, a count of 0, a range past the object. -/
def ObjEntry.rangeBad (e : ObjEntry) (off n : Nat) : Bool :=
  decide (off % e.pageBytes ≠ 0 ∨ n = 0 ∨ (e.size + e.pageBytes - 1) / e.pageBytes < off / e.pageBytes + n)

/-! ### Revocation (R117, R118) -/

/-- The `tsum` operations of a partition that read or write a range of an object. -/
def State.tsumsOn (s : State) (p o lo n : Nat) : List Nat :=
  let meets (c : Cap) : Bool := decide (c.kind = kMem ∧ c.obj = o ∧ c.base < lo + n ∧ lo < c.base + c.length)
  (s.copies.filter (fun e => decide (e.2.part = p) && (match e.2.entry with
    | none => false
    | some t => meets t.data || meets t.summary))).map (·.1)

/-- The covered claims of a partition become REVOKED; the operations that their accepted flows and rounds are. -/
def State.revokeRange (s : State) (p o lo n cause : Nat) : State × List Nat :=
  let s1 := s.revoke p (·.covers o lo n) cause
  (s1, s1.opsOn p (·.covers o lo n) ++ s1.tsumsOn p o lo n)

/-- The claims of saved contexts of a partition with a property become REVOKED. -/
def State.revokeSaved (s : State) (p : Nat) (hit : Claim → Bool) (state cause : Nat) : State :=
  let claim (c : Claim) : Claim := if (c.state = 1 ∨ c.state = 2) ∧ hit c then { c with state := state, cause := cause } else c
  let team (t : Team) : Team := if t.part = p then { t with claims := t.claims.map (fun (e : Nat × Claim) => (e.1, claim e.2)) } else t
  { s with saved := s.saved.map (fun (e : Nat × Saved) => (e.1, { e.2 with teams := e.2.teams.map (fun (t : Nat × Team) => (t.1, team t.2)) })) }

/-! ### Invalidation (R241, R267) -/

/-- Is a cluster one of the partition's? -/
def Part.hasCluster (p : Nat) (x : Part) (c : Nat) : Bool := decide (2 * p ≤ c ∧ c < 2 * (p + x.units))

/-- The object caches of a partition without some lines. -/
def State.dropLines (s : State) (p : Nat) (hit : OLine → Bool) : State :=
  match s.part? p with
  | none => s
  | some x => { s with ocache := s.ocache.filter (fun l => !(Part.hasCluster p x l.cluster && hit l)) }

/-- The object caches without the lines of a range of an object: of pages that are absent or migrating they hold none (R267). -/
def State.dropRange (s : State) (p o off n : Nat) : State := s.dropLines p (fun l => decide (l.obj = o ∧ off < l.base + l.size ∧ l.base < off + n))

/-- The caches without the pages that an operation names: translations, and the instruction-cache lines of their frames; a group may have fetched one octet more
before (R275). -/
def State.dropPages (s : State) (p o off n : Nat) (frames : List Nat) : State :=
  let s1 := (s.prefetchAll (fun g => decide (g.part = p))).dropRange p o off n
  { s1 with icache := s1.icache.filter (fun l => !frames.any (fun f => decide (f ≤ l.addr ∧ l.addr < f + 2 ^ 16))) }

/-- R272, R275: every group of the partition with a log retries its head, and one whose fetch stalls fetches again. -/
def State.retryAll (s : State) (p : Nat) : State :=
  { s with groups := s.groups.map (fun (e : Nat × Group) => (e.1, if e.2.part = p then { e.2 with retry := e.2.retry || !e.2.log.isEmpty, fetchHeld := false } else e.2)) }

/-! ### otinv (R241) -/

/-- The pages become absent, the caches lose them. Where the object's entry is gone by now, no page is left to mark, and every cached line of the object goes. -/
def State.unmapPages (s : State) (p o off n : Nat) : State :=
  let tb := s.tbOf p
  match s.objEntry tb o with
  | .at e =>
    let ps := s.pageRefs tb e off n
    let s1 := ps.foldl (fun s x => s.guestPut x.2.entry (x.2.bits &&& ~~~1)) s
    (s1.dropPages p o off (n * e.pageBytes) (ps.flatMap (fun x => x.2.frames.map (·.2)))).retryAll p
  | _ => (s.dropPages p o 0 (2 ^ 40) []).retryAll p

/-! ### otswap (R242) -/

/-- What engines and connections hold of places, by another map of places. -/
def ReadSet.relocate (f : Loc → Loc) (r : ReadSet) : ReadSet := { r with locs := r.locs.map f }

def MatOp.relocate (f : Loc → Loc) (m : MatOp) : MatOp :=
  { m with aData := m.aData.relocate f, aScale := m.aScale.relocate f, bData := m.bData.relocate f, bScale := m.bScale.relocate f }

def Waiter.relocate (f : Loc → Loc) (w : Waiter) : Waiter :=
  { w with aData := w.aData.relocate f, aScale := w.aScale.relocate f, bData := w.bData.relocate f, bScale := w.bScale.relocate f }

def State.relocate (s : State) (f : Loc → Loc) : State :=
  { s with unpub := s.unpub.map (fun (u : Unpub) => { u with loc := f u.loc }),
           posted := s.posted.map (fun (q : Posted) => { q with writes := q.writes.map (fun w => (f w.1, w.2)) }),
           mats := s.mats.map (fun (e : Nat × MatOp) => (e.1, e.2.relocate f)), latch := s.latch.map (·.relocate f) }

/-- A page copy of a frame that has moved. -/
def SnapPage.move (host : Bool) (old new : Nat) (x : SnapPage) : SnapPage :=
  if x.host = host ∧ old ≤ x.base ∧ x.base < old + 2 ^ 16 then
    { x with base := x.base - old + new, cells := x.cells.map (fun (e : Host.Cell) => (e.1 - old + new, e.2)),
             tags := x.tags.map (fun (e : Nat × Bool) => (e.1 - old / 16 + new / 16, e.2)), marks := x.marks.map (fun i => i - old / 32 + new / 32) }
  else x

/-- The bytes of a frame move to another machine address, with tags and marks, under the object's key slot; bytes that the slot may not read go as zeros.
What engines, connections and snapshots hold of them goes with them. -/
def State.moveFrame (s : State) (slot : Nat) (host : Bool) (old new : Nat) : State :=
  let n := 2 ^ 16
  let moved (l : Loc) : Loc :=
    match l with
    | .dev a => if host = false ∧ old ≤ a ∧ a < old + n then .dev (a - old + new) else l
    | .host a => if host ∧ old ≤ a ∧ a < old + n then .host (a - old + new) else l
    | l => l
  let s0 := { s.relocate moved with launches := s.launches.map (fun (e : Nat × Launch) => (e.1, { e.2 with snaps := e.2.snaps.map (SnapPage.move host old new) })) }
  if host then { s0 with hostMem := Tab.blit 0 old new (Tab.slice s.hostMem old n) (Tab.clear s.hostMem new n) }
  else
    let cells := (Tab.slice s.mem old n).filter (fun e => s.readable slot (.dev e.1))
    let tags := (Tab.slice s.mtags (old / 16) (n / 16)).filter (fun e => s.readable slot (.dev (16 * e.1)))
    let stamp := some (slot, (s.keySlot slot).gen)
    let sectors := (List.range (n / 32)).foldl (fun t i =>
      Tab.set Sector.clean t (new / 32 + i) { Tab.get Sector.clean t (new / 32 + i) with slot := stamp, unc := (Tab.get Sector.clean s.sectors (old / 32 + i)).unc }) s.sectors
    { s0 with
      mem := Tab.blit 0 old new cells (Tab.clear s.mem new n)
      mtags := Tab.blit false (old / 16) (new / 16) tags (Tab.clear s.mtags (new / 16) (n / 16))
      sectors := sectors
      owned := Tab.clear (Tab.clear s.owned (old / 128) (n / 128)) (new / 128) (n / 128) }

/-- The stage-2 entry of guest frame g, mapping a frame of 64 KiB. -/
def State.mapFrame (s : State) (tb : Translation) (g m : Nat) : State := s.devPut (tb.s2Base + 8 * g) (BitVec.ofNat 64 (1 + m))

/-- A block that covers guest frame g is broken into frames that map as it did. -/
def State.splitBlock (s : State) (tb : Translation) (g : Nat) : State :=
  let break_ (first n : Nat) (e : W64) : State := (List.range n).foldl (fun s i => s.mapFrame tb (first + i) (s2Frame e + i * 2 ^ 16)) s
  let big := s.dev64 (tb.s2Base + 8 * (g / 16384 * 16384))
  let mid := s.dev64 (tb.s2Base + 8 * (g / 32 * 32))
  if s2Is big 2 then break_ (g / 16384 * 16384) 16384 big
  else if s2Is mid 1 then break_ (g / 32 * 32) 32 mid
  else s

/-- One frame of a page moves, and its guest frame maps to its new place. -/
def State.swapFrame (s : State) (tb : Translation) (slot : Nat) (host : Bool) (guest old new : Nat) : State :=
  ((s.moveFrame slot host old new).splitBlock tb (guest / 2 ^ 16)).mapFrame tb (guest / 2 ^ 16) new

/-- The present pages that an operation names move into an extent; an absent page has nothing to move. -/
def State.swapPages (s : State) (p o off n ext : Nat) : State :=
  let tb := s.tbOf p
  match s.objEntry tb o with
  | .at e =>
    let ps := (s.pageRefs tb e off n).filter (fun x => x.2.bits.getLsbD 0)
    let s1 := ps.foldl (fun s x => x.2.frames.foldl (fun s f =>
      s.swapFrame tb e.keyslot (decide (e.place = plHost)) (field x.2.bits 16 36 * 2 ^ 16 + f.1 * 2 ^ 16) f.2 (ext + x.1 * e.pageBytes + f.1 * 2 ^ 16)) s) s
    (s1.dropPages p o off (n * e.pageBytes) (ps.flatMap (fun x => x.2.frames.map (·.2)))).retryAll p
  | _ => (s.dropPages p o 0 (2 ^ 40) []).retryAll p

/-! ### keyrev (R243, R262) -/

/-- A vault sector tagged with a slot is zeroed. -/
def State.zeroSector (s : State) (i : Nat) : State :=
  { s with mem := Tab.clear s.mem (32 * i) 32, mtags := Tab.clear s.mtags (2 * i) 2,
           sectors := Tab.set Sector.clean s.sectors i { Tab.get Sector.clean s.sectors i with slot := none } }

/-- The vault lines tagged with the slot, as it is loaded now, are zeroed, no line of an L2 slice that it tags is left, and the slot is revoked. What an earlier key
of the slot tags stays (R261). -/
def State.killKey (s : State) (k : Nat) : State :=
  let tagged := s.sectors.filter (fun e => decide (e.2.slot = some (k, (s.keySlot k).gen)))
  let s1 := ((tagged.filter (fun e => !Config.isGddr (32 * e.1))).map (·.1)).foldl State.zeroSector s
  { s1 with keys := Tab.put s1.keys k { s1.keySlot k with revoked := true }, unpub := s1.unpub.filter (fun u => !tagged.any (fun e => u.loc.inSector e.1)) }

/-- The `tsum` operations of a partition that read or write an object through a key slot (R262). -/
def State.tsumsKey (s : State) (p k : Nat) : List Nat :=
  let uses (c : Cap) : Bool := decide (c.kind = kMem) && (match s.objEntry (s.tbOf p) c.obj with
    | .at e => decide (e.keyslot = k)
    | _ => false)
  (s.copies.filter (fun e => decide (e.2.part = p) && (match e.2.entry with
    | none => false
    | some t => uses t.data || uses t.summary || e.2.dsts.any (fun d => !d.1.isTeam && decide (d.2 = k))))).map (·.1)

/-! ### Switching contexts (R292, R296) -/

/-- A team that leaves the machine with its context: its HELD claims become DORMANT (R117); of a stopped context only its service teams' still are. -/
def Team.asleep (t : Team) : Team := { t with claims := t.claims.map (fun (k : Nat × Claim) => (k.1, if k.2.state = 1 then { k.2 with state := 2 } else k.2)) }

/-- The partition's context leaves it; what belongs to it is saved with it, the teams of its guest's supervisor too (R249). -/
def State.shelve (s : State) (p : Nat) : State :=
  match s.ctxOf p, s.part? p with
  | some a, some x =>
    let gs := s.groups.filter (fun e => decide (e.2.part = p ∧ e.2.level ≠ .h))
    let has (u : Nat) : Bool := gs.any (fun e => decide (e.1 = u))
    let mineT (e : Nat × Team) : Bool := decide (e.2.part = p ∧ e.2.level ≠ .h)
    let sv : Saved := { teams := (s.teams.filter mineT).map (fun e => (e.1, e.2.asleep)), groups := gs, mats := s.mats.filter (fun e => has e.2.group), latch := s.latch.filter (fun w => has w.group),
                        softOut := x.softOut, softQ := x.softQ, resid := x.resid, declined := x.declined, promoted := x.promoted, events := x.events }
    let s1 := { s with saved := Tab.put s.saved a sv, teams := s.teams.filter (fun e => !mineT e), groups := s.groups.filter (fun e => !has e.1),
                       mats := s.mats.filter (fun e => !has e.2.group), latch := s.latch.filter (fun w => !has w.group) }
    s1.onPart p (fun x => { x with ctx := none, softOut := [], softQ := [], resid := [], declined := [], promoted := [], events := [] })
  | _, _ => s

/-- The teams of a saved context that need a place: each with its number, its launch, and the groups that have not retired, with their register bytes. -/
def State.seatless (s : State) (sv : Saved) : List (Nat × Team × Launch × List (Nat × Nat)) :=
  (sv.teams.filter (fun e => !e.2.retired && decide (e.2.level = .u))).filterMap (fun e => (s.launch? e.2.launch).map (fun l =>
    (e.1, e.2, l, (sv.groups.filter (fun g => decide (g.2.team = e.1) && !g.2.retired)).map (fun g => (g.1, l.groupBytes ⟨g.2.role, g.2.width, 1, g.2.budget⟩)))))

/-- A core with one more team, of whose groups some have retired. -/
def CoreLoad.addRest (x : CoreLoad) (l : Launch) (t : Nat) (bytes : List Nat) : Option (List Nat × CoreLoad) :=
  (x.addTeam { l with record := setField l.record 192 128 0 } t).bind (fun r =>
    (packGroups bytes x.slots).map (fun (q : List Nat × List (Nat × Nat)) => (q.1, { r.2 with slots := q.2 })))

/-- Places for the teams of a saved context: the core of each, and the slots of its groups, as R290 places teams. The search is exhaustive. -/
def reseat (cores : List Nat) : List (Nat × Team × Launch × List (Nat × Nat)) → List (Nat × Nat × Nat) → Tab CoreLoad → Option (List (Nat × Nat × List (Nat × Nat)))
  | [], _, _ => some []
  | (t, x, l, gs) :: ts, chosen, loads => cores.findSome? (fun c =>
      if l.spanOk ((chosen.filter (fun e => decide (e.1 = x.launch))).map (·.2)) x.tid c then
        match (Tab.get CoreLoad.empty loads c).addRest l x.tid (gs.map (·.2)) with
        | none => none
        | some (ss, y) => (reseat cores ts (chosen ++ [(x.launch, x.tid, c)]) (Tab.put loads c y)).map ((t, c, (gs.map (·.1)).zip ss) :: ·)
      else none)

/-- Places in partition p for what is saved of a context (R296): any cores and slots that fit. -/
def State.places (s : State) (p a : Nat) : Option (List (Nat × Nat × List (Nat × Nat))) :=
  match Tab.find s.saved a, s.part? p with
  | none, _ => some []
  | some sv, some x => reseat (Part.kernels p x) (s.seatless sv) [] (s.loads p (Part.kernels p x))
  | _, _ => none

/-- What is saved of a context stands in partition p again, in these places, where its groups become resident now (R23); so do its engine writes. -/
def State.unshelve (s : State) (p a : Nat) (ps : List (Nat × Nat × List (Nat × Nat))) : State :=
  match Tab.find s.saved a with
  | none => s
  | some sv =>
    let service (t : Nat) : Bool := ((Tab.find sv.teams t).map (fun x => decide (x.level ≠ .u))).getD false
    let core (t c : Nat) : Nat := if service t then ((s.part? p).map (fun x => Part.serviceCore p x c)).getD c else ((ps.find? (fun e => decide (e.1 = t))).map (·.2.1)).getD c
    let slot (t u n : Nat) : Nat := (((ps.find? (fun e => decide (e.1 = t))).bind (fun e => e.2.2.find? (fun q => decide (q.1 = u)))).map (·.2)).getD n
    let teamOf (u : Nat) : Nat := ((Tab.find sv.groups u).map (·.team)).getD 0
    let team (e : Nat × Team) : Team := { e.2 with part := p, core := core e.1 e.2.core }
    let group (e : Nat × Group) : Group := { e.2 with part := p, core := core e.2.team e.2.core, slot := slot e.2.team e.1 e.2.slot, born := s.aclk }
    let mat (m : MatOp) : MatOp := { m with part := p, core := core m.team m.core }
    let write (u : Unpub) : Unpub := if (Tab.find sv.teams u.team).isSome then { u with part := p, core := core u.team u.core } else u
    let s1 := { s with
      saved := Tab.del s.saved a
      teams := sv.teams.foldl (fun t (e : Nat × Team) => Tab.put t e.1 (team e)) s.teams
      groups := sv.groups.foldl (fun t (e : Nat × Group) => Tab.put t e.1 (group e)) s.groups
      mats := sv.mats.foldl (fun t (e : Nat × MatOp) => Tab.put t e.1 (mat e.2)) s.mats
      latch := s.latch ++ sv.latch.map (fun (w : Waiter) => { w with cluster := core (teamOf w.group) (8 * w.cluster) / 8 })
      unpub := s.unpub.map write
      launches := s.launches.map (fun (e : Nat × Launch) => (e.1, if e.2.ctx = a then { e.2 with part := p } else e.2)) }
    s1.onPart p (fun x => { x with softOut := sv.softOut, softQ := sv.softQ, resid := sv.resid, declined := sv.declined, promoted := sv.promoted, events := sv.events })

/-- The block that a resume names; 0: none. -/
def blockOf (sa : W64) : Nat := sa.toNat / 4096 * 4096

/-- Is the block at an address EMPTY or STOPPED (R292)? -/
def State.blockFree (s : State) (a : Nat) : Bool :=
  match s.ctx? a with
  | some c => decide (c.state = .stopped ∨ c.state = .empty)
  | none => decide (s.devNat (a + 97) 1 % 16 = 0)

/-- R292: does a resume that names a block raise ILLEGAL_OPERAND? The H partition takes no context (R249, log entry 121). -/
def State.blockBad (s : State) (p : Nat) (sa : W64) : Bool :=
  let a := blockOf sa
  decide (a ≠ 0) && (((s.part? p).map (·.hpart)).getD false || !Config.isDevice a || !s.blockFree a ||
    (match s.context? p with
      | none => false
      | some c => !decide (c.state = .stopped ∨ c.state = .halted)))

/-- The context that starts from an EMPTY block: no kernel teams, its streams as the block holds them. -/
def State.newContext (s : State) (p a : Nat) : Context :=
  { Context.base (s.readTb a) with part := p, state := .stopped, streams := s.readStreams a }

/-- The rounds that the teams of a partition's supervisor are in withdraw (R128). -/
def State.withdrawS (s : State) (p : Nat) : State :=
  s.withdraw (s.dom p) (fun t => (s.teams.filter (fun e => decide (e.2.part = p ∧ e.2.level = Level.s))).any (fun e => decide (e.1 = t)))

/-- The teams of a supervisor whose context has been killed end: another context starts in the partition (R249, log entry 8). -/
def State.endS (s : State) (p : Nat) : State :=
  let s1 := s.withdrawS p
  let gs := s1.groups.filter (fun e => decide (e.2.part = p ∧ e.2.level = .s))
  let has (u : Nat) : Bool := gs.any (fun e => decide (e.1 = u))
  { s1 with teams := s1.teams.filter (fun e => !decide (e.2.part = p ∧ e.2.level = Level.s)), groups := s1.groups.filter (fun e => !has e.1),
            mats := s1.mats.filter (fun e => !has e.2.group), latch := s1.latch.filter (fun w => !has w.group) }

/-- The named block becomes the partition's context. -/
def State.takeBlock (s : State) (p a : Nat) : State :=
  let s0 := (s.parts.filter (fun e => decide (e.2.ctx = some a ∨ e.1 = p))).foldl (fun s e => s.shelve e.1) s
  let s1 := s0.endS p
  let s2 := if (s1.ctx? a).isSome then s1 else s1.putCtx a (s1.newContext p a)
  (s2.onPart p (fun x => { x with ctx := some a })).dropLines p (fun _ => true)

/-- A resume begins: the block it names is taken; until the interface is in RUN the context stands STOPPED (R321). -/
def State.beginResume (s : State) (p : Nat) (sa : W64) : State :=
  let a := blockOf sa
  let s1 := if a = 0 ∨ s.ctxOf p = some a then s else s.takeBlock p a
  if s1.secure p then s1 else (s1.onContext p (fun c => if c.state = .halted then { c with state := .stopped } else c)).syncPart p

/-- A context starts: the partition's configuration creates the teams of its supervisor (R249), unless they came with it. -/
def State.sowS (s : State) (p : Nat) : State :=
  if s.teams.any (fun e => decide (e.2.part = p ∧ e.2.level = .s)) then s else s.sowOn p .s

/-- A resume ends: the translation block is read anew (R269), and the context runs; the partition's stopped S and H teams are retried (R308). -/
def State.endResume (s : State) (p : Nat) : State :=
  match s.ctxOf p, s.context? p with
  | some a, some c =>
    if c.state = .running then s.retryService p
    else
      let tb := s.readTb a
      let s1 := if tb = c.tb then s else s.dropLines p (fun _ => true)
      let s2 := ((s1.unshelve p a ((s1.places p a).getD [])).sowS p).onPart p (fun x => { x with tb := tb })
      (((s2.onContext p (fun c => { c with part := p, tb := tb })).resumeContext p).retryService p).retryAll p
  | _, _ => s.retryService p

/-! ### ctxkill (R244, R296, R318) -/

/-- The launches of a partition's context. -/
def State.launchIds (s : State) (p : Nat) : List Nat :=
  match s.ctxOf p with
  | none => []
  | some a => (s.running a).map (·.1)

/-- The kill begins: nothing of the context issues any more; its accepted flows go on to their end. -/
def State.beginKill (s : State) (p : Nat) : State × List Nat :=
  let us := s.launchIds p
  let ops := (s.copies.filter (fun e => us.contains e.2.launch)).map (·.1)
  ((us.foldl State.discardLaunch s).onContext p (fun c => { c with state := .stopped }), ops)

/-- Engine writes of the context that no publication point covered, those on their way to the host or to peers among them, are undefined from here on, until they are
written again; what the context posted before does not end that (R318). -/
def State.undefineWrites (s : State) (c : Context) : State :=
  let teams := c.streams.flatMap (·.2.past)
  let hit (u : Unpub) : Bool := u.ended && u.dead.isNone && teams.contains u.team && u.pubs.all (fun e => decide (e.1 < 1))
  { s with unpub := s.unpub.map (fun (u : Unpub) => if hit u then { u with dead := some (s.place + 1) } else u), place := s.place + 1,
           posted := s.posted.map (fun (q : Posted) => if teams.contains q.team then { q with stale := true } else q) }

/-- The records of the launches that a kill ends. -/
def State.killLaunches (s : State) (p : Nat) : State :=
  let ready := ((s.context? p).map (·.ready)).getD []
  let s1 := (s.launchIds p).foldl (fun s u => match s.launch? u with
    | none => s
    | some l => ({ s.dropSnaps u with launches := Tab.del s.launches u }).launchEnd l stKilled 0) (s.onContext p (fun c => { c with ready := [] }))
  ready.foldl (fun s r => s.launchEnd { Launch.base with part := p, stream := r.stream, tag := r.tag, complete := r.complete, type := r.type } stKilled 0) s1

/-- The records of the context's streams that are due are written, where there is room. -/
def State.flushAll (s : State) (p : Nat) : State := (List.range 64).foldl (fun s n => s.flushStream p n) s

/-- Has every record of the context's streams been written? -/
def State.flushed (s : State) (p : Nat) : Bool := ((s.context? p).map (fun c => c.streams.all (fun e => e.2.due.isEmpty))).getD true

/-- A kill goes on: once the accepted flows have ended, the unfinished launches end KILLED, and their records are written. -/
def State.killStep (s : State) (m : MgmtOp) : State := if s.allEnded m.waits then (s.killLaunches m.part).flushAll m.part else s

/-- The context is gone: every frame returns unread, its block reads EMPTY. Its supervisor's teams, which are never stopped (R293), go on until another context
starts (log entry 8), but owe its rounds nothing any more. -/
def State.dropContext (s : State) (p : Nat) : State :=
  match s.ctxOf p, s.context? p with
  | some a, some c =>
    let fs := c.chain.map (·.1)
    let s1 := ((s.withdrawS p).onCtx a (fun c => { c with state := .empty, chain := [] })).syncBlock a
    let s2 := s1.onPart p (fun x => { x with ctx := none, frames := x.frames ++ fs, starved := x.starved && fs.isEmpty, softOut := [], softQ := [], resid := [], declined := [],
                                             promoted := [], events := [] })
    ({ s2 with ctxs := Tab.del s2.ctxs a, saved := Tab.del s2.saved a, lives := Tab.set 0 s2.lives a (Tab.get 0 s2.lives a + 1) }).dropLines p (fun _ => true)
  | _, _ => s

/-- The kill ends. -/
def State.endKill (s : State) (p : Nat) : State :=
  match s.context? p with
  | none => s
  | some c => (s.undefineWrites c).dropContext p

/-! ### Partition reset (R322) -/

/-- n bytes of device memory read zero, untagged, with no engine write on them. -/
def State.zeroBytes (s : State) (a n : Nat) : State :=
  let inside (l : Loc) : Bool := match l with
    | .dev m => decide (a ≤ m ∧ m < a + n)
    | _ => false
  { s with mem := Tab.clear s.mem a n, mtags := Tab.clear s.mtags (a / 16) (n / 16), unpub := s.unpub.filter (fun u => !inside u.loc) }

/-- Step 5: the vaults and pinned lines of the partition's units read zero; the errors found in a vault stay counted, as this is no cold reset (R313). -/
def State.zeroUnits (s : State) (p : Nat) (x : Part) : State :=
  let fresh (a n : Nat) (e : Nat × Sector) : Nat × Sector := (e.1, if a / 32 ≤ e.1 ∧ e.1 < (a + n) / 32 then { e.2 with slot := none, unc := false } else e.2)
  let wipe (s : State) (a n : Nat) : State := { s.zeroBytes a n with sectors := (s.sectors.map (fresh a n)).filter (fun e => decide (e.2 ≠ Sector.clean)) }
  let s1 := (List.range (2 * x.units)).foldl (fun s i => wipe s (Config.vaultBase (2 * p + i)) Config.vaultBytes) s
  let mine (a : Nat) : Bool := match Config.unitOf a with
    | none => false
    | some u => decide (p ≤ u ∧ u < p + x.units)
  (s.pins.filter (fun e => mine (32 * e.1))).foldl (fun s e => s.zeroBytes (32 * e.1 / 128 * 128) 128) s1

/-- Step 6: the partition's key slots are unassigned. -/
def State.freeKeys (s : State) (p : Nat) : State :=
  { s with keys := s.keys.map (fun (e : Nat × KeySlot) => (e.1, if e.2.part = some p then { e.2 with part := none, key := 0 } else e.2)) }

/-- The VF's registers at their reset values; the frames, ports and security state stay. -/
def Part.fresh (x : Part) : Part :=
  { x with
    tb := Translation.zero, events := [], wintab := 0, winStat := 0, winIdx := 0, dbgStat := 0, dbgLanes := 0, trBase := 0, trLog2 := 0, trLost := 0, trProd := 0, trCons := 0,
    sampctl := 0, lfsr := 0, sampNext := 0, pktver := 0, lrver := 0, softOut := [], softQ := [], hotQ := [], resid := [], declined := [], promoted := [], hot := [],
    atomrec := [], resetting := false }

/-- The steps of a reset after the halt and the end of the flows. A KILLED record that finds no room is not waited for (log entry 59). -/
def State.resetPart (s : State) (p : Nat) : State :=
  match s.part? p with
  | none => s
  | some x =>
    let s1 := s.withdraw (s.dom p) (fun t => (s.teams.filter (fun e => decide (e.2.part = p))).any (fun e => decide (e.1 = t)))
    let s2 := (((s1.launchIds p).foldl State.discardLaunch s1).killLaunches p).endKill p
    let s3 := { s2 with teams := s2.teams.filter (fun e => decide (e.2.part ≠ p)), groups := s2.groups.filter (fun e => decide (e.2.part ≠ p)) }
    ((s3.zeroUnits p x).freeKeys p).onPart p Part.fresh

/-- The halt of a reset: the context halts with PARTITION_RESET, and H is told (R322). -/
def State.resetHalt (s : State) (p : Nat) : State :=
  match s.context? p with
  | none => s
  | some c =>
    let s1 := s.haltPart p fcReset
    if c.state = .running ∨ c.state = .stopping then s1 else (s1.onContext p (fun c => { c with state := .halted, cause := BitVec.ofNat 8 fcReset })).syncPart p

/-! ### An operation from its start to its end (R238) -/

/-- Is the management unit of a partition busy, so that a later operation waits? -/
def State.opBusy (s : State) (p : Nat) : Bool := s.mgmtOps.any (fun m => decide (m.part = p)) || s.resetting p

/-- The start of an operation: its state, and the engine operations that it waits for. -/
def State.opStart (s : State) (m : MgmtOp) : State × List Nat :=
  let p := m.part
  let pages : Nat := match s.objEntry (s.tbOf p) (opObj m.sa) with
    | .at e => e.pageBytes
    | _ => 0
  let cause := match m.owner with
    | .resid _ => 4
    | _ => if m.kind = mkInv then 1 else 2
  if m.kind = mkInv then s.revokeRange p (opObj m.sa) (opOff m.sb) (opCount m.sb * pages) cause
  else if m.kind = mkSwap then
    let r := s.revokeRange p (opObj m.sa) (opOff m.sb) (opCount m.sb * pages) cause
    (r.1.dropRange p (opObj m.sa) (opOff m.sb) (opCount m.sb * pages), r.2)
  else if m.kind = mkRev then
    let hit (c : Claim) : Bool := c.usesKey (field m.sa 0 6)
    let s1 := (s.revoke p hit 3).revokeSaved p hit 3 3
    (s1, s1.opsOn p hit ++ s1.tsumsKey p (field m.sa 0 6))
  else if m.kind = mkStop then (s.beginStop p, [])
  else if m.kind = mkResume then (s.beginResume p m.sa, [])
  else if m.kind = mkKill then s.beginKill p
  else (s, [])

/-- R309: does the marking of the pages that an `otinv` names wait for save frames? -/
def State.invShort (s : State) (m : MgmtOp) : Bool :=
  decide (m.kind = mkInv) && (match s.objEntry (s.tbOf m.part) (opObj m.sa) with
    | .at e => (s.snapShort ((s.pageRefs (s.tbOf m.part) e (opOff m.sb) (opCount m.sb)).flatMap (fun x => (List.range 8).map (fun i => Loc.dev (x.2.entry + i))))).isSome
    | _ => false)

/-- May the operation end? -/
def State.opReady (s : State) (m : MgmtOp) : Bool :=
  s.allEnded m.waits && !s.invShort m &&
  (match s.context? m.part with
    | none => true
    | some c =>
      if m.kind = mkStop then decide (c.state ≠ .stopping)
      else if m.kind = mkResume then decide (c.state = .running) || (s.secure m.part && (match s.ctxOf m.part with
        | none => true
        | some a => (s.places m.part a).isSome))
      else if m.kind = mkKill then (s.launchIds m.part).isEmpty && c.ready.isEmpty && s.flushed m.part
      else true)

/-- The end of an operation. -/
def State.opEnd (s : State) (m : MgmtOp) : State :=
  let p := m.part
  if m.kind = mkInv then s.unmapPages p (opObj m.sa) (opOff m.sb) (opCount m.sb)
  else if m.kind = mkSwap then s.swapPages p (opObj m.sa) (opOff m.sb) (opCount m.sb) m.sc.toNat
  else if m.kind = mkRev then s.killKey (field m.sa 0 6)
  else if m.kind = mkResume then s.endResume p
  else if m.kind = mkKill then s.endKill p
  else s

/-- One attempt at an operation: ended, under way, or not yet accepted. -/
inductive Tried where
  | ended (s : State)
  | going (s : State)
  | busy

/-- An operation goes on by what it can do. -/
def State.opGo (s : State) (m : MgmtOp) : State := if m.kind = mkKill then s.killStep m else s

def State.tryOp (s : State) (m : MgmtOp) : Tried :=
  match s.mgmtOps.find? (fun x => decide (x.owner = m.owner)) with
  | some x =>
    let s1 := s.opGo x
    if s1.opReady x then .ended ({ s1 with mgmtOps := s1.mgmtOps.filter (fun y => decide (y.owner ≠ x.owner)) }.opEnd x) else .going s1
  | none =>
    if s.opBusy m.part then .busy
    else
      let (s1, ws) := s.opStart m
      let x := { m with waits := ws }
      let s2 := s1.opGo x
      if s2.opReady x then .ended (s2.opEnd x) else .going { s2 with mgmtOps := s2.mgmtOps ++ [x] }

/-! ### The instructions (R238, R241 to R244) -/

/-- Has the group an operation under way? -/
def State.hasOp (s : State) (o : Owner) : Bool := s.mgmtOps.any (fun m => decide (m.owner = o))

/-- An operation of a group: the word waits until it has ended. -/
def instrOp (s : State) (c : Ctx) (m : MgmtOp) : Res :=
  match s.tryOp { m with owner := .group c.uid } with
  | .ended s1 => .done s1
  | .going s1 => .wait s1
  | .busy => .wait s

/-- R241: the checks of `otinv`. -/
def State.invBad (s : State) (sa sb : W64) : Bool :=
  decide (field sa 36 28 ≠ 0) || (s.part? (opPart sa)).isNone ||
  (match s.objEntry (s.tbOf (opPart sa)) (opObj sa) with
    | .at e => e.rangeBad (opOff sb) (opCount sb)
    | _ => true)

/-- R242: and of the extent, the machine address of the new pages. -/
def State.swapBad (s : State) (sa sb sc : W64) : Bool :=
  s.invBad sa sb ||
  (match s.objEntry (s.tbOf (opPart sa)) (opObj sa) with
    | .at e => decide (sc.toNat % e.pageBytes ≠ 0 ∨ 2 ^ 52 < sc.toNat + opCount sb * e.pageBytes)
    | _ => true)

/-- R241. -/
def execOtinv (a b : F7) (s : State) : Host.Outcome State Fault Refusal :=
  wordOf (shOtinv a b) s fun s c =>
    let sa := c.regs.rs a.toNat
    let sb := c.regs.rs b.toNat
    if !s.hasOp (.group c.uid) && s.invBad sa sb then .hard s (Hard.plain fcIllOp)
    else instrOp s c ⟨opPart sa, mkInv, sa, sb, 0, .host, []⟩

/-- R242. -/
def execOtswap (a b : F7) (s : State) : Host.Outcome State Fault Refusal :=
  wordOf (shOtswap a b) s fun s c =>
    let sa := c.regs.rs a.toNat
    let sb := c.regs.rs b.toNat
    let sc := c.regs.rs (b.toNat + 1)
    if !s.hasOp (.group c.uid) && s.swapBad sa sb sc then .hard s (Hard.plain fcIllOp)
    else instrOp s c ⟨opPart sa, mkSwap, sa, sb, sc, .host, []⟩

/-- The partition that holds a key slot; 16 where none does. -/
def State.keyPart (s : State) (k : Nat) : Nat := (s.keySlot k).part.getD 16

/-- R243. -/
def execKeyrev (a : F7) (s : State) : Host.Outcome State Fault Refusal :=
  wordOf (shKeyrev a) s fun s c =>
    let sa := c.regs.rs a.toNat
    if field sa 6 58 ≠ 0 then .hard s (Hard.plain fcIllOp) else instrOp s c ⟨s.keyPart (field sa 0 6), mkRev, sa, 0, 0, .host, []⟩

/-- Is a context operand one that names no existing partition, or has other bits (R238)? -/
def State.ctxBad (s : State) (sa : W64) : Bool := decide (field sa 4 60 ≠ 0) || (s.part? (operPart sa)).isNone

/-- R244: retires once every engine has acknowledged; at once on a context that does not run. -/
def execCtxstop (a : F7) (s : State) : Host.Outcome State Fault Refusal :=
  wordOf (shCtxstop a) s fun s c =>
    let sa := c.regs.rs a.toNat
    if s.ctxBad sa then .hard s (Hard.plain fcIllOp) else instrOp s c ⟨operPart sa, mkStop, sa, 0, 0, .host, []⟩

/-- R244, R296. -/
def execCtxkill (a : F7) (s : State) : Host.Outcome State Fault Refusal :=
  wordOf (shCtxkill a) s fun s c =>
    let sa := c.regs.rs a.toNat
    if s.ctxBad sa then .hard s (Hard.plain fcIllOp) else instrOp s c ⟨operPart sa, mkKill, sa, 0, 0, .host, []⟩

/-- Is the context of a partition stopping: a resume then waits (R244)? -/
def State.ctxStopping (s : State) (p : Nat) : Bool := ((s.context? p).map (fun c => decide (c.state = .stopping))).getD false

/-- A resume without effect: no context, or one that runs already, and no stopped S or H team to retry (R308). -/
def State.resumeIdle (s : State) (p : Nat) (sa : W64) : Bool :=
  decide (blockOf sa = 0) && !s.teams.any (fun e => decide (e.2.part = p ∧ e.2.level ≠ .u) && e.2.stopped) && (match s.context? p with
    | none => true
    | some c => decide (c.state = .running))

/-- R244, R292, R296: level S for its own partition and without a block. -/
def execCtxresume (a : F7) (s : State) : Host.Outcome State Fault Refusal :=
  wordOf (shCtxresume a) s fun s c =>
    let sa := c.regs.rs a.toNat
    let p := operPart sa
    let own := s.hasOp (.group c.uid)
    if c.g.level = .s ∧ p ≠ c.g.part then .hard s (Hard.plain fcPriv)
    else if field sa 4 8 ≠ 0 ∨ (s.part? p).isNone then .hard s (Hard.plain fcIllOp)
    else if c.g.level = .s ∧ blockOf sa ≠ 0 then .hard s (Hard.plain fcIllOp)
    else if own = false ∧ (s.opBusy p ∨ s.ctxStopping p) then .wait s
    else if own = false ∧ s.blockBad p sa then .hard s (Hard.plain fcIllOp)
    else if own = false ∧ s.resumeIdle p sa then .done s
    else instrOp s c ⟨p, mkResume, sa, 0, 0, .host, []⟩

end Sys2Proof.Machine
end

