-- ==== Sys2Proof/Machine/Packets.lean ====
section
/-! DEFINITION. The management stream (spec/18_streams_launch_preemption.md R280, R283 to R285, R350; spec/16_system_architecture.md R251 to R254, R261;
spec/22_host_and_links.md R322; spec/25_bringup_power_package.md R343): its ring, which packets may start, their completion, and the packets. -/

namespace Sys2Proof.Machine

/-! ### The ring (R258: machine addresses) -/

/-- The quadword at a position of the management ring. -/
def State.mgmtWord (s : State) (i : W64) : W64 :=
  s.dev64 (s.pf.mgmt.ringBase.toNat + 8 * (i.toNat % 2 ^ s.pf.mgmt.ringLog2.toNat))

/-- The length that a management type requires, given its first body quadword (R283, R284). -/
def mgmtLen (t : Nat) (q1 : W64) : Option Nat :=
  if t = tyCtxstop ∨ t = tyCtxresume ∨ t = tyCtxkill ∨ t = tyKeyrev then some 2
  else if t = tyOtinv then some 3
  else if t = tyOtswap then some 4
  else if t = tyFrames then some (q1.toNat + 2)
  else if t = tyPartcfg then some (if field q1 0 8 = 2 then 11 else 3)
  else none

/-- The header check (R350, reason 14), given the first body quadword. -/
def mgmtHeaderBad (h q1 : W64) : Bool := decide (mgmtLen (hType h) q1 ≠ some (hLen h)) || decide (field h 9 7 ≠ 0)

/-- Does the header alone decide the check: no body quadword bears on the length? -/
def mgmtHeaderAlone (h : W64) : Bool := decide (hType h ≠ tyFrames ∧ hType h ≠ tyPartcfg) || decide (hLen h < 2) || decide (field h 9 7 ≠ 0)

/-- A packet as it stands in the ring: its position, the quadwords that HEAD passes, whether its header is bad, its quadwords. -/
structure MgmtAt where
  pos   : W64
  len   : Nat
  bad   : Bool
  words : List W64
  deriving DecidableEq, Repr

/-- The packet at a position, once software has written it whole. -/
def State.mgmtAt (s : State) (pos : W64) : Option MgmtAt :=
  let avail := (s.pf.mgmt.tail - pos).toNat
  let h := s.mgmtWord pos
  let bad : MgmtAt := ⟨pos, min avail (max 1 (hLen h)), true, [h]⟩
  if avail = 0 then none
  else if mgmtHeaderAlone h && mgmtHeaderBad h 0 then some bad
  else if avail < hLen h then none
  else if mgmtHeaderBad h (s.mgmtWord (pos + 1)) then some bad
  else some ⟨pos, hLen h, false, (List.range (hLen h)).map (fun i => s.mgmtWord (pos + BitVec.ofNat 64 i))⟩

/-- The packets from a position to TAIL. -/
def State.mgmtScan (s : State) : Nat → W64 → List MgmtAt
  | 0, _ => []
  | n + 1, pos =>
    match s.mgmtAt pos with
    | none => []
    | some m => m :: State.mgmtScan s n (pos + BitVec.ofNat 64 m.len)

/-- The packets of the ring. -/
def State.mgmtRing (s : State) : List MgmtAt := s.mgmtScan s.pf.mgmt.avail s.pf.mgmt.head

/-- Has a packet completed, that HEAD has not passed? -/
def State.pktDone (s : State) (pos : W64) : Bool := s.pf.pkts.any (fun k => decide (k.pos = pos) && k.done)

/-! ### The fields of PARTCFG (R284) -/

def cfgOp (q1 : W64) : Nat := field q1 0 8
def cfgPart (q1 : W64) : Nat := field q1 8 4
def cfgLog2n (q1 : W64) : Nat := field q1 12 3
def cfgUnits (q1 : W64) : Nat := 2 ^ cfgLog2n q1
def cfgHpart (q1 : W64) : Bool := q1.getLsbD 15
def cfgSlot (q1 : W64) : Nat := field q1 16 6
def cfgPorts (q1 : W64) : List Nat := (List.range 18).filter (fun n => q1.getLsbD (32 + n))

/-- The units of a partition. -/
def Part.hasUnit (p : Nat) (x : Part) (u : Nat) : Bool := decide (p ≤ u ∧ u < p + x.units)

/-- The partitions that a CREATE's units or ports belong to. -/
def State.cfgMeets (s : State) (q1 : W64) : List Nat :=
  (s.parts.filter (fun e => (List.range (cfgUnits q1)).any (fun i => Part.hasUnit e.1 e.2 (cfgPart q1 + i)) ||
    (cfgPorts q1).any (fun n => e.2.ports.contains n))).map (·.1)

/-! ### Which packets may start (R280) -/

/-- The partitions that a packet names; none for one whose header is bad. -/
def State.pktNames (s : State) (m : MgmtAt) : List Nat :=
  let t := hType (m.words.headD 0)
  let q (i : Nat) : W64 := m.words.getD i 0
  let held (k : Nat) : List Nat := (s.keySlot k).part.toList
  if m.bad then []
  else if t = tyOtinv ∨ t = tyOtswap then [opPart (q 1)]
  else if t = tyKeyrev then held (field (q 1) 0 6)
  else if t = tyFrames then ((m.words.drop 2).map operPart).eraseDups
  else if t = tyPartcfg then
    (if cfgOp (q 1) = 0 then (List.range (cfgUnits (q 1))).map (cfgPart (q 1) + ·) ++ s.cfgMeets (q 1)
     else if cfgOp (q 1) = 2 then cfgPart (q 1) :: held (cfgSlot (q 1))
     else if cfgOp (q 1) = 3 then held (cfgSlot (q 1))
     else [cfgPart (q 1)])
  else [operPart (q 1)]

/-- May a packet start, given the packets before it that have not completed? -/
def State.pktFree (s : State) (before : List MgmtAt) (m : MgmtAt) : Bool :=
  let ns := s.pktNames m
  if ns.isEmpty then before.isEmpty else before.all (fun b => !(s.pktNames b).any (fun n => ns.contains n))

/-- Do packets that name the partitions wait for a partition reset (R322)? -/
def State.pktHeld (s : State) (m : MgmtAt) : Bool := !s.hasOp (.packet m.pos) && (s.pktNames m).any s.resetting

/-- The packets that may start or are under way, in ring order; at most 64 are under way, and the completion ring has room for another one. -/
def State.pktReady (s : State) : List MgmtAt → List MgmtAt → List MgmtAt
  | _, [] => []
  | before, m :: ms =>
    if s.pktDone m.pos then State.pktReady s before ms
    else
      let on := s.pf.pkts.any (fun k => decide (k.pos = m.pos))
      let fits := on || (decide ((s.pf.pkts.filter (fun k => !k.done)).length < 64) && s.pf.mgmt.room && s.pf.mgmt.due.isEmpty)
      let r := State.pktReady s (before ++ [m]) ms
      if s.pktFree before m && fits && !s.pktHeld m then m :: r else r

/-! ### Completion (R280, R285) -/

/-- HEAD passes the packets at the front of the ring that have completed. -/
def State.pktPass (s : State) : List MgmtAt → State
  | [] => s
  | m :: ms =>
    if s.pktDone m.pos then
      State.pktPass { s with pf := { s.pf with mgmt := { s.pf.mgmt with head := m.pos + BitVec.ofNat 64 m.len }, pkts := s.pf.pkts.filter (fun k => decide (k.pos ≠ m.pos)) } } ms
    else s

/-- A packet is under way. -/
def State.pktMark (s : State) (m : MgmtAt) (done : Bool) : State :=
  let ks := s.pf.pkts.filter (fun k => decide (k.pos ≠ m.pos)) ++ [⟨m.pos, m.words, done⟩]
  { s with pf := { s.pf with pkts := ks, mgmt := { s.pf.mgmt with busy := ks.any (fun k => !k.done) } } }

/-- A packet completes. A rejected one sets ERROR and REASON, and the stream goes on. -/
def State.pktEnd (s : State) (m : MgmtAt) (status reason : Nat) : State :=
  let h := m.words.headD 0
  let ring := s.mgmtRing
  let s1 := s.pktMark m true
  let s2 := if status = stRejected then { s1 with pf := { s1.pf with mgmt := { s1.pf.mgmt with error := true, reason := BitVec.ofNat 8 reason } } } else s1
  let s3 := if status = stDone ∧ hComplete h = false then s2 else s2.mgmtPost (compWord 0xFFFF 0 reason (hTag h) (hType h) status)
  s3.pktPass ring

/-- What an attempt at a packet comes to: it completes with a status and a reason, its operation is under way, or there is nothing to do yet. -/
inductive PRes where
  | done (s : State) (status reason : Nat)
  | going (s : State)
  | idle

/-- A completion DONE; a rejection for a body quadword (reason 15). -/
def PRes.ok (s : State) : PRes := .done s stDone 0
def PRes.bad15 (s : State) : PRes := .done s stRejected 15

/-- The first packet of the list that gets on. -/
def State.pktTry (s : State) (type : Nat) (body : State → MgmtAt → PRes) : List MgmtAt → State
  | [] => s
  | m :: ms =>
    let h := m.words.headD 0
    if !s.pf.ready && (m.bad || decide (hType h = type)) then s.pktEnd m stRefused 0
    else if m.bad then s.pktEnd m stRejected 14
    else if hType h ≠ type then State.pktTry s type body ms
    else if versionBad s.pf.pktver (hVersion h) then s.pktEnd m stRejected 1
    else
      match body s m with
      | .done s1 st r => s1.pktEnd m st r
      | .going s1 => s1.pktMark m false
      | .idle => State.pktTry s type body ms

/-- An event of the management front end: a packet of a type starts or completes. Before READY every packet is refused (R343). -/
def mgmtPacket (type : Nat) (s : State) (body : State → MgmtAt → PRes) : Host.Outcome State Fault Refusal :=
  let s0 := s.mgmtFlush s.pf.mgmt.due
  if s0.pf.mgmt.enable && (s0.clocked || !s0.pf.ready) then .next (s0.pktTry type body (s0.pktReady [] s0.mgmtRing)) else .next s0

/-- Body quadword i, numbered from 1. -/
def MgmtAt.q (m : MgmtAt) (i : Nat) : W64 := m.words.getD i 0

/-- A packet's operation at a management unit: it completes with its end. -/
def opPacket (s : State) (m : MgmtAt) (x : MgmtOp) : PRes :=
  let own := s.hasOp (.packet m.pos)
  match s.tryOp { x with owner := .packet m.pos } with
  | .ended s1 => .ok s1
  | .going s1 => if own then .idle else .going s1
  | .busy => .idle

/-! ### The packets that mirror instructions (R283) -/

/-- CTXSTOP. -/
def execCtxstopPacket (s : State) : Host.Outcome State Fault Refusal :=
  mgmtPacket tyCtxstop s fun s m =>
    if s.ctxBad (m.q 1) then .bad15 s else opPacket s m ⟨operPart (m.q 1), mkStop, m.q 1, 0, 0, .host, []⟩

/-- CTXRESUME. -/
def execCtxresumePacket (s : State) : Host.Outcome State Fault Refusal :=
  mgmtPacket tyCtxresume s fun s m =>
    let sa := m.q 1
    let p := operPart sa
    let own := s.hasOp (.packet m.pos)
    if field sa 4 8 ≠ 0 ∨ (s.part? p).isNone then .bad15 s
    else if own = false ∧ (s.opBusy p ∨ s.ctxStopping p) then .idle
    else if own = false ∧ s.blockBad p sa then .bad15 s
    else if own = false ∧ s.resumeIdle p sa then .ok s
    else opPacket s m ⟨p, mkResume, sa, 0, 0, .host, []⟩

/-- CTXKILL. -/
def execCtxkillPacket (s : State) : Host.Outcome State Fault Refusal :=
  mgmtPacket tyCtxkill s fun s m =>
    if s.ctxBad (m.q 1) then .bad15 s else opPacket s m ⟨operPart (m.q 1), mkKill, m.q 1, 0, 0, .host, []⟩

/-- OTINV. -/
def execOtinvPacket (s : State) : Host.Outcome State Fault Refusal :=
  mgmtPacket tyOtinv s fun s m =>
    if !s.hasOp (.packet m.pos) && s.invBad (m.q 1) (m.q 2) then .bad15 s
    else opPacket s m ⟨opPart (m.q 1), mkInv, m.q 1, m.q 2, 0, .host, []⟩

/-- OTSWAP. -/
def execOtswapPacket (s : State) : Host.Outcome State Fault Refusal :=
  mgmtPacket tyOtswap s fun s m =>
    if !s.hasOp (.packet m.pos) && s.swapBad (m.q 1) (m.q 2) (m.q 3) then .bad15 s
    else opPacket s m ⟨opPart (m.q 1), mkSwap, m.q 1, m.q 2, m.q 3, .host, []⟩

/-- KEYREV. -/
def execKeyrevPacket (s : State) : Host.Outcome State Fault Refusal :=
  mgmtPacket tyKeyrev s fun s m =>
    if field (m.q 1) 6 58 ≠ 0 then .bad15 s else opPacket s m ⟨s.keyPart (field (m.q 1) 0 6), mkRev, m.q 1, 0, 0, .host, []⟩

/-- `frpush` for each of a list of operands, up to the first bad one. -/
def State.pushFrames (s : State) : List W64 → PRes
  | [] => .ok s
  | f :: fs => if s.frameBad f then .bad15 s else State.pushFrames (s.pushFrame f) fs

/-- FRAMES. -/
def execFrames (s : State) : Host.Outcome State Fault Refusal :=
  mgmtPacket tyFrames s fun s m =>
    if (m.q 1).toNat = 0 ∨ 62 < (m.q 1).toNat then .bad15 s else s.pushFrames (m.words.drop 2)

/-! ### PARTCFG (R284) -/

/-- A PARTCFG packet of an OP, its bits checked: an OP past 3, LOG2N past 4, a bit that is named nowhere (reason 15). -/
def cfgPacket (op : Nat) (s : State) (body : State → MgmtAt → PRes) : Host.Outcome State Fault Refusal :=
  mgmtPacket tyPartcfg s fun s m =>
    if 4 ≤ cfgOp (m.q 1) ∨ field (m.q 1) 22 10 ≠ 0 ∨ field (m.q 1) 50 14 ≠ 0 ∨ field (m.q 2) 17 47 ≠ 0 ∨ (cfgOp (m.q 1) = 0 ∧ 4 < cfgLog2n (m.q 1)) then .bad15 s
    else if cfgOp (m.q 1) ≠ op then .idle
    else body s m

/-- A completion REFUSED, with no effect. -/
def PRes.no (s : State) : PRes := .done s stRefused 0

/-- The shares of the STRICT VFs. -/
def State.strictSum (s : State) : Nat := ((s.parts.filter (fun e => !e.2.shared)).map (fun e => e.2.bwshare.toNat)).foldl (· + ·) 0

/-- The partition that CREATE makes: registers at their reset values, TDI in CONFIG_UNLOCKED. -/
def Part.created (q1 q2 : W64) : Part :=
  { units := cfgUnits q1, hpart := cfgHpart q1, ports := cfgPorts q1, bwshare := q2.extractLsb' 0 16, shared := q2.getLsbD 16, frames := [], ctx := none, tb := Translation.zero,
    events := [], wintab := 0, winStat := 0, winIdx := 0, dbgStat := 0, dbgLanes := 0, trBase := 0, trLog2 := 0, trLost := 0, trProd := 0,
    trCons := 0, sampctl := 0, lfsr := 0, sampNext := 0, pktver := 0, lrver := 0, tdi := .configUnlocked, spdm := false, cut := false, atomrec := [],
    softOut := [], softQ := [], hotQ := [], resid := [], declined := [], promoted := [], hot := [], resetting := false, starved := false }

/-- CREATE. It creates the teams of an H partition (R249). -/
def execCreate (s : State) : Host.Outcome State Fault Refusal :=
  cfgPacket 0 s fun s m =>
    let q1 := m.q 1
    let x := Part.created q1 (m.q 2)
    if cfgPart q1 % cfgUnits q1 ≠ 0 ∨ !(s.cfgMeets q1).isEmpty ∨ 65536 < s.strictSum + (if x.shared then 0 else x.bwshare.toNat) ∨
        (x.hpart ∧ s.parts.any (fun e => e.2.hpart)) then .no s
    else
      let s1 := { s with parts := Tab.put s.parts (cfgPart q1) x }
      .ok (if x.hpart then s1.sowOn (cfgPart q1) .h else s1)

/-- A reset of a partition (R322): it waits for the operations accepted before it, for the halt of the context, and for the accepted flows; `sb` is 1
once the halt has begun. -/
def State.tryReset (s : State) (p : Nat) (o : Owner) : Tried :=
  match s.mgmtOps.find? (fun x => decide (x.owner = o ∧ x.part = p ∧ x.kind = mkReset)) with
  | none =>
    if s.resetting p then .busy
    else .going { s.onPart p (fun x => { x with resetting := true }) with mgmtOps := s.mgmtOps ++ [⟨p, mkReset, 0, 0, 0, o, []⟩] }
  | some x =>
    if s.mgmtOps.any (fun y => decide (y.part = p ∧ y.kind ≠ mkReset)) then .busy
    else if x.sb = 0 then
      .going { s.resetHalt p with mgmtOps := s.mgmtOps.map (fun (y : MgmtOp) => if y.kind = mkReset ∧ y.part = p then { y with sb := 1 } else y) }
    else if s.ctxStopping p || s.copies.any (fun e => decide (e.2.part = p)) then .busy
    else .ended ({ s with mgmtOps := s.mgmtOps.filter (fun y => !decide (y.kind = mkReset ∧ y.part = p)) }.resetPart p)

/-- DESTROY: the partition is reset, and is no more. -/
def execDestroy (s : State) : Host.Outcome State Fault Refusal :=
  cfgPacket 1 s fun s m =>
    let p := cfgPart (m.q 1)
    match s.part? p with
    | none => .bad15 s
    | some x =>
      if !s.hasOp (.packet m.pos) && x.ctx.isSome then .no s
      else
        match s.tryReset p (.packet m.pos) with
        | .ended s1 => .ok { s1 with parts := Tab.del s1.parts p }
        | .going s1 => .going s1
        | .busy => .idle

/-- The 512-bit key pair of KEYLOAD, least significant quadword first. -/
def MgmtAt.key (m : MgmtAt) : BitVec 512 := BitVec.ofNat 512 (ofBytes ((m.words.drop 3).flatMap (fun w => toBytes 8 w.toNat)))

/-- KEYLOAD. -/
def execKeyload (s : State) : Host.Outcome State Fault Refusal :=
  cfgPacket 2 s fun s m =>
    let p := cfgPart (m.q 1)
    let k := s.keySlot (cfgSlot (m.q 1))
    if (s.part? p).isNone then .bad15 s
    else if (k.part.isSome ∧ k.part ≠ some p) ∨ 1023 ≤ k.gen then .no s
    else .ok { s with keys := Tab.put s.keys (cfgSlot (m.q 1)) ⟨some p, k.gen + 1, false, m.key⟩ }

/-- Does an object of a partition's running context name a key slot? -/
def State.slotUsed (s : State) (k : Nat) : Bool :=
  match (s.keySlot k).part with
  | none => false
  | some p => s.ctxRuns p && (List.range (s.tbOf p).otCount).any (fun o =>
      match s.objEntry (s.tbOf p) o with
      | .at e => decide (e.keyslot = k)
      | _ => false)

/-- KEYFREE. -/
def execKeyfree (s : State) : Host.Outcome State Fault Refusal :=
  cfgPacket 3 s fun s m =>
    let i := cfgSlot (m.q 1)
    if s.slotUsed i then .no s
    else .ok { s with keys := s.keys.map (fun (e : Nat × KeySlot) => (e.1, if e.1 = i then { e.2 with part := none, key := 0 } else e.2)) }

end Sys2Proof.Machine
end

