-- ==== Sys2Proof/Machine/Service.lean ====
section
/-! DEFINITION. The service queue and what stands behind it (spec/17_translation_and_migration.md R270 to R277; spec/04_memory_capabilities_tensors.md R76;
spec/12_ref_memory_sync_transfer.md R220): posting soft-fault and hotness records, RESOLVE and HOTCLR, the residency manager's moves. -/

namespace Sys2Proof.Machine

/-! ### The queue (R270) -/

/-- PRODUCER, CONSUMER and the size of the service queue of a partition's current context. -/
def State.svcProd (s : State) (p : Nat) : W64 := s.dev64 (s.tbOf p).sqBase
def State.svcCons (s : State) (p : Nat) : W64 := s.dev64 ((s.tbOf p).sqBase + 8)

/-- Has the partition a queue, with room for a record? -/
def State.hasQueue (s : State) (p : Nat) : Bool := decide ((s.tbOf p).sqSize ≠ 0)
def State.svcRoom (s : State) (p : Nat) : Bool := s.hasQueue p && decide ((s.svcProd p - s.svcCons p).toNat < (s.tbOf p).sqSize)

/-- Must the queue's next record wait for save frames (R309)? -/
def State.svcAddr (s : State) (p : Nat) : Nat := (s.tbOf p).sqBase + 64 + 32 * ((s.svcProd p).toNat % (s.tbOf p).sqSize)
def State.svcShort (s : State) (p : Nat) : Bool := (s.snapShort ((List.range 32).map (fun i => Loc.dev (s.svcAddr p + i)) ++ (List.range 8).map (fun i => Loc.dev ((s.tbOf p).sqBase + i)))).isSome

/-- The notice of R295 for it. -/
def State.svcStarve (s : State) (p : Nat) : State := (s.starveAt (s.svcAddr p) 32).starveAt (s.tbOf p).sqBase 8

/-- A record is written at its place, then PRODUCER advances; the addresses are machine addresses. -/
def State.svcPost (s : State) (p : Nat) (r : SvcRec) : State :=
  let n := s.svcProd p
  let a := s.svcAddr p
  ((((s.devPut a r.q0).devPut (a + 8) r.q1).devPut (a + 16) r.q2).devPut (a + 24) s.timebase).devPut (s.tbOf p).sqBase (n + 1)

/-! ### SOFTFAULT (R270, R271) -/

/-- The page of a SOFTFAULT record, as `Soft.page` names it. -/
def SvcRec.page (r : SvcRec) : Nat × Nat := if r.q0.getLsbD 8 then (2 ^ 32, r.q1.toNat / 2 ^ 16) else (field r.q0 32 32, r.q1.toNat)

/-- The groups of a partition that are deferred on a page, saturating. -/
def State.deferred (s : State) (p : Nat) (page : Nat × Nat) : Nat :=
  min 0xFFFF (s.groups.filter (fun e => decide (e.2.part = p ∧ e.2.softOn = some page))).length

/-- Where a SOFTFAULT record goes: a stage-2 record to the queue of the H partition, or without one to the completions of the management stream; the others to the
context's own queue. -/
def State.svcTo (s : State) (p : Nat) (r : SvcRec) : Option Nat := if r.q0.getLsbD 8 then s.hpart.filter s.hasQueue else some p

/-- May the record be posted now? -/
def State.svcOpen (s : State) (p : Nat) (r : SvcRec) : Bool := ((s.svcTo p r).map s.svcRoom).getD true

/-- SOFTFAULT: the oldest record whose queue has room is posted. -/
def execSoftfault (part : Nat) (s : State) : Host.Outcome State Fault Refusal :=
  match s.part? part with
  | none => .next s
  | some x =>
    match x.softQ.find? (s.svcOpen part) with
    | none => .next s
    | some r =>
      let r1 : SvcRec := { r with q0 := r.q0 ||| BitVec.ofNat 64 (s.deferred part r.page * 2 ^ 16) }
      let s1 := s.onPart part (fun x => { x with softQ := x.softQ.erase r })
      match s.svcTo part r with
      | some q => .next (if s.svcShort q then s.svcStarve q else s1.svcPost q r1)
      | none => .next (s1.notice 0 0x18 part)

/-- One hook of a store to the queue is answered. -/
def State.unhook (s : State) (p : Nat) (t : Option W32) : State := { s with hooks := s.hooks.erase (p, t) }

/-- RESOLVE (R271, R272): no posted record is outstanding any more, and every deferred group of the partition retries. -/
def execResolve (part : Nat) (s : State) : Host.Outcome State Fault Refusal :=
  .next (((s.unhook part none).onPart part (fun x => { x with softOut := x.softQ.map SvcRec.page })).retryAll part)

/-! ### HOTNESS (R277) -/

/-- The objects and offsets at which the partition's tables have a 64 KiB block. -/
def State.blockNames (s : State) (p block : Nat) : List (Nat × Nat) :=
  let tb := s.tbOf p
  (List.range tb.otCount).flatMap (fun o =>
    match s.objEntry tb o with
    | .at e =>
      if e.place = plVault ∨ e.place = plFar then
        (List.range ((e.size + e.pageBytes - 1) / e.pageBytes)).flatMap (fun i =>
          ((List.range (e.pageBytes / 2 ^ 16)).filter (fun k => (s.pagePieces tb e i)[k]? = some (some (block * 2 ^ 16)))).map (fun k => (o, i * e.pageBytes + k * 2 ^ 16)))
      else []
    | _ => [])

/-- HOTNESS: the oldest record of a saturated counter is posted once the queue has room. It names the block by an object that has it, one of them where several do;
any, where the tables have it no longer (log entry 13). -/
def execHotness (part : Nat) (s : State) : Host.Outcome State Fault Refusal :=
  match s.part? part with
  | none => .next s
  | some x =>
    match x.hotQ with
    | [] => .next s
    | r :: rs =>
      if !s.svcRoom part then .next s
      else if s.svcShort part then .next (s.svcStarve part)
      else
        let s1 := s.onPart part (fun x => { x with hotQ := rs })
        let names := s.blockNames part r.q1.toNat
        let (f, s2) := s1.fresh (s.dom part)
        let (g, s3) := s2.fresh (s.dom part)
        let (o, off) := names.getD (f.toNat % names.length) (field f 0 32, field g 0 24 * 2 ^ 16)
        .next (s3.svcPost part ⟨BitVec.ofNat 64 (2 + o * 2 ^ 32), BitVec.ofNat 64 off, r.q2⟩)

/-- HOTCLR: the counter of a TOKEN whose generation still matches is zeroed and counts again; the generation names its unit. -/
def execHotclr (part : Nat) (token : W32) (s : State) : Host.Outcome State Fault Refusal :=
  let s1 := s.unhook part (some token)
  .next (s1.onPart part (fun x => { x with hot := x.hot.map (fun (e : Nat × HotCtr) =>
    (e.1, if e.1 % 8192 = token.toNat % 8192 ∧ e.2.gen = token.toNat / 8192 then { e.2 with count := 0, sat := false } else e.2)) }))

/-! ### The residency manager (R76, R220) -/

/-- A page of a tensor's unit: its object, first offset and bytes, and the object's entry address. -/
structure UnitPage where
  obj   : Nat
  off   : Nat
  bytes : Nat
  deriving DecidableEq, Repr

/-- The pages that a window covers. -/
def State.windowPages (s : State) (p : Nat) (c : Cap) : List UnitPage :=
  match s.objEntry (s.tbOf p) c.obj with
  | .at e =>
    let pb := e.pageBytes
    let lo := c.base / pb
    (List.range ((c.base + c.length + pb - 1) / pb - lo)).map (fun i => ⟨c.obj, (lo + i) * pb, pb⟩)
  | _ => []

/-- The unit of a tensor (R76). -/
def State.unitPages (s : State) (p : Nat) (e : TEntry) : List UnitPage := (e.windows.flatMap (s.windowPages p)).eraseDups

/-- Does a machine address range lie where a request sends its unit: in the vault, or in the GDDR7 of the partition's units? -/
def Part.takes (p : Nat) (x : Part) (vault : Option Nat) (a n : Nat) : Bool :=
  match vault with
  | some v => decide (Config.vaultOf a = some v ∧ Config.vaultOf (a + n - 1) = some v)
  | none => Config.isGddr a && Config.isGddr (a + n - 1) && decide (Config.gddrBase p ≤ a ∧ a + n ≤ Config.gddrBase (p + x.units))

/-- Do the extents suit the pages: one aligned extent for each, where the request sends it, none meeting another? -/
def extentsFit (p : Nat) (x : Part) (vault : Option Nat) : List UnitPage → List Nat → Bool
  | [], [] => true
  | u :: us, a :: as =>
    decide (a % u.bytes = 0) && Part.takes p x vault a u.bytes && (us.zip as).all (fun e => decide (a + u.bytes ≤ e.2 ∨ e.2 + e.1.bytes ≤ a)) &&
      extentsFit p x vault us as
  | _, _ => false

/-- The operation that moves one page (R76: an `otswap`). -/
def moveOp (p tid : Nat) (u : UnitPage) (ext : Nat) : MgmtOp :=
  ⟨p, mkSwap, BitVec.ofNat 64 (u.obj + p * 2 ^ 32), BitVec.ofNat 64 (u.off + 2 ^ 40), BitVec.ofNat 64 ext, .resid tid, []⟩

/-- The move begins: the claims over its pages are revoked with cause RESIDENCY, and it waits for their flows. -/
def State.beginMove (s : State) : List MgmtOp → State
  | [] => s
  | m :: ms =>
    let (s1, ws) := s.opStart m
    State.beginMove { s1 with mgmtOps := s1.mgmtOps ++ [{ m with waits := ws }] } ms

/-- An object entry whose pages have left its vault names FAR. -/
def State.replaceEntry (s : State) (p o : Nat) (vault : Option Nat) : State :=
  let tb := s.tbOf p
  match s.objEntry tb o with
  | .at e =>
    if e.place = plVault ∧ vault ≠ some e.vault then
      match s.stage2 tb (tb.otBase + 32 * o) with
      | .at a => (s.guestPut a (setField e.q0 18 3 plFar)).dropLines p (fun l => decide (l.obj = o))
      | _ => s
    else s
  | _ => s

/-- The move ends: its pages stand in their extents. -/
def State.endMove (s : State) (p : Nat) (r : Residency) (ops : List MgmtOp) : State :=
  let s1 := { s with mgmtOps := s.mgmtOps.filter (fun m => !decide (m.owner = Owner.resid r.tid ∧ m.part = p)) }
  let s2 := ops.foldl (fun s m => s.opEnd m) s1
  let s3 := ((ops.map (fun m => opObj m.sa)).eraseDups).foldl (fun s o => s.replaceEntry p o r.vault) s2
  s3.onPart p (fun x =>
    let rest := x.promoted.filter (fun t => decide (t ≠ r.tid))
    { x with resid := x.resid.tail, promoted := if r.vault.isSome then rest ++ [r.tid] else rest })

/-- RESPRIO of a tensor. -/
def State.priority (s : State) (p t : Nat) : Nat := ((s.tensor p t).map (·.resprio)).getD 0

/-- Does a page of a tensor's unit stand in a vault: by its frames, or while it is absent by its object's placement? -/
def State.unitIn (s : State) (p v : Nat) (e : TEntry) : Bool :=
  (s.unitPages p e).any (fun u => match s.objEntry (s.tbOf p) u.obj with
    | .at o => match s.pageFrames (s.tbOf p) o (u.off / o.pageBytes) with
      | [] => decide (o.place = plVault ∧ o.vault = v)
      | fs => fs.any (fun m => decide (Config.vaultOf m = some v))
    | _ => false)

/-- Does some page of a tensor's unit stand in none of the partition's vaults? -/
def State.unitAway (s : State) (p : Nat) (e : TEntry) : Bool :=
  (s.unitPages p e).any (fun u => match s.objEntry (s.tbOf p) u.obj with
    | .at o => match s.pageFrames (s.tbOf p) o (u.off / o.pageBytes) with
      | [] => decide (o.place ≠ plVault)
      | fs => fs.any (fun m => (Config.vaultOf m).isNone)
    | _ => false)

/-- The tensors of a partition's context that its manager may move, by tid. -/
def State.movables (s : State) (p : Nat) (hit : TEntry → Bool) : List Nat :=
  match s.context? p with
  | none => []
  | some c => (c.tids.filter (fun e => s.movable p e.2 && hit e.2)).map (·.1)

/-- The units that stand in a vault, the least recently promoted first: before all those that have never been promoted. -/
def State.inVault (s : State) (p v : Nat) (x : Part) : List Nat :=
  let ts := s.movables p (s.unitIn p v)
  ts.filter (fun t => !x.promoted.contains t) ++ x.promoted.filter (fun t => ts.contains t)

/-- The unit that is demoted first, among those below a priority: the lowest RESPRIO, of equals the least recently promoted. -/
def State.weakest (s : State) (p below : Nat) : List Nat → Option Nat
  | [] => none
  | t :: ts =>
    match State.weakest s p below ts with
    | none => if s.priority p t < below then some t else none
    | some u => if s.priority p t ≤ s.priority p u then some t else some u

/-- The unit that is promoted first: the highest RESPRIO, of equals the lowest tid. -/
def State.strongest (s : State) (p : Nat) : List Nat → Option Nat
  | [] => none
  | t :: ts =>
    match State.strongest s p ts with
    | none => some t
    | some u => if s.priority p u ≤ s.priority p t then some t else some u

/-- The first move is not made: a program's request is declined, and of the manager's own demotion the promotion behind it takes note. -/
def State.declineMove (s : State) (p : Nat) (r : Residency) : State :=
  s.onPart p (fun x => if r.own then
      { x with resid := match x.resid.tail with
        | [] => []
        | q :: qs => { q with tried := q.tried ++ [r.tid] } :: qs }
    else { x with resid := x.resid.tail, declined := x.declined.filter (fun d => decide (d ≠ r.tid)) ++ [r.tid] })

/-- Space is short: for a promotion a lower unit in that vault is demoted first; else the move is not made. -/
def State.shortOfSpace (s : State) (p : Nat) (r : Residency) : State :=
  match s.part? p, r.vault with
  | some x, some v =>
    match s.weakest p (s.priority p r.tid) ((s.inVault p v x).filter (fun t => decide (t ≠ r.tid) && !r.tried.contains t)) with
    | some t => s.onPart p (fun x => { x with resid := ⟨t, none, false, true, []⟩ :: x.resid })
    | none => s.declineMove p r
  | _, _ => s.declineMove p r

/-- The first move starts, with the extents of its pages, or is found short of space (none), or without a unit that may move, and is not made. -/
def State.startMove (s : State) (p : Nat) (x : Part) (r : Residency) (extents : List Nat) : State :=
  match s.tensor p r.tid with
  | none => s.declineMove p r
  | some e =>
    let us := s.unitPages p e
    if !s.movable p e then s.declineMove p r
    else if extents.isEmpty then s.shortOfSpace p r
    else if s.opBusy p || !extentsFit p x r.vault us extents then s
    else
      let s1 := s.onPart p (fun x => { x with resid := match x.resid with
        | [] => []
        | r :: rs => { r with started := true } :: rs })
      s1.beginMove ((us.zip extents).map (fun e => moveOp p r.tid e.1 e.2))

/-- RESIDENCY_MOVE: the first move starts, with the machine addresses that the manager finds for its pages (none: space is short), or ends. While none is asked for,
the manager promotes of its own: the tensor of the highest RESPRIO that has a page in FAR memory, into the vault of the partition where it finds room (R76). -/
def execResidencyMove (part : Nat) (extents : List Nat) (s : State) : Host.Outcome State Fault Refusal :=
  match s.part? part with
  | none => .next s
  | some x =>
    match x.resid with
    | [] =>
      (match (extents.head?.bind Config.vaultOf).filter (Part.hasVault part x), s.strongest part (s.movables part (s.unitAway part)) with
      | some v, some t =>
        let r : Residency := ⟨t, some v, false, true, []⟩
        let s1 := (s.onPart part (fun x => { x with resid := [r] })).startMove part x r extents
        .next (if s1.mgmtOps = s.mgmtOps then s else s1)
      | _, _ => .next s)
    | r :: _ =>
      if r.started then
        let ops := s.mgmtOps.filter (fun m => decide (m.owner = Owner.resid r.tid ∧ m.part = part))
        .next (if ops.all (fun m => s.opReady m) then s.endMove part r ops else s)
      else .next (s.startMove part x r extents)

end Sys2Proof.Machine
end

