-- ==== Sys2Proof/Machine/HostLink.lean ====
section
/-! DEFINITION. The host interface and the links (spec/22_host_and_links.md R319 to R330; spec/19_traps_faults_recovery.md R313; spec/12_ref_memory_sync_transfer.md
R197; spec/23_program_host_counter.md R332; spec/07_claims_and_flows.md R117, R118, R128): accesses that come from outside, the end of the secure state, resets,
links and their loss, the timebase, remote windows. -/

namespace Sys2Proof.Machine

/-! ### Accesses from outside (R319, R320, R324) -/

/-- The bytes of an outside access. -/
def sizeBytes : AccessSize → Nat
  | .b1 => 1
  | .b2 => 2
  | .b4 => 4
  | .b8 => 8

/-- Do n bytes lie in the device memory of a partition's units? -/
def State.inPart (s : State) (p a n : Nat) : Bool :=
  let one (x : Nat) : Bool := match Config.unitOf x, s.part? p with
    | some u, some q => Part.hasUnit p q u
    | _, _ => false
  one a && one (a + n - 1)

/-- The bytes of a partition's memory that a write from outside gives, by machine address: the sectors keep the slot that they record. -/
def State.outsideWrite (s : State) (a : Nat) (bs : List Byte) : State :=
  let as := (List.range bs.length).map (a + ·)
  (((s.rawBytes a bs).versions (.dev a)).queueHook s as).unmark as

/-- R319, R260: the slot under which an outside read of a partition's memory is decrypted: that which the sector records, if the partition has it still. -/
def State.outsideSlot (s : State) (p a : Nat) : Option Nat :=
  if Config.isGddr a then
    match (s.sector a).slot with
    | some (k, g) => if (s.keySlot k).part = some p ∧ (s.keySlot k).gen = g then some k else none
    | none => none
  else some 0

/-- What an outside read of n bytes finds; zeros where no slot of the partition's decrypts them. -/
def State.outsideRead (s : State) (o : Obs) (p a : Nat) : Nat → List Byte × State
  | 0 => ([], s)
  | n + 1 =>
    let (b, s1) := match s.outsideSlot p a with
      | none => (0, s)
      | some k => s.readByte o k (.dev a)
    let (bs, s2) := State.outsideRead s1 o p (a + 1) n
    (b :: bs, s2)

/-- A peer as a requester (R277). -/
def peerReq (dev : W16) : W32 := 1#2 ++ (0 : BitVec 14) ++ dev

/-- Do host and peer requests reach the device: is it out of reset (R343)? In Q2 and Q3 they are held before they come here (State.gated). -/
def State.takesRequests (s : State) : Bool := s.pf.ready

/-- The new value of a word of w bytes that holds m, from the request's x (R203). -/
def atomApply (op : AtomOp) (w m x : Nat) : Nat :=
  match op with
  | .add => (m + x) % 256 ^ w
  | .minS => rmw32 (fun m x => if m.toInt ≤ x.toInt then m else x) m x
  | .maxS => rmw32 (fun m x => if x.toInt ≤ m.toInt then m else x) m x
  | .minZ => min m x
  | .maxZ => max m x
  | .and => m &&& x
  | .or => m ||| x
  | .xor => m ^^^ x
  | .swap => x
  | .fadd => rmw32 (f32add rmRne) m x
  | .cas v => if m = v.toNat then x else m

/-- The host's AtomicOps (R319): FetchAdd, Swap and CAS, of 32 and 64 bits. -/
def hostMay (op : OutsideOp) (z : AccessSize) : Bool :=
  match op with
  | .atomic a => (match a with
    | .add | .swap | .cas _ => true
    | _ => false) && decide (z = .b4 ∨ z = .b8)
  | _ => true

/-- A peer's atomics (R203): every one of 32 bits, add and compare-and-swap of 64. -/
def peerMay (op : OutsideOp) (z : AccessSize) : Bool :=
  match op with
  | .atomic a => (match a with
    | .add | .cas _ => decide (z = .b4 ∨ z = .b8)
    | _ => decide (z = .b4))
  | _ => true

/-- A request of an outside agent for a partition's memory: counted, performed once the page copies that a write needs are taken, and answered unless it is a
write. An atomic is one step of T at the unit that homes the line (R16). -/
def State.outsideAccess (s : State) (o : Obs) (req : W32) (p : Nat) (op : OutsideOp) (a n : Nat) (data : W64) : State :=
  let places := (List.range n).map (fun i => Loc.dev (a + i))
  if op ≠ .read ∧ (s.snapShort places).isSome then s.starveAny places
  else
    let s1 := s.hotRequest (fun _ => some req) a
    match op with
    | .write => s1.outsideWrite a (toBytes n data.toNat)
    | .read =>
      let (bs, s2) := s1.outsideRead o p a n
      { s2 with answer := some (BitVec.ofNat 64 (ofBytes bs)) }
    | .atomic k =>
      let (bs, s2) := s1.outsideRead o p a n
      { s2.outsideWrite a (toBytes n (atomApply k n (ofBytes bs) data.toNat)) with answer := some (BitVec.ofNat 64 (ofBytes bs)) }

/-! ### H's accesses through the PF (R260) -/

/-- The number that stands for the PF where an event names a function. -/
def pfNumber : Nat := 16

/-- What H reads of n bytes by machine address: what no object names, under the device key; a sector of GDDR7 last written under a key slot reads zeros (R261). -/
def State.pfBytes (s : State) (a : Nat) : Nat → List Byte × State
  | 0 => ([], s)
  | n + 1 =>
    let (b, s1) := if Config.isGddr a && (s.sector a).slot.isSome then (0, s) else
      match s.unpubAt (.dev a) with
      | [] => (s.rawByte (.dev a), s)
      | us => s.seenThrough (Obs.outside 2) (s.rawByte (.dev a)) us
    let (bs, s2) := State.pfBytes s1 (a + 1) n
    (b :: bs, s2)

/-- A sector comes under the device key by H's write: of one that a key slot encrypted nothing is left. -/
def State.hKey (s : State) (a : Nat) : State :=
  if Config.isGddr a && (s.sector a).slot.isSome then
    { s with mem := Tab.clear s.mem (a / 32 * 32) 32, mtags := Tab.clear s.mtags (a / 32 * 2) 2, unpub := s.unpub.filter (fun u => !(u.ended && u.loc.inSector (a / 32))),
             sectors := Tab.set Sector.clean s.sectors (a / 32) { s.sector a with slot := none } }
  else s

/-- H writes bytes by machine address. -/
def State.pfPut (s : State) (a : Nat) (bs : List Byte) : State :=
  let as := (List.range bs.length).map (a + ·)
  ((((as.foldl State.hKey s).rawBytes a bs).versions (.dev a)).queueHook s as).unmark as

/-- H's access of n bytes of device memory through the PF; an address that is no device memory completes with UR, without effect. -/
def State.pfAccess (s : State) (op : OutsideOp) (a n : Nat) (data : W64) : State :=
  if !(Config.isDevice a && Config.isDevice (a + n - 1)) then s
  else if op ≠ .read ∧ s.shortAt a n then s.starveAt a n
  else
    let s1 := s.hotRequest (fun _ => some hostReq) a
    let (bs, s2) := s1.pfBytes a n
    let answered (s : State) : State := { s with answer := some (BitVec.ofNat 64 (ofBytes bs)) }
    match op with
    | .write => s1.pfPut a (toBytes n data.toNat)
    | .read => answered s2
    | .atomic k => if n = 4 ∨ n = 8 then answered (s2.pfPut a (toBytes n (atomApply k n (ofBytes bs) data.toNat))) else s

/-- HOST_ACCESS: through the VF's range, which covers the partition's memory alone; outside it, and once the secure state has ended, it completes with
UR, without effect (R319, R321). Through the PF it is H's. -/
def execHostAccess (part : Nat) (op : OutsideOp) (addr : BitVec 52) (width : AccessSize) (data : W64) (s : State) : Host.Outcome State Fault Refusal :=
  if !s.takesRequests then .next s
  else if part = pfNumber then .next (s.pfAccess op addr.toNat (sizeBytes width) data)
  else if s.hostCut part || !s.inPart part addr.toNat (sizeBytes width) || !hostMay op width then .next s
  else .next (s.outsideAccess (Obs.outside 2) hostReq part op addr.toNat (sizeBytes width) data)

/-- HOST_SNOOP: the line is recalled from every cluster; the host then may write it. -/
def execHostSnoop (addr : BitVec 52) (write : Bool) (data : W64) (s : State) : Host.Outcome State Fault Refusal :=
  if !s.takesRequests || !write then .next s
  else .next (s.writeBytes 0 (.host addr.toNat) (toBytes 8 data.toNat))

/-- PEER_ACCESS: from a device of the coherence domain that a port of the partition reaches. After a write the peer may hold the line in M or O; an atomic is
performed here. -/
def execPeerAccess (dev : W16) (part : Nat) (op : OutsideOp) (addr : BitVec 52) (data : OutsideData) (s : State) : Host.Outcome State Fault Refusal :=
  if !s.takesRequests || !s.domain.contains dev || !s.linkUp part dev.toNat || !s.inPart part addr.toNat (sizeBytes data.size) || !peerMay op data.size then .next s
  else
    let s1 := s.outsideAccess (Obs.outside 1) (peerReq dev) part op addr.toNat (sizeBytes data.size) data.value
    .next (if op = .write then { s1 with owned := Tab.put s1.owned (addr.toNat / 128) dev } else s1)

/-! ### Remote windows: the owner's side (R325 to R327) -/

/-- A window entry (R325). -/
def weOpen (e : BitVec 256) : Bool := e.getLsbD 0
def weObject (e : BitVec 256) : Nat := field e 40 32
def weBase (e : BitVec 256) : Nat := field e 72 40
def weLength (e : BitVec 256) : Nat := field e 112 40
def weR (e : BitVec 256) : Bool := e.getLsbD 192
def weW (e : BitVec 256) : Bool := e.getLsbD 193
def weGen (e : BitVec 256) : Nat := field e 208 32
def weReqdev (e : BitVec 256) : Nat := field e 240 16

/-- The machine address of a window's entry; none for an index past the table. -/
def State.windowEntry (s : State) (p : Nat) (x : Part) (index : Nat) : Option (Walk Nat) :=
  if 2 ^ field x.wintab 52 4 ≤ index then none else some (s.stage2 (s.tbOf p) (field x.wintab 0 52 + 32 * index))

/-- The bytes of a window request; whether it reads and writes, and whether it may be made: peers' atomics are those of R203. -/
def windowBytes (z : AccessSize) : WindowOp → Nat
  | .cload | .cstore => 16
  | _ => sizeBytes z

def windowReads : WindowOp → Bool
  | .write | .cstore => false
  | _ => true

def windowWrites : WindowOp → Bool
  | .read | .cload => false
  | _ => true

def windowMay (z : AccessSize) : WindowOp → Bool
  | .atomic k => peerMay (.atomic k) z
  | _ => true

/-- R326: does the owner accept a request on the entry? -/
def windowPasses (e : BitVec 256) (gen : W32) (dev : W16) (offset n : Nat) (op : WindowOp) : Bool :=
  weOpen e && decide (weGen e = gen.toNat) && decide (weGen e ≠ 2 ^ 32 - 1) && decide (weReqdev e = dev.toNat ∨ weReqdev e = 0xFFFF) &&
    (!windowWrites op || weW e) && (!windowReads op || weR e) && decide (offset + n ≤ weLength e)

/-- A request at its place: a read is answered, an atomic is one step of T (R16), a capability moves with its tag (R202). -/
def State.windowPerform (s : State) (t : Trans) (n : Nat) (op : WindowOp) (data : WindowData) : State :=
  let put (s : State) (bs : List Byte) : State := s.writeBytes t.slot t.loc bs
  match op with
  | .write => put s (toBytes n data.value.toNat)
  | .read =>
    let (bs, s1) := s.readBytes (Obs.outside 2) t.slot t.loc n
    { s1 with answer := some (BitVec.ofNat 64 (ofBytes bs)) }
  | .atomic k =>
    let (bs, s1) := s.readBytes (Obs.outside 2) t.slot t.loc n
    { put s1 (toBytes n (atomApply k n (ofBytes bs) data.value.toNat)) with answer := some (BitVec.ofNat 64 (ofBytes bs)) }
  | .cload =>
    let (bs, s1) := s.readBytes (Obs.outside 2) t.slot t.loc n
    { s1 with capAnswer := some ⟨BitVec.ofNat 128 (ofBytes bs), s.readable t.slot t.loc && s.tagAt t.loc⟩ }
  | .cstore => (put s (toBytes n data.value.toNat)).setTag t.loc data.tag

/-- The access of a request that passes, through the owner's own tables. One that reads a sector marked uncorrectable brings no data, and is not performed (R197). -/
def State.windowAccess (s : State) (p o x n : Nat) (req : W32) (op : WindowOp) (data : WindowData) : Host.Outcome State Fault Refusal :=
  let me := s.sfeActor p
  match s.walk p me.tb kMem o x n with
  | .at t =>
    if s.keyBad p t.slot || s.keyHeld p t.slot then .next s
    else
      let places := (List.range n).map (t.loc.add ·)
      if windowWrites op && (s.snapShort places).isSome then .next (s.starveAny places)
      else
        let s1 := match t.loc with
          | .dev a => s.hotRequest (fun _ => some req) a
          | _ => s
        if windowReads op && s.marked t.loc n then .next { s1 with answer := none, capAnswer := none }
        else
          let s2 := s1.windowPerform t n op data
          .next (if windowWrites op then s2.sfeStored s1 t n else s2)
  | .page st a => .next (s.postSoft p ⟨decide (st = 2), false, false, o, a, false⟩)
  | .migrating => .next (s.postSoft p ⟨false, true, false, o, x / s.pageOf me o * s.pageOf me o, false⟩)
  | .beyond a => .fault (.noSuchAddress a)
  | .object _ => .next s

/-- WINDOW_REQUEST: a request that the owner does not accept has no effect here (R326). -/
def execWindowRequest (part : Nat) (index : W16) (gen : W32) (dev : W16) (offset : BitVec 40) (op : WindowOp) (width : AccessSize) (data : WindowData) (s : State) :
    Host.Outcome State Fault Refusal :=
  match s.part? part with
  | none => .next s
  | some x =>
    if !s.takesRequests || !s.linkUp part dev.toNat || !windowMay width op || decide (x.winStat = 1 ∧ x.winIdx = index.toNat) then .next s
    else
      match s.windowEntry part x index.toNat with
      | some (.at a) =>
        let e : BitVec 256 := BitVec.ofNat 256 (s.devNat a 32)
        let n := windowBytes width op
        if windowPasses e gen dev offset.toNat n op then s.windowAccess part (weObject e) (weBase e + offset.toNat) n (peerReq dev) op data else .next s
      | some (.page _ a) => .next (s.ringMiss part a)
      | some (.beyond a) => .fault (.noSuchAddress a)
      | _ => .next s

/-- R327: a store of an index to WINCTL; ignored while BUSY. -/
def State.winStart (s : State) (p index : Nat) : State :=
  if s.hostCut p then s else s.onPart p (fun x => if x.winStat = 1 then x else { x with winStat := 1, winIdx := index })

/-- WINCTL (R327): the revocation of an entry of this partition's table begins, unless one is under way; or a peer device revokes a window of its own, and the
claims over it here become REVOKED with cause WINDOW. -/
def execWinctl (part : Nat) (index : W16) (owner : Option W16) (s : State) : Host.Outcome State Fault Refusal :=
  match owner with
  | some d =>
    let hit (c : Claim) : Bool := c.wins.contains (d.toNat, index.toNat)
    .next ((s.revoke part hit 5).revokeSaved part hit 3 5)
  | none => .next (s.winStart part index.toNat)

/-- WINDOW_REVOCATION_DONE (R327): once the flows over the window have ended on every device, the entry's GEN rises, it is closed, STATUS is DONE. GEN does not
pass its greatest value. -/
def execWindowRevocationDone (part : Nat) (s : State) : Host.Outcome State Fault Refusal :=
  match s.part? part with
  | none => .next s
  | some x =>
    if x.winStat ≠ 1 then .next s
    else
      let done (s : State) : State := s.onPart part (fun x => { x with winStat := 2 })
      match s.windowEntry part x x.winIdx with
      | none => .next (done s)
      | some (.at a) =>
        if s.shortAt a 32 then .next (s.starveAt a 32)
        else
        let e : BitVec 256 := BitVec.ofNat 256 (s.devNat a 32)
        let gen := min (weGen e + 1) (2 ^ 32 - 1)
        .next (done ((s.guestPut a (s.dev64 a &&& ~~~1)).guestPut (a + 24) (setField (s.dev64 (a + 24)) 16 32 gen)))
      | some (.page _ a) => .next (s.ringMiss part a)
      | some (.beyond a) => .fault (.noSuchAddress a)
      | some _ => .next s

/-! ### A posted write that the host rejects (R197) -/

/-- HOST_WRITE_REJECTED (R197): a posted HOSTIO write that has reached the host behind its group's earlier ones, which one is a free choice, is not performed; H is
told. -/
def execHostWriteRejected (part : Nat) (s : State) : Host.Outcome State Fault Refusal :=
  let qs := s.posted.filter (fun q => decide (q.part = part ∧ q.dev = none) && !q.engine && !(s.postedBefore q).any s.unmade)
  let (f, s1) := s.fresh domDevice
  let s2 := match qs[f.toNat % qs.length]? with
    | none => s1
    | some q =>
      let rs := s1.postedBefore q
      rs.foldl State.land { s1 with posted := s1.posted.filter (fun r => decide (r ≠ q) && !rs.contains r) }
  .next (s2.machineCheck (mcWord 7 10 (some part) 0 0) 0 0)

/-! ### The secure state (R321) -/

/-- The secure state ends: nothing more goes to the host; the claims that cross the host interface are severed, with their flows and rounds; the halt line rises;
posted writes not yet sent are discarded. What waits for the host ends under the halt. -/
def State.endSecure (s : State) (p : Nat) : State :=
  let s1 := s.onPart p (fun x => { x with cut := true })
  let s2 := s1.cutRounds (fun k => decide (k.part = p) && (s1.claim k.team k.claim).host) (fun _ _ => false)
  let s3 := (s2.sever p (fun c => c.host) 2).revokeSaved p (fun c => c.host) 4 2
  (s3.haltPart p fcHostif).cutConn p none

/-- TDI_LEAVES_RUN. -/
def execTdiLeavesRun (part : Nat) (error : Bool) (s : State) : Host.Outcome State Fault Refusal :=
  match s.part? part with
  | none => .next s
  | some x =>
    if x.tdi ≠ .run then .next s
    else .next ((s.onPart part (fun x => { x with tdi := if error then .error else .configUnlocked })).endSecure part)

/-- The session of a partition is over. -/
def State.endSession (s : State) (p : Nat) : State :=
  match s.part? p with
  | none => s
  | some x => if x.spdm then (s.onPart p (fun x => { x with spdm := false })).endSecure p else s

/-- SPDM_SESSION_END. -/
def execSpdmSessionEnd (part : Nat) (s : State) : Host.Outcome State Fault Refusal := .next (s.endSession part)

/-- HEARTBEAT_TIMEOUT: with its heartbeat the session is lost. -/
def execHeartbeatTimeout (part : Nat) (s : State) : Host.Outcome State Fault Refusal := .next (s.endSession part)

/-- The secure state is back: the TDI in RUN, the session established. -/
def State.regain (s : State) (p : Nat) : State :=
  s.onPart p (fun x => if x.tdi = .run ∧ x.spdm then { x with cut := false } else x)

/-- TDISP_REQUEST: the moves CONFIG_UNLOCKED to CONFIG_LOCKED to RUN, and back to CONFIG_UNLOCKED from every state. -/
def execTdispRequest (part : Nat) (next : Tdi) (s : State) : Host.Outcome State Fault Refusal :=
  match s.part? part with
  | none => .next s
  | some x =>
    let s1 := s.onPart part (fun x => { x with tdi := next })
    match x.tdi, next with
    | .configUnlocked, .configLocked => .next s1
    | .configLocked, .run => .next (s1.regain part)
    | .run, .configUnlocked => .next (s1.endSecure part)
    | _, .configUnlocked => .next s1
    | _, _ => .next s

/-- SPDM_REQUEST: a session is established; a heartbeat changes nothing. -/
def execSpdmRequest (part : Nat) (establish : Bool) (s : State) : Host.Outcome State Fault Refusal :=
  .next (if establish then (s.onPart part (fun x => { x with spdm := true })).regain part else s)

/-- HOST_LINK_RETRAINING (R332): the host's AtomicOp records are UNKNOWN again. -/
def execHostLinkRetraining (s : State) : Host.Outcome State Fault Refusal :=
  .next { s with parts := s.parts.map (fun (e : Nat × Part) => (e.1, { e.2 with atomrec := [] })) }

/-! ### VF reset (R322) -/

/-- The reset of a VF begins, or goes on. -/
def State.resetVf (s : State) (p : Nat) : State :=
  match s.tryReset p .host with
  | .ended s1 => s1
  | .going s1 => s1
  | .busy => s

/-- FLR. That of the PF resets every VF with it (log entry 100). -/
def execFlr (part : Nat) (s : State) : Host.Outcome State Fault Refusal :=
  if !s.takesRequests then .next s
  else if part = pfNumber then .next (s.parts.foldl (fun s e => s.resetVf e.1) s)
  else
    match s.part? part with
    | none => .next s
    | some _ => .next (s.resetVf part)

/-! ### Ports (R323, R328) -/

/-- The partition that a port is assigned to (R253). -/
def State.portPart (s : State) (n : Nat) : Option Nat := (s.parts.find? (fun e => e.2.ports.contains n)).map (·.1)

/-- Claims with a property are severed with cause LINK, their flows and rounds with them; so are the rounds of its teams on the trees of which a link is lost
(R117, R118, R128). -/
def State.severLink (s : State) (p : Nat) (hit : Claim → Bool) (tree : BitVec 512 → Bool) : State :=
  let s1 := s.cutRounds (fun k => decide (k.part = p) && hit (s.claim k.team k.claim)) (fun r h => tree h && s.contribs.any (fun k => decide (k.round = r ∧ k.part = p)))
  (s1.sever p hit 1).revokeSaved p hit 4 1

/-- A line that the lost peer held in M or O: the peer's own copy may be gone (a free choice); its sectors are then marked, and H is told. -/
def State.loseLine (s : State) (p line : Nat) : State :=
  let s0 := { s with owned := Tab.del s.owned line }
  let (f, s1) := s0.fresh domDevice
  if f.getLsbD 0 then
    let s2 := (List.range 4).foldl (fun s i =>
      { s with sectors := Tab.set Sector.clean s.sectors (4 * line + i) { Tab.get Sector.clean s.sectors (4 * line + i) with unc := true } }) s1
    s2.machineCheck (mcWord 3 11 (some p) 0 0) (BitVec.ofNat 64 (128 * line)) 0
  else s1

/-- The way over a port is followed no longer: the device is its own root until another neighbour's flit shows a way (R330). -/
def State.forgetPort (s : State) (n : Nat) : State :=
  if s.pf.tbPort = some n then { s with pf := { s.pf with tbRoot := Config.deviceId, tbHops := 0, tbPort := none } } else s

/-- A partition's connection to a device is lost (R328). -/
def State.loseLink (s : State) (p : Nat) (dev : W16) : State :=
  let ns := s.portsTo p dev.toNat
  let s1 := ns.foldl State.forgetPort { s with ports := s.ports.map (fun (e : Nat × Port) => (e.1, if ns.contains e.1 then { e.2 with up := false } else e.2)) }
  let s2 := s1.severLink p (fun c => (c.ports ++ c.nodes).any (fun n => ns.contains n) || c.wins.any (fun w => decide (w.1 = dev.toNat))) (fun h => (hLinks h).contains dev.toNat)
  let s3 := s2.cutConn p (some dev.toNat)
  ((s3.owned.filter (fun e => decide (e.2 = dev) && s3.inPart p (128 * e.1) 128)).map (·.1)).foldl (fun s l => s.loseLine p l) s3

/-- LINK_LOSS. -/
def execLinkLoss (part : Nat) (dev : W16) (s : State) : Host.Outcome State Fault Refusal := .next (s.loseLink part dev)

/-- A port loses its link: the claims that reserved it are severed; with the last port to its partner the connection is lost. -/
def State.dropPort (s : State) (n : Nat) : State :=
  match Tab.find s.ports n with
  | none => s
  | some q =>
    if !q.up then s
    else
      let s1 := { s with ports := Tab.put s.ports n { q with up := false, fails := 0 } }.forgetPort n
      match s1.portPart n with
      | none => s1
      | some p =>
        let s2 := s1.severLink p (fun c => (c.ports ++ c.nodes).contains n) (fun _ => false)
        if s2.linkUp p q.dev.toNat then s2 else s2.loseLink p q.dev

/-- PORT_DOWN. -/
def execPortDown (port : Nat) (s : State) : Host.Outcome State Fault Refusal := .next (s.dropPort port)

/-- PORT_TRAINING: the port comes up with the highest version common to both sides, where the partner is authenticated; a port that is up and trains otherwise loses
its link first, and one that fails to train stays the lost port of the partner that it had (R328). -/
def execPortTraining (port : Nat) (dev : W16) (versions : W64) (auth : Bool) (s : State) : Host.Outcome State Fault Refusal :=
  let good := auth && versions.getLsbD Config.version
  let s1 := if good && ((Tab.find s.ports port).map (fun q => decide (q.up ∧ q.dev = dev))).getD false then s else s.dropPort port
  if 18 ≤ port then .next s
  else if good then .next { s1 with ports := Tab.put s1.ports port ⟨true, dev, Config.version, 0⟩ }
  else
    let old := Tab.find s1.ports port
    .next { s1 with ports := Tab.put s1.ports port (match old.filter (fun q => decide (q.ver ≠ 0)) with
      | none => ⟨false, dev, 0, 0⟩
      | some q => { q with up := false, fails := 0 }) }

/-- The arrivals of other devices at the barriers of a level that spans devices come in by flit: whether all have is a free value (log entry 19). -/
def State.remoteArrivals (s : State) : State :=
  s.launches.foldl (fun s e => e.2.lvlBars.foldl (fun s b =>
    if !e.2.spansDevices (b.1 / 2 ^ 40) then s
    else
      let (f, s1) := s.fresh (s.ctxDom e.2.ctx)
      if f.getLsbD 0 then s1.levelBarCheck e.1 (b.1 / 2 ^ 40) (b.1 % 2 ^ 40) true else s1) s) s

/-- A flit may bring a message of another device's team to a channel here, or take that of the first `send` parked for one there (R124, R291): a free choice, as
the message is (log entry 79). -/
def State.remoteMessage (s : State) (launch q : Nat) (l : Launch) (ch : Chan) : State :=
  let d := s.ctxDom l.ctx
  let (f, s1) := s.fresh d
  if f.getLsbD 0 then s1
  else if !l.holds ch.src && l.holds ch.dst then
    let (v, s2) := s1.freeWords d 64
    s2.chanTakes launch q v
  else match ch.senders with
    | w :: ws => if l.holds ch.dst then s1 else (s1.onChan launch q (fun ch => { ch with senders := ws })).freeSenders [w]
    | [] => s1

/-- The same for every channel of the launches that run. -/
def State.remoteMessages (s : State) : State :=
  (s.launches.filter (fun e => decide (s.ctxOf e.2.part = some e.2.ctx) && s.ctxRuns e.2.part && e.2.domainLevel.isSome)).foldl (fun s e =>
    e.2.chans.foldl (fun s q => s.remoteMessage e.1 q.1 e.2 q.2) s) s

/-- FLIT (R323): a good flit is taken, and what it brings while the clocks run (R347); a bad one is sent again, and the eighth failure in a row takes the port down. -/
def execFlit (port : Nat) (good : Bool) (s : State) : Host.Outcome State Fault Refusal :=
  match Tab.find s.ports port with
  | none => .next s
  | some q =>
    if !q.up then .next s
    else if good then
      let s1 := { s with ports := Tab.put s.ports port { q with fails := 0 } }
      .next (if s.clocked then s1.remoteArrivals.remoteMessages else s1)
    else if q.fails + 1 < 8 then .next { s with ports := Tab.put s.ports port { q with fails := q.fails + 1 } }
    else .next ((s.dropPort port).machineCheck (mcWord 8 11 (s.portPart port) port 0) 0 0)

/-! ### The timebase (R330) -/

/-- How far two counts lie apart. -/
def countGap (a b : W64) : Nat := min (a - b).toNat (b - a).toNat

/-- TBLOCK is lost: H is told. -/
def State.unlockTimebase (s : State) : State :=
  { s with pf := { s.pf with tblock := false } }.machineCheck (mcWord 10 0 none 0 0) 0 0

/-- Is the way over a port to a root the one to follow: a lower root, the same root in fewer hops, or the way followed so far? -/
def Pf.follows (f : Pf) (port : Nat) (root : W16) (hops : Nat) : Bool :=
  decide (root.toNat < f.tbRoot.toNat) || (decide (root = f.tbRoot) && decide (hops + 1 < f.tbHops)) || decide (f.tbPort = some port)

/-- Slewing: at most 1 ns for each flit, a microsecond apart, and never back. -/
def State.slew (s : State) (estimate : W64) : State :=
  let d := (estimate - s.timebase).toNat
  if d = 0 then s else if d < 2 ^ 63 then { s with timebase := s.timebase + 1 } else { s with frac := 0 }

/-- TIMEBASE_FLIT: the sender's root, its distance, the estimate of the root's count, and at a gap of 4 ns whether it is within the bound. -/
def execTimebaseFlit (port : Nat) (root : W16) (hops : Nat) (estimate : W64) (locked : Bool) (s : State) : Host.Outcome State Fault Refusal :=
  match Tab.find s.ports port with
  | none => .next s
  | some q =>
    if !q.up then .next s
    else
      let own := decide (Config.deviceId.toNat < root.toNat)
      let s1 := { s with pf := { s.pf with tbLast := s.timebase.toNat } }
      if s.pf.follows port root hops && !own then
        let s2 := { s1 with pf := { s1.pf with tbRoot := root, tbHops := hops + 1, tbPort := some port } }.slew estimate
        let gap := countGap estimate s2.timebase
        let lock := decide (gap < 4) || (decide (gap = 4) && locked)
        if lock then .next { s2 with pf := { s2.pf with tblock := true } }
        else if s2.pf.tblock then .next s2.unlockTimebase else .next s2
      else if s.pf.tbPort = none ∨ s.pf.tbPort = some port then
        .next { s1 with pf := { s1.pf with tbRoot := Config.deviceId, tbHops := 0, tbPort := none, tblock := true } }
      else .next s1

/-- Has no timebase flit come for 1 ms, while TBLOCK is set? -/
def State.tbSilent (s : State) : Bool := s.pf.tblock && decide (s.pf.tbLast + 1000000 ≤ s.timebase.toNat)

/-- TIMEBASE_UNLOCKED: for 1 ms no timebase flit has come. -/
def execTimebaseUnlocked (s : State) : Host.Outcome State Fault Refusal :=
  if s.tbSilent then
    .next { s with pf := { s.pf with tbRoot := Config.deviceId, tbHops := 0, tbPort := none } }.unlockTimebase
  else .next s

end Sys2Proof.Machine
end

