-- ==== Sys2Proof/Machine/Debug.lean ====
section
/-! DEFINITION. The debugger and the profiler (spec/24_debug_and_profiling.md R336 to R338, R342): DBGCMD, sampling. -/

namespace Sys2Proof.Machine

/-! ### DBGCMD (R336) -/

/-- The U groups of a partition with a TEAMID and a GROUPID. -/
def State.namedGroups (s : State) (p : Nat) (team : W32) (group : W16) : List Nat :=
  (s.groups.filter (fun e => decide (e.2.part = p ∧ e.2.level = .u ∧ s.tidOf e.2 % 2 ^ 32 = team.toNat ∧ e.2.gid = group.toNat) && !e.2.retired)).map (·.1)

/-- Is a command refused: context-stop mode, no running context, no such group? -/
def State.dbgRefused (s : State) (p : Nat) (team : W32) (group : W16) : Bool :=
  (match s.context? p with
    | none => true
    | some c => !c.stopmode.getLsbD 0 || decide (c.state ≠ .running)) || (s.namedGroups p team group).isEmpty

/-- A lane in BRK goes on: past its `brk`, or at the word before which a step has parked it. -/
def Lane.unbreak (step : Bool) (x : Lane) : Lane :=
  if x.state = .brk then { x with state := .run, pc := if x.stepped then x.pc else nextPc x.pc, age := 0, stepping := step, stepped := false } else x

/-- A command on the named lanes of the named group. -/
def State.dbgCmd (s : State) (p : Nat) (step : Bool) (team : W32) (group : W16) (lanes : W64) : State :=
  let status (s : State) (n : Nat) : State := s.onPart p (fun x => { x with dbgStat := n })
  if s.hostCut p then s
  else if s.dbgRefused p team group then status s 2
  else status ((s.namedGroups p team group).foldl (fun s u => s.onGroup u (fun g => g.onLanes lanes (fun _ x => x.unbreak step))) s) 1

/-- RELEASE. -/
def execRelease (part : Nat) (team : W32) (group : W16) (lanes : W64) (s : State) : Host.Outcome State Fault Refusal :=
  .next (s.dbgCmd part false team group lanes)

/-- STEP. -/
def execStep (part : Nat) (team : W32) (group : W16) (lanes : W64) (s : State) : Host.Outcome State Fault Refusal :=
  .next (s.dbgCmd part true team group lanes)

/-! ### Sampling (R342) -/

/-- The LFSR with taps 16, 14, 13, 11, one step on. -/
def lfsrNext (l : W16) : W16 :=
  let b := l.getLsbD 0 ^^ l.getLsbD 2 ^^ l.getLsbD 3 ^^ l.getLsbD 5
  (if b then 1#1 else 0#1) ++ l.extractLsb' 1 15

/-- An interval: MEAN / 2 + (L mod MEAN), MEAN at least 64. -/
def sampInterval (ctl : W64) (l : W16) : Nat :=
  let mean := max 64 (field ctl 0 32)
  mean / 2 + l.toNat % mean

/-- A write to SAMPCTL: setting EN seeds the LFSR and starts an interval. -/
def State.sampWrite (s : State) (p : Nat) (v m : W64) : State :=
  if s.hostCut p then s
  else s.onPart p (fun x =>
    let ctl := merge64 x.sampctl v m &&& 0x80000000FFFFFFFF
    if (v &&& m).getLsbD 63 then { x with sampctl := ctl, lfsr := 0xACE1, sampNext := s.aclk + sampInterval ctl 0xACE1 } else { x with sampctl := ctl })

/-- SAMPCTL. -/
def execSampctl (part : Nat) (value : W64) (s : State) : Host.Outcome State Fault Refusal := .next (s.sampWrite part value (BitVec.allOnes 64))

/-- The producer of the first register for which the word at an entry waits on the scoreboard. -/
def Group.producer (g : Group) (e : Entry) : Option Pc :=
  match g.fetched.find? (fun w => decide (w.1 = e.pc)) with
  | none => none
  | some w =>
    let rs := g.uses w.2 e.mask
    (g.pend.find? (fun p => rs.contains p.reg)).map (·.pc)

/-- The entry of a group, by R32, that is stalled on the scoreboard. -/
def Group.stalledEntry (g : Group) : Option Entry := selectEntry (g.frontier.filter (fun e => (g.producer e).isSome))

/-- Why a group did not issue in an aclk: 2 its stall count, 4 its operand log full, 1 the scoreboard, 3 its retirement window full, which only words with
results outstanding can make it, 5 the slot taken by another group (R338). Whether the window is full the model does not follow: `full`. -/
def Group.stallInfo (g : Group) (aclk : Nat) (full : Bool) : Nat :=
  if aclk < g.stall then 2 else if 8 ≤ g.log.length then 4 else if g.frontier.all (fun e => (g.producer e).isSome) then 1
  else if full && !g.pend.isEmpty then 3 else 5

/-- The group that has been resident longest. -/
def longest : List (Nat × Group) → Option (Nat × Group)
  | [] => none
  | e :: es =>
    match longest es with
    | none => some e
    | some f => some (if f.2.born < e.2.born then f else e)

/-- A sample record. -/
def State.sampleRec (s : State) (p type info : Nat) (g : Group) (pc : Pc) (lane : Nat) (producer : Pc) : State :=
  s.trace p (traceQ0 type info g.gid (s.tidOf g)) (traceQ1 pc lane) (producer.setWidth 64)

/-- The record of the smaller partitions: BLAME. -/
def State.blame (s : State) (p : Nat) (gs : List (Nat × Group)) : State :=
  match longest (gs.filter (fun e => e.2.stalledEntry.isSome)) with
  | none => s
  | some (_, g) =>
    match g.stalledEntry with
    | none => s
    | some e => s.sampleRec p 3 0 g e.pc ((lowestLane e.mask).getD 0) ((g.producer e).getD 0)

/-- The records of the larger ones: ISSUED for the group that has just issued, STALLED for the longest-resident one that could not. -/
def State.issuedStalled (s : State) (p : Nat) (gs : List (Nat × Group)) : State :=
  let just (g : Group) : Bool := decide (g.last = some (s.aclk - 1))
  let s1 := match gs.find? (fun e => just e.2) with
    | none => s
    | some (_, g) => s.sampleRec p 4 0 g g.issued.1 g.issued.2 0
  match longest (gs.filter (fun e => !just e.2 && !e.2.frontier.isEmpty)) with
  | none => s1
  | some (_, g) =>
    match selectEntry g.frontier with
    | none => s1
    | some e =>
      let (f, s2) := s1.fresh (s1.domOf g)
      s2.sampleRec p 5 (g.stallInfo (s.aclk - 1) (f.getLsbD 0)) g e.pc ((lowestLane e.mask).getD 0) 0

/-- The U groups of a partition's context that are resident in a slot: none of a context that is stopped or halted. -/
def State.sampledGroups (s : State) (p core slot : Nat) : List (Nat × Group) :=
  match s.context? p with
  | none => []
  | some c =>
    if c.state = .running ∨ c.state = .stopping then
      s.groups.filter (fun e => decide (e.2.part = p ∧ e.2.level = .u ∧ e.2.core = core ∧ e.2.slot = slot) && !e.2.halted)
    else []

/-- SAMPLE: the interval is over: the records of one slot of one kernel core, and the next interval. -/
def execSample (part : Nat) (s : State) : Host.Outcome State Fault Refusal :=
  match s.part? part with
  | none => .next s
  | some x =>
    if !x.sampctl.getLsbD 63 || !s.clocked || decide (s.aclk < x.sampNext) then .next s
    else
      let ks := Part.kernels part x
      let core := ks.getD (x.lfsr.toNat % ks.length) 0
      let slot := x.lfsr.toNat / 256 % 4
      let gs := s.sampledGroups part core slot
      let s1 := if ks.isEmpty then s else if x.units ≤ 4 then s.blame part gs else s.issuedStalled part gs
      let l := lfsrNext x.lfsr
      .next (s1.onPart part (fun x => { x with lfsr := l, sampNext := s.aclk + sampInterval x.sampctl l }))

end Sys2Proof.Machine
end

