-- ==== Sys2Proof/Machine/Flags.lean ====
section
/-! DEFINITION. Compare results (spec/10_ref_integer_control.md R157, R160): the machine has no flag register; a relation that holds writes all ones. -/

namespace Sys2Proof.Machine

def cmpEq {w : Nat} (x y : BitVec w) : BitVec w := ones (decide (x = y))
def cmpNe {w : Nat} (x y : BitVec w) : BitVec w := ones (decide (x ≠ y))
def cmpLtS {w : Nat} (x y : BitVec w) : BitVec w := ones (decide (x.toInt < y.toInt))
def cmpLtZ {w : Nat} (x y : BitVec w) : BitVec w := ones (decide (x.toNat < y.toNat))
def cmpLeS {w : Nat} (x y : BitVec w) : BitVec w := ones (decide (x.toInt ≤ y.toInt))
def cmpLeZ {w : Nat} (x y : BitVec w) : BitVec w := ones (decide (x.toNat ≤ y.toNat))

end Sys2Proof.Machine
end

