-- ==== Sys2Proof/Machine/Imm.lean ====
section
/-! DEFINITION. Classes 0x1 to 0x3, immediate forms and long-immediate moves (spec/10_ref_integer_control.md R161, R162). -/

namespace Sys2Proof.Machine

/-- R161. -/
def execVaddi (d a : F7) (i : BitVec 10) (s : State) : Host.Outcome State Fault Refusal :=
  vecK (.vaddi d a i) d a (sx 32 i) .s (· + ·) (ivAdd) s

/-- R161. -/
def execVmuli (d a : F7) (i : BitVec 10) (s : State) : Host.Outcome State Fault Refusal :=
  vecK (.vmuli d a i) d a (sx 32 i) .s (· * ·) (ivMul) s

/-- R161. -/
def execVandi (d a : F7) (i : BitVec 10) (s : State) : Host.Outcome State Fault Refusal :=
  vecK (.vandi d a i) d a (sx 32 i) .s (· &&& ·) (ivTop2 .s) s

/-- R161. -/
def execVori (d a : F7) (i : BitVec 10) (s : State) : Host.Outcome State Fault Refusal :=
  vecK (.vori d a i) d a (sx 32 i) .s (· ||| ·) (ivTop2 .s) s

/-- R161. -/
def execVxori (d a : F7) (i : BitVec 10) (s : State) : Host.Outcome State Fault Refusal :=
  vecK (.vxori d a i) d a (sx 32 i) .s (· ^^^ ·) (ivTop2 .s) s

/-- R161. -/
def execVshli (d a : F7) (i : BitVec 10) (s : State) : Host.Outcome State Fault Refusal :=
  vecK (.vshli d a i) d a (BitVec.ofNat 32 i.toNat) .s (fun x y => shl x y.toNat) (ivShl) s

/-- R161. -/
def execVshriZ (d a : F7) (i : BitVec 10) (s : State) : Host.Outcome State Fault Refusal :=
  vecK (.vshriZ d a i) d a (BitVec.ofNat 32 i.toNat) .z (fun x y => shrZ x y.toNat) (ivShr .z shrZ) s

/-- R161. -/
def execVshriS (d a : F7) (i : BitVec 10) (s : State) : Host.Outcome State Fault Refusal :=
  vecK (.vshriS d a i) d a (BitVec.ofNat 32 i.toNat) .s (fun x y => shrS x y.toNat) (ivShr .s shrS) s

/-- R161. -/
def execVcmpiEq (d a : F7) (i : BitVec 10) (s : State) : Host.Outcome State Fault Refusal :=
  vecK (.vcmpiEq d a i) d a (sx 32 i) .s (cmpEq) (ivNanOpen .s ivEq) s

/-- R161. -/
def execVcmpiLtS (d a : F7) (i : BitVec 10) (s : State) : Host.Outcome State Fault Refusal :=
  vecK (.vcmpiLtS d a i) d a (sx 32 i) .s (cmpLtS) (ivNanOpen .s (ivLt .s)) s

/-- R161. -/
def execVcmpiLtZ (d a : F7) (i : BitVec 10) (s : State) : Host.Outcome State Fault Refusal :=
  vecK (.vcmpiLtZ d a i) d a (sx 32 i) .s (cmpLtZ) (ivNanOpen .z (ivLt .z)) s

/-- R161. -/
def execVminiS (d a : F7) (i : BitVec 10) (s : State) : Host.Outcome State Fault Refusal :=
  vecK (.vminiS d a i) d a (sx 32 i) .s (minS) (ivMono .s minS) s

/-- R161. -/
def execVmaxiS (d a : F7) (i : BitVec 10) (s : State) : Host.Outcome State Fault Refusal :=
  vecK (.vmaxiS d a i) d a (sx 32 i) .s (maxS) (ivMono .s maxS) s

/-- R161. -/
def execSaddi (d a : F7) (i : BitVec 10) (s : State) : Host.Outcome State Fault Refusal :=
  sca1 (.saddi d a i) d a (fun x => x + sx 64 i) s

/-- R161. -/
def execSmuli (d a : F7) (i : BitVec 10) (s : State) : Host.Outcome State Fault Refusal :=
  sca1 (.smuli d a i) d a (fun x => x * sx 64 i) s

/-- R161. -/
def execSandi (d a : F7) (i : BitVec 10) (s : State) : Host.Outcome State Fault Refusal :=
  sca1 (.sandi d a i) d a (fun x => x &&& sx 64 i) s

/-- R161. -/
def execSori (d a : F7) (i : BitVec 10) (s : State) : Host.Outcome State Fault Refusal :=
  sca1 (.sori d a i) d a (fun x => x ||| sx 64 i) s

/-- R161. -/
def execSxori (d a : F7) (i : BitVec 10) (s : State) : Host.Outcome State Fault Refusal :=
  sca1 (.sxori d a i) d a (fun x => x ^^^ sx 64 i) s

/-- R161. -/
def execSshli (d a : F7) (i : BitVec 10) (s : State) : Host.Outcome State Fault Refusal :=
  sca1 (.sshli d a i) d a (fun x => shl x i.toNat) s

/-- R161. -/
def execSshriZ (d a : F7) (i : BitVec 10) (s : State) : Host.Outcome State Fault Refusal :=
  sca1 (.sshriZ d a i) d a (fun x => shrZ x i.toNat) s

/-- R161. -/
def execSshriS (d a : F7) (i : BitVec 10) (s : State) : Host.Outcome State Fault Refusal :=
  sca1 (.sshriS d a i) d a (fun x => shrS x i.toNat) s

/-- R161. -/
def execScmpiEq (d a : F7) (i : BitVec 10) (s : State) : Host.Outcome State Fault Refusal :=
  sca1 (.scmpiEq d a i) d a (fun x => cmpEq x (sx 64 i)) s

/-- R161. -/
def execScmpiLtS (d a : F7) (i : BitVec 10) (s : State) : Host.Outcome State Fault Refusal :=
  sca1 (.scmpiLtS d a i) d a (fun x => cmpLtS x (sx 64 i)) s

/-- R161. -/
def execScmpiLtZ (d a : F7) (i : BitVec 10) (s : State) : Host.Outcome State Fault Refusal :=
  sca1 (.scmpiLtZ d a i) d a (fun x => cmpLtZ x (sx 64 i)) s

/-- R161. -/
def execSminiS (d a : F7) (i : BitVec 10) (s : State) : Host.Outcome State Fault Refusal :=
  sca1 (.sminiS d a i) d a (fun x => minS x (sx 64 i)) s

/-- R161. -/
def execSmaxiS (d a : F7) (i : BitVec 10) (s : State) : Host.Outcome State Fault Refusal :=
  sca1 (.smaxiS d a i) d a (fun x => maxS x (sx 64 i)) s

/-- R162. -/
def execVmovi (d : F7) (i : BitVec 19) (s : State) : Host.Outcome State Fault Refusal :=
  word (.vmovi d i) s fun s c => c.setVec s d (fun _ => sx 32 i) (fun _ => Iv.point .s (sx 32 i))

/-- R162. -/
def execVmovhi (d : F7) (i : BitVec 19) (s : State) : Host.Outcome State Fault Refusal :=
  word (.vmovhi d i) s fun s c =>
    c.setVec s d (fun l => movHi32 (c.regs.rv d.toNat l) i) (fun l => lift1 .s (fun x => movHi32 x i) (ivTop1 .s) (c.iv d.toNat l))

/-- R162. -/
def execSmovi (d : F7) (i : BitVec 19) (s : State) : Host.Outcome State Fault Refusal :=
  word (.smovi d i) s fun s c => .done (c.write s (fun x => x.ws d.toNat (sx 64 i)))

/-- R162. -/
def execSmovhi (d : F7) (i : BitVec 19) (s : State) : Host.Outcome State Fault Refusal :=
  word (.smovhi d i) s fun s c => .done (c.write s (fun x => x.ws d.toNat (movHi64 (c.regs.rs d.toNat) i)))

end Sys2Proof.Machine
end

