-- ==== Sys2Proof/Machine/IntScalar.lean ====
section
/-! DEFINITION. Class 0x0, scalar integer instructions (spec/10_ref_integer_control.md R160). -/

namespace Sys2Proof.Machine

/-- R160. -/
def execSadd (d a b : F7) (s : State) : Host.Outcome State Fault Refusal :=
  sca2 (.sadd d a b) d a b (· + ·) s

/-- R160. -/
def execSsub (d a b : F7) (s : State) : Host.Outcome State Fault Refusal :=
  sca2 (.ssub d a b) d a b (· - ·) s

/-- R160. -/
def execSmul (d a b : F7) (s : State) : Host.Outcome State Fault Refusal :=
  sca2 (.smul d a b) d a b (· * ·) s

/-- R160. -/
def execSmulhS (d a b : F7) (s : State) : Host.Outcome State Fault Refusal :=
  sca2 (.smulhS d a b) d a b (mulHiS) s

/-- R160. -/
def execSmulhZ (d a b : F7) (s : State) : Host.Outcome State Fault Refusal :=
  sca2 (.smulhZ d a b) d a b (mulHiZ) s

/-- R160. -/
def execSminS (d a b : F7) (s : State) : Host.Outcome State Fault Refusal :=
  sca2 (.sminS d a b) d a b (minS) s

/-- R160. -/
def execSminZ (d a b : F7) (s : State) : Host.Outcome State Fault Refusal :=
  sca2 (.sminZ d a b) d a b (minZ) s

/-- R160. -/
def execSmaxS (d a b : F7) (s : State) : Host.Outcome State Fault Refusal :=
  sca2 (.smaxS d a b) d a b (maxS) s

/-- R160. -/
def execSmaxZ (d a b : F7) (s : State) : Host.Outcome State Fault Refusal :=
  sca2 (.smaxZ d a b) d a b (maxZ) s

/-- R160. -/
def execSdivS (d a b : F7) (s : State) : Host.Outcome State Fault Refusal :=
  sca2 (.sdivS d a b) d a b (divS) s

/-- R160. -/
def execSdivZ (d a b : F7) (s : State) : Host.Outcome State Fault Refusal :=
  sca2 (.sdivZ d a b) d a b (divZ) s

/-- R160. -/
def execSremS (d a b : F7) (s : State) : Host.Outcome State Fault Refusal :=
  sca2 (.sremS d a b) d a b (remS) s

/-- R160. -/
def execSremZ (d a b : F7) (s : State) : Host.Outcome State Fault Refusal :=
  sca2 (.sremZ d a b) d a b (remZ) s

/-- R160. -/
def execSand (d a b : F7) (s : State) : Host.Outcome State Fault Refusal :=
  sca2 (.sand d a b) d a b (· &&& ·) s

/-- R160. -/
def execSor (d a b : F7) (s : State) : Host.Outcome State Fault Refusal :=
  sca2 (.sor d a b) d a b (· ||| ·) s

/-- R160. -/
def execSxor (d a b : F7) (s : State) : Host.Outcome State Fault Refusal :=
  sca2 (.sxor d a b) d a b (· ^^^ ·) s

/-- R160. -/
def execSandn (d a b : F7) (s : State) : Host.Outcome State Fault Refusal :=
  sca2 (.sandn d a b) d a b (fun x y => x &&& ~~~y) s

/-- R160. -/
def execSshl (d a b : F7) (s : State) : Host.Outcome State Fault Refusal :=
  sca2 (.sshl d a b) d a b (fun x y => shl x y.toNat) s

/-- R160. -/
def execSshrZ (d a b : F7) (s : State) : Host.Outcome State Fault Refusal :=
  sca2 (.sshrZ d a b) d a b (fun x y => shrZ x y.toNat) s

/-- R160. -/
def execSshrS (d a b : F7) (s : State) : Host.Outcome State Fault Refusal :=
  sca2 (.sshrS d a b) d a b (fun x y => shrS x y.toNat) s

/-- R160. -/
def execSpopc (d a : F7) (s : State) : Host.Outcome State Fault Refusal :=
  sca1 (.spopc d a) d a (popc) s

/-- R160. -/
def execSclz (d a : F7) (s : State) : Host.Outcome State Fault Refusal :=
  sca1 (.sclz d a) d a (clz) s

/-- R160. -/
def execScmpEq (d a b : F7) (s : State) : Host.Outcome State Fault Refusal :=
  sca2 (.scmpEq d a b) d a b (cmpEq) s

/-- R160. -/
def execScmpNe (d a b : F7) (s : State) : Host.Outcome State Fault Refusal :=
  sca2 (.scmpNe d a b) d a b (cmpNe) s

/-- R160. -/
def execScmpLtS (d a b : F7) (s : State) : Host.Outcome State Fault Refusal :=
  sca2 (.scmpLtS d a b) d a b (cmpLtS) s

/-- R160. -/
def execScmpLtZ (d a b : F7) (s : State) : Host.Outcome State Fault Refusal :=
  sca2 (.scmpLtZ d a b) d a b (cmpLtZ) s

/-- R160. -/
def execScmpLeS (d a b : F7) (s : State) : Host.Outcome State Fault Refusal :=
  sca2 (.scmpLeS d a b) d a b (cmpLeS) s

/-- R160. -/
def execScmpLeZ (d a b : F7) (s : State) : Host.Outcome State Fault Refusal :=
  sca2 (.scmpLeZ d a b) d a b (cmpLeZ) s

/-- R160. -/
def execSmov (d a : F7) (s : State) : Host.Outcome State Fault Refusal :=
  sca1 (.smov d a) d a (fun x => x) s

/-- R160. -/
def execSsel (d a b : F7) (s : State) : Host.Outcome State Fault Refusal :=
  sca3 (.ssel d a b) d a b bitSel s

end Sys2Proof.Machine
end

