-- ==== Sys2Proof/Machine/IntVec.lean ====
section
/-! DEFINITION. Class 0x0, vector integer instructions (spec/10_ref_integer_control.md R154 to R159). -/

namespace Sys2Proof.Machine

/-- R154. -/
def execVadd (d a b : F7) (s : State) : Host.Outcome State Fault Refusal :=
  vec2 (.vadd d a b) d a b .s (fun _ => (· + ·)) (ivAdd) s

/-- R154. -/
def execVsub (d a b : F7) (s : State) : Host.Outcome State Fault Refusal :=
  vec2 (.vsub d a b) d a b .s (fun _ => (· - ·)) (ivSub) s

/-- R154. -/
def execVmul (d a b : F7) (s : State) : Host.Outcome State Fault Refusal :=
  vec2 (.vmul d a b) d a b .s (fun _ => (· * ·)) (ivMul) s

/-- R154. -/
def execVmulhS (d a b : F7) (s : State) : Host.Outcome State Fault Refusal :=
  vec2 (.vmulhS d a b) d a b .s (fun _ => mulHiS) (ivTop2 .s) s

/-- R154. -/
def execVmulhZ (d a b : F7) (s : State) : Host.Outcome State Fault Refusal :=
  vec2 (.vmulhZ d a b) d a b .z (fun _ => mulHiZ) (ivTop2 .z) s

/-- R154. -/
def execVmad (d a b : F7) (s : State) : Host.Outcome State Fault Refusal :=
  vec3 (.vmad d a b) d a b .s (fun _ => fun z x y => x * y + z) (ivMad) s

/-- R154. -/
def execVminS (d a b : F7) (s : State) : Host.Outcome State Fault Refusal :=
  vec2 (.vminS d a b) d a b .s (fun _ => minS) (ivMono .s minS) s

/-- R154. -/
def execVminZ (d a b : F7) (s : State) : Host.Outcome State Fault Refusal :=
  vec2 (.vminZ d a b) d a b .z (fun _ => minZ) (ivMono .z minZ) s

/-- R154. -/
def execVmaxS (d a b : F7) (s : State) : Host.Outcome State Fault Refusal :=
  vec2 (.vmaxS d a b) d a b .s (fun _ => maxS) (ivMono .s maxS) s

/-- R154. -/
def execVmaxZ (d a b : F7) (s : State) : Host.Outcome State Fault Refusal :=
  vec2 (.vmaxZ d a b) d a b .z (fun _ => maxZ) (ivMono .z maxZ) s

/-- R154. -/
def execVaddsS (d a b : F7) (s : State) : Host.Outcome State Fault Refusal :=
  vec2 (.vaddsS d a b) d a b .s (fun _ => addSatS) (ivMono .s addSatS) s

/-- R154. -/
def execVaddsZ (d a b : F7) (s : State) : Host.Outcome State Fault Refusal :=
  vec2 (.vaddsZ d a b) d a b .z (fun _ => addSatZ) (ivMono .z addSatZ) s

/-- R154. -/
def execVsubsS (d a b : F7) (s : State) : Host.Outcome State Fault Refusal :=
  vec2 (.vsubsS d a b) d a b .s (fun _ => subSatS) (ivAnti .s subSatS) s

/-- R154. -/
def execVsubsZ (d a b : F7) (s : State) : Host.Outcome State Fault Refusal :=
  vec2 (.vsubsZ d a b) d a b .z (fun _ => subSatZ) (ivAnti .z subSatZ) s

/-- R154, R155. -/
def execVdivS (d a b : F7) (s : State) : Host.Outcome State Fault Refusal :=
  vec2 (.vdivS d a b) d a b .s (fun _ => divS) (ivDiv .s) s

/-- R154, R155. -/
def execVdivZ (d a b : F7) (s : State) : Host.Outcome State Fault Refusal :=
  vec2 (.vdivZ d a b) d a b .z (fun _ => divZ) (ivDiv .z) s

/-- R154, R155. -/
def execVremS (d a b : F7) (s : State) : Host.Outcome State Fault Refusal :=
  vec2 (.vremS d a b) d a b .s (fun _ => remS) (ivTop2 .s) s

/-- R154, R155. -/
def execVremZ (d a b : F7) (s : State) : Host.Outcome State Fault Refusal :=
  vec2 (.vremZ d a b) d a b .z (fun _ => remZ) (ivTop2 .z) s

/-- R158. -/
def execVand (d a b : F7) (s : State) : Host.Outcome State Fault Refusal :=
  vec2 (.vand d a b) d a b .s (fun _ => (· &&& ·)) (ivTop2 .s) s

/-- R158. -/
def execVor (d a b : F7) (s : State) : Host.Outcome State Fault Refusal :=
  vec2 (.vor d a b) d a b .s (fun _ => (· ||| ·)) (ivTop2 .s) s

/-- R158. -/
def execVxor (d a b : F7) (s : State) : Host.Outcome State Fault Refusal :=
  vec2 (.vxor d a b) d a b .s (fun _ => (· ^^^ ·)) (ivTop2 .s) s

/-- R158. -/
def execVandn (d a b : F7) (s : State) : Host.Outcome State Fault Refusal :=
  vec2 (.vandn d a b) d a b .s (fun _ => fun x y => x &&& ~~~y) (ivTop2 .s) s

/-- R159. -/
def execVsel (d a b : F7) (s : State) : Host.Outcome State Fault Refusal :=
  word (.vsel d a b) s fun s c =>
    c.setVec s d (fun l => bitSel (c.regs.rv d.toNat l) (c.regs.rv a.toNat l) (c.regs.rv b.toNat l))
      (fun l => ivSel (c.iv d.toNat l) (c.iv a.toNat l) (c.iv b.toNat l))

/-- R158. -/
def execVshl (d a b : F7) (s : State) : Host.Outcome State Fault Refusal :=
  vec2 (.vshl d a b) d a b .s (fun _ => fun x y => shl x y.toNat) (ivShl) s

/-- R158. -/
def execVshrZ (d a b : F7) (s : State) : Host.Outcome State Fault Refusal :=
  vec2 (.vshrZ d a b) d a b .z (fun _ => fun x y => shrZ x y.toNat) (ivShr .z shrZ) s

/-- R158. -/
def execVshrS (d a b : F7) (s : State) : Host.Outcome State Fault Refusal :=
  vec2 (.vshrS d a b) d a b .s (fun _ => fun x y => shrS x y.toNat) (ivShr .s shrS) s

/-- R158. -/
def execVrotl (d a b : F7) (s : State) : Host.Outcome State Fault Refusal :=
  vec2 (.vrotl d a b) d a b .s (fun _ => fun x y => x.rotateLeft (y.toNat % 32)) (ivTop2 .s) s

/-- R156. -/
def execVpopc (d a : F7) (s : State) : Host.Outcome State Fault Refusal :=
  vec1 (.vpopc d a) d a .s (fun _ => popc) (ivTop1 .s) s

/-- R156. -/
def execVclz (d a : F7) (s : State) : Host.Outcome State Fault Refusal :=
  vec1 (.vclz d a) d a .s (fun _ => clz) (ivTop1 .s) s

/-- R156. -/
def execVbrev (d a : F7) (s : State) : Host.Outcome State Fault Refusal :=
  vec1 (.vbrev d a) d a .s (fun _ => brev) (ivTop1 .s) s

/-- R156. -/
def execVbfxZ (d a b : F7) (s : State) : Host.Outcome State Fault Refusal :=
  vec2 (.vbfxZ d a b) d a b .z (fun _ => bfxZ) (ivTop2 .z) s

/-- R156. -/
def execVbfxS (d a b : F7) (s : State) : Host.Outcome State Fault Refusal :=
  vec2 (.vbfxS d a b) d a b .s (fun _ => bfxS) (ivTop2 .s) s

/-- R156. -/
def execVbfi (d a b : F7) (s : State) : Host.Outcome State Fault Refusal :=
  vec3 (.vbfi d a b) d a b .s (fun _ => bfi) (ivTop3 .s) s

/-- R157. -/
def execVcmpEq (d a b : F7) (s : State) : Host.Outcome State Fault Refusal :=
  vec2 (.vcmpEq d a b) d a b .s (fun _ => cmpEq) (ivNanOpen .s ivEq) s

/-- R157. -/
def execVcmpNe (d a b : F7) (s : State) : Host.Outcome State Fault Refusal :=
  vec2 (.vcmpNe d a b) d a b .s (fun _ => cmpNe) (ivNanOpen .s ivNe) s

/-- R157. -/
def execVcmpLtS (d a b : F7) (s : State) : Host.Outcome State Fault Refusal :=
  vec2 (.vcmpLtS d a b) d a b .s (fun _ => cmpLtS) (ivNanOpen .s (ivLt .s)) s

/-- R157. -/
def execVcmpLtZ (d a b : F7) (s : State) : Host.Outcome State Fault Refusal :=
  vec2 (.vcmpLtZ d a b) d a b .s (fun _ => cmpLtZ) (ivNanOpen .z (ivLt .z)) s

/-- R157. -/
def execVcmpLeS (d a b : F7) (s : State) : Host.Outcome State Fault Refusal :=
  vec2 (.vcmpLeS d a b) d a b .s (fun _ => cmpLeS) (ivNanOpen .s (ivLe .s)) s

/-- R157. -/
def execVcmpLeZ (d a b : F7) (s : State) : Host.Outcome State Fault Refusal :=
  vec2 (.vcmpLeZ d a b) d a b .s (fun _ => cmpLeZ) (ivNanOpen .z (ivLe .z)) s

/-- R159: `vmov` copies the interval, tag and flag included (R103). -/
def execVmov (d a : F7) (s : State) : Host.Outcome State Fault Refusal :=
  word (.vmov d a) s fun s c => c.setVec s d (fun l => c.regs.rv a.toNat l) (fun l => c.iv a.toNat l)

/-- R159. -/
def execVbcast (d a : F7) (s : State) : Host.Outcome State Fault Refusal :=
  word (.vbcast d a) s fun s c =>
    let x := (c.regs.rs a.toNat).setWidth 32
    c.setVec s d (fun _ => x) (fun _ => Iv.point .s x)

/-- R159: a lane that does not execute reads as 0. -/
def execVext (d a b : F7) (s : State) : Host.Outcome State Fault Refusal :=
  word (.vext d a b) s fun s c =>
    let n := (c.regs.rs b.toNat).toNat
    if c.g.width ≤ n then .hard s (Hard.plain fcIllOp)
    else .done (c.write s (fun x => x.ws d.toNat (if bit c.mask n then (c.regs.rv a.toNat n).setWidth 64 else 0)))

/-- R159: only an executing lane is written. -/
def execVins (d a b : F7) (s : State) : Host.Outcome State Fault Refusal :=
  word (.vins d a b) s fun s c =>
    let n := (c.regs.rs b.toNat).toNat
    if c.g.width ≤ n then .hard s (Hard.plain fcIllOp)
    else .done (c.write s (fun x => if bit c.mask n then x.wv d.toNat n ((c.regs.rs a.toNat).setWidth 32) else x))

end Sys2Proof.Machine
end

