-- ==== Sys2Proof/Machine/Power.lean ====
section
/-! DEFINITION. Bring-up, power states, the thermal trip (spec/25_bringup_power_package.md R343 to R348), sector pinning (spec/19_traps_faults_recovery.md R312). -/

namespace Sys2Proof.Machine

/-! ### Bring-up (R343, R344) -/

/-- What is left without power: the repair store, whose lines start at zero, and what is not the device's: the memory of the host and of peers, and what the
outside will do. -/
def State.lost (s : State) : State :=
  { State.reset with pins := s.pins.map (fun (e : Nat × Bool) => (e.1, false)), hostMem := s.hostMem, peerMem := s.peerMem,
                     peerTags := s.peerTags, nextUid := s.nextUid, free := s.free, lives := s.lives, seeds := s.seeds, upset := s.upset, agenda := s.agenda }

/-- Step 1 extends the measurements of ROM, firmware and fuses into the registers that SPDM reports. -/
def Pf.measure (f : Pf) : Pf := { f with measured := (List.range 3).map Config.measurement }

/-- POWER_ON: power-on or a cold reset runs the sequence. It stops at a step that fails, with the failing unit for steps 4 to 6; step 3 never fails. -/
def execPowerOn (failed : Option (Fin 7 × W8)) (s : State) : Host.Outcome State Fault Refusal :=
  let s1 := s.lost
  let good : State := { s1 with pf := { s1.pf.measure with bootStep := 6, ready := true } }
  match failed with
  | none => .next good
  | some (k, u) =>
    if k.val = 0 ∨ k.val = 3 then .next good
    else .next { s1 with pf := { (if 2 ≤ k.val then s1.pf.measure else s1.pf) with bootStep := k.val - 1, failed := true, failStep := k.val, failUnit := if 4 ≤ k.val then u else 0 } }

/-- POWER_REMOVAL (R346): everything but the repair store is lost, and the device is off. -/
def execPowerRemoval (s : State) : Host.Outcome State Fault Refusal :=
  let s1 := s.lost
  .next { s1 with pf := { s1.pf with current := 4 } }

/-! ### Power states (R345 to R347) -/

/-- Is no context RUNNING or STOPPING (R346)? -/
def State.quiet (s : State) : Bool :=
  s.parts.all (fun e => match s.context? e.1 with
    | none => true
    | some c => !decide (c.state = .running ∨ c.state = .stopping))

/-- R347: is a change to a state refused? -/
def State.targetRefused (s : State) (k : Nat) : Bool :=
  decide (s.pf.pwrStatus = 1) || decide (5 ≤ k) || (s.pf.thermtrip && decide (k ≤ 1)) || (decide (3 ≤ k) && !s.quiet) ||
  (decide (2 ≤ s.pf.current) && decide (2 ≤ k ∧ k ≠ s.pf.current))

/-- A write to TARGET. A refused one changes nothing but STATUS, which stays BUSY while a change is under way. -/
def State.setTarget (s : State) (k : Nat) : State :=
  if !s.pf.ready || decide (s.pf.current = 4) then s
  else if s.targetRefused k then { s with pf := { s.pf with pwrStatus := if s.pf.pwrStatus = 1 then 1 else 2 } }
  else { s with pf := { s.pf with target := k, pwrStatus := 1 } }

/-- TARGET_Q0. -/
def execTargetQ0 (s : State) : Host.Outcome State Fault Refusal := .next (s.setTarget 0)

/-- TARGET_Q1. -/
def execTargetQ1 (s : State) : Host.Outcome State Fault Refusal := .next (s.setTarget 1)

/-- TARGET_Q2. -/
def execTargetQ2 (s : State) : Host.Outcome State Fault Refusal := .next (s.setTarget 2)

/-- TARGET_Q3. -/
def execTargetQ3 (s : State) : Host.Outcome State Fault Refusal := .next (s.setTarget 3)

/-- TARGET_Q4. -/
def execTargetQ4 (s : State) : Host.Outcome State Fault Refusal := .next (s.setTarget 4)

/-- The requests held in Q2 and Q3 come next, in their order, once the device is in Q0 or Q1. -/
def State.letIn (s : State) : State :=
  if s.clocked then { s with agenda := s.waiting.map Turn.event ++ s.agenda, waiting := [] } else s

/-- R346: what Q3 keeps. Contexts are in their save frames; of the service teams, whose registers and team memory no frame holds, nothing is left: those of an H
partition start anew, those of a guest's supervisor at its context's next start (R249, log entry 8). The caches are empty. -/
def State.retained (s : State) : State :=
  let s1 := { s with
    teams := s.teams.filter (fun (e : Nat × Team) => decide (e.2.level = Level.u)), groups := s.groups.filter (fun (e : Nat × Group) => decide (e.2.level = Level.u)),
    saved := s.saved.map (fun (e : Nat × Saved) => (e.1, { e.2 with teams := e.2.teams.filter (fun (t : Nat × Team) => decide (t.2.level = Level.u)),
                                                                    groups := e.2.groups.filter (fun (g : Nat × Group) => decide (g.2.level = Level.u)) }))
    icache := [], ocache := [] }
  (s1.parts.filter (fun (e : Nat × Part) => e.2.hpart)).foldl (fun (s : State) (e : Nat × Part) => s.sowOn e.1 .h) s1

/-- POWER_STATE_CHANGE_DONE: CURRENT equals TARGET, STATUS is IDLE; Q3 and Q4 wait until no context runs, Q3 for the flows of the service teams. Entering Q3 keeps
what R346 names; entering Q4 loses all but the repair store. -/
def execPowerStateChangeDone (s : State) : Host.Outcome State Fault Refusal :=
  if s.pf.pwrStatus ≠ 1 ∨ (3 ≤ s.pf.target ∧ !s.quiet) ∨ (s.pf.target = 3 ∧ !s.copies.isEmpty) then .next s
  else if s.pf.target = 4 then
    let s1 := s.lost
    .next { s1 with pf := { s1.pf with current := 4, target := 4 } }
  else
    let s1 := if s.pf.target = 3 then s.retained else s
    .next { s1 with pf := { s1.pf with current := s.pf.target, pwrStatus := 0 } }.letIn

/-! ### The thermal trip (R348) -/

/-- THERMAL_TRIP: TEMP has reached 105. -/
def execThermalTrip (temp : W8) (s : State) : Host.Outcome State Fault Refusal :=
  if temp.toNat < 105 ∨ s.pf.current = 4 then .next s
  else
    .next ({ s with pf := { s.pf with temp := temp, current := 2, thermtrip := true, pwrStatus := if s.pf.pwrStatus = 1 then 0 else s.pf.pwrStatus } }.machineCheck
      (mcWord 9 0 none 0 0) 0 0)

/-- R348: a write of 1 to THERMTRIP. -/
def State.clearTrip (s : State) : State := if s.pf.temp.toNat ≤ 95 then { s with pf := { s.pf with thermtrip := false } } else s

/-- THERMTRIP_CLEAR, at a TEMP: one that reaches 105 is a trip, and the write has no effect. -/
def execThermtripClear (temp : W8) (s : State) : Host.Outcome State Fault Refusal :=
  if s.pf.current = 4 then .next s
  else if 105 ≤ temp.toNat ∧ s.pf.temp.toNat < 105 then execThermalTrip temp s
  else .next { s with pf := { s.pf with temp := temp } }.clearTrip

/-! ### Pinning (R312, R313) -/

/-- The CLASS of an error that is found (R313). -/
def errorClass (uncorrectable : Bool) : Nat := if uncorrectable then 3 else 1

/-- SCRUB finds a latent error of a GDDR7 sector. An uncorrectable one marks the sector; it, or the third correctable one, pins it. -/
def State.scrubSector (s : State) (a unit : Nat) (uncorrectable : Bool) : State :=
  let i := a / 32
  let old := Tab.get Sector.clean s.sectors i
  let part := s.unitPart unit
  let cls (c : Nat) : W64 := mcWord c 1 part (s.gddrDevice a) 0
  let q1 := BitVec.ofNat 64 (32 * i)
  let n := if uncorrectable then old.errs else old.errs + 1
  let new : Sector := { old with unc := old.unc || uncorrectable, errs := n }
  let q3 := new.count
  let s1 := { s with sectors := Tab.set Sector.clean s.sectors i new }
  let s2 := s1.machineCheck (cls (errorClass uncorrectable)) q1 q3
  if uncorrectable || decide (n = 3) then s2.pin i unit uncorrectable cls q1 q3 else s2

/-- R313: an error of the vault or the L2 slice that homes an address. An uncorrectable one marks the bytes; a corrected one is counted. -/
def State.homeError (s : State) (a unit : Nat) (uncorrectable : Bool) : State :=
  let i := a / 32
  let old := Tab.get Sector.clean s.sectors i
  let n := if uncorrectable then 0 else 1
  let (source, number, new) : Nat × Nat × Sector := match Config.vaultOf a with
    | some v => (3, v, { old with unc := old.unc || uncorrectable, errs := old.errs + n })
    | none => (2, unit, { old with unc := old.unc || uncorrectable, l2Errs := old.l2Errs + n })
  let s1 := { s with sectors := Tab.set Sector.clean s.sectors i new }
  s1.machineCheck (mcWord (errorClass uncorrectable) source (s.unitPart unit) number 0) (BitVec.ofNat 64 (32 * i)) new.count

/-- The SOURCE of a core's memory (R313). -/
def coreSource (m : CoreMem) : Nat :=
  match m with
  | .team => 4
  | .cache => 5
  | .registers => 6
  | .accumulators => 7
  | .weights => 8

/-- SCRUB. No access reaches the line of a pinned sector. -/
def execScrub (place : MemPlace) (uncorrectable : Bool) (s : State) : Host.Outcome State Fault Refusal :=
  if !s.takesRequests then .next s
  else
    match place with
    | .sector addr =>
      (match s.unitOf addr.toNat with
      | none => .next s
      | some u => if !Config.isGddr addr.toNat || s.linePinned (addr.toNat / 32) then .next s else .next (s.scrubSector addr.toNat u uncorrectable))
    | .home addr =>
      (match s.unitOf addr.toNat with
      | none => .next s
      | some u => .next (s.homeError addr.toNat u uncorrectable))
    | .core core mem => .next (s.machineCheck (mcWord (errorClass uncorrectable) (coreSource mem) (s.unitPart (core / 16)) core 0) 0 0)

end Sys2Proof.Machine
end

