-- ==== Sys2Proof/Machine/Registers.lean ====
section
/-! DEFINITION. The register windows (spec/16_system_architecture.md R257, R258): what a read of the host finds in a VF's window or in the PF's, and a write
to one. -/

namespace Sys2Proof.Machine

/-- A write as a quadword's value and mask: an aligned quadword or an aligned half of one; other accesses are none (R257). -/
def regWrite (offset : Nat) (size : AccessSize) (v : W64) : Option (Nat × W64 × W64) :=
  match size with
  | .b8 => if offset % 8 = 0 then some (offset, v, BitVec.allOnes 64) else none
  | .b4 =>
    if offset % 8 = 0 then some (offset, v &&& 0xFFFFFFFF, 0xFFFFFFFF)
    else if offset % 8 = 4 then some (offset - 4, v <<< 32, 0xFFFFFFFF00000000)
    else none
  | _ => none

/-- Does the mask reach bit i? -/
def reachesBit (m : W64) (i : Nat) : Bool := m.getLsbD i

/-! ### The VF's window (R257) -/

/-- VCAP0 to VCAP4: bit v stands for version v of an interface (R299). -/
def versionCap : W64 := oneBit Config.version

/-- VSEL: a write that names an unsupported version is ignored; `busy`: a stream has ENABLE = 1; `lr`: does LRVER count? -/
def vselWrite (pktver lrver : W16) (busy lr : Bool) (v m : W64) : W16 × W16 :=
  let x := merge64 (BitVec.ofNat 64 (lrver.toNat + pktver.toNat * 2 ^ 16)) v m
  if busy || (lr && decide (field x 0 16 ≠ Config.version)) || decide (field x 16 16 ≠ Config.version) then (pktver, lrver)
  else (x.extractLsb' 16 16, x.extractLsb' 0 16)

/-- Has a stream of the partition's context ENABLE = 1? -/
def State.anyEnabled (s : State) (p : Nat) : Bool :=
  match s.context? p with
  | none => false
  | some c => c.streams.any (fun e => e.2.enable)

/-- A write to a counter or selector, by its index in SYSREGS (R240): ignored unless a context is there and not stopped. -/
def State.counterWrite (s : State) (p i : Nat) (v m : W64) : State :=
  match s.context? p with
  | none => s
  | some c =>
    if c.state = .stopped ∨ c.state = .halted then s
    else s.onContext p (fun c => c.putSysreg i (merge64 ((c.sysreg i).getD 0) v m &&& sysMask i))

/-- DBGCMD (R336): OP in [1:0], GROUPID in [31:16], TEAMID in [63:32]; LANES as last written. -/
def State.dbgWrite (s : State) (p : Nat) (lanes v : W64) : State :=
  let op := field v 0 2
  if op = 1 ∨ op = 2 then s.dbgCmd p (decide (op = 2)) (v.extractLsb' 32 32) (v.extractLsb' 16 16) lanes
  else s.onPart p (fun x => { x with dbgStat := 2 })

/-- A write to quadword `o` of a VF's window. -/
def State.vfWrite (s : State) (p o : Nat) (v m : W64) : State :=
  match s.part? p with
  | none => s
  | some x =>
    if s.hostCut p || !s.pf.ready then s
    else if o < 0x1000 then s.streamWrite (.user p (o / 64)) (o % 64 / 8) v m
    else if o = 0x1000 then s.onPart p (fun x => { x with wintab := merge64 x.wintab v m &&& 0x00FFFFFFFFFFFFFF })
    else if o = 0x1008 then (if reachesBit m 0 then s.winStart p (field v 0 16) else s)
    else if o = 0x1010 then s.dbgWrite p x.dbgLanes (v &&& m)
    else if o = 0x1018 then s.onPart p (fun x => { x with dbgLanes := merge64 x.dbgLanes v m })
    else if o = 0x1020 then
      let w := merge64 (BitVec.ofNat 64 (x.trBase.toNat + x.trLog2.toNat * 2 ^ 56)) v m
      s.onPart p (fun x => { x with trBase := w.extractLsb' 0 52, trLog2 := w.extractLsb' 56 5 })
    else if o = 0x1038 then s.onPart p (fun x => { x with trCons := merge64 x.trCons v m })
    else if o = 0x1040 then s.sampWrite p v m
    else if o = 0x1048 then
      let r := vselWrite x.pktver x.lrver (s.anyEnabled p) true v m
      s.onPart p (fun x => { x with pktver := r.1, lrver := r.2 })
    else if 0x1080 ≤ o ∧ o < 0x10C0 then s.counterWrite p (8 + (o - 0x1080) / 8) v m
    else if 0x10C0 ≤ o ∧ o < 0x1100 then s.counterWrite p (16 + (o - 0x10C0) / 8) v m
    else if 0x1100 ≤ o ∧ o < 0x1140 then s.counterWrite p (24 + (o - 0x1100) / 8) v m
    else s

/-- What quadword `o` of a VF's window reads: 0 at an offset that no table lists and in a field of access W (R5, R6). -/
def State.vfRead (s : State) (p o : Nat) : W64 :=
  match s.part? p with
  | none => 0
  | some x =>
    if o < 0x1000 then (match s.stream (.user p (o / 64)) with
      | none => 0
      | some d => BitVec.ofNat 64 (d.bits / 2 ^ (64 * (o % 64 / 8))))
    else if o = 0x1000 then x.wintab
    else if o = 0x1008 then BitVec.ofNat 64 (x.winStat % 4 * 2 ^ 62)
    else if o = 0x1010 then BitVec.ofNat 64 (x.dbgStat % 4 * 4)
    else if o = 0x1020 then BitVec.ofNat 64 (x.trBase.toNat + x.trLog2.toNat * 2 ^ 56)
    else if o = 0x1028 then BitVec.ofNat 64 (x.trLost.toNat * 2 ^ 32)
    else if o = 0x1030 then x.trProd
    else if o = 0x1038 then x.trCons
    else if o = 0x1040 then x.sampctl
    else if o = 0x1048 then BitVec.ofNat 64 (x.lrver.toNat + x.pktver.toNat * 2 ^ 16)
    else if 0x1080 ≤ o ∧ o < 0x10C0 then s.readSysreg p (8 + (o - 0x1080) / 8)
    else if 0x10C0 ≤ o ∧ o < 0x1100 then s.readSysreg p (16 + (o - 0x10C0) / 8)
    else if 0x1100 ≤ o ∧ o < 0x1140 then s.readSysreg p (24 + (o - 0x1100) / 8)
    else if 0x1140 ≤ o ∧ o < 0x1168 then versionCap
    else 0

/-! ### The PF's window (R258) -/

/-- BOOTSTAT (R344). -/
def Pf.bootstat (f : Pf) : W64 :=
  BitVec.ofNat 64 (f.bootStep % 16 + (if f.ready then 2 ^ 4 else 0) + (if f.failed then 2 ^ 5 else 0) + f.failStep % 16 * 2 ^ 12 + f.failUnit.toNat * 2 ^ 16)

/-- PWRCTL (R345). -/
def Pf.pwrctl (f : Pf) : W64 :=
  BitVec.ofNat 64 (f.target % 8 + f.current % 8 * 2 ^ 4 + f.pwrStatus % 4 * 2 ^ 8 + (if f.thermtrip then 2 ^ 16 else 0) + f.temp.toNat * 2 ^ 24)

/-- What quadword `o` of the PF's window reads. -/
def State.pfRead (s : State) (o : Nat) : W64 :=
  let f := s.pf
  if o = 0 then f.bootstat
  else if o = 0x08 then f.pwrctl
  else if o = 0x10 then (if f.tblock then 1 else 0)
  else if o = 0x20 then f.mcBase.setWidth 64
  else if o = 0x28 then BitVec.ofNat 64 (f.mcLog2.toNat + f.mcLost.toNat * 2 ^ 32)
  else if o = 0x30 then f.mcProd
  else if o = 0x38 then f.mcCons
  else if 0x40 ≤ o ∧ o < 0x68 then versionCap
  else if o = 0x68 then BitVec.ofNat 64 (f.lrver.toNat + f.pktver.toNat * 2 ^ 16)
  else if 0x80 ≤ o ∧ o < 0xC0 then BitVec.ofNat 64 (f.mgmt.bits / 2 ^ (64 * ((o - 0x80) / 8)))
  else 0

/-- What a read of the host finds: an aligned quadword, or an aligned half of one; none where the read completes with UR: another form, or a VF whose secure
state has ended (R321). -/
def State.regRead (s : State) (win : WindowRef) (offset : Nat) (size : AccessSize) : Option W64 :=
  let q (o : Nat) : Option W64 := match win with
    | .vf p => if s.hostCut p then none else some (s.vfRead p o)
    | .pf => some (s.pfRead o)
  match size with
  | .b8 => if offset % 8 = 0 then q offset else none
  | .b4 => if offset % 4 = 0 then (q (offset / 8 * 8)).map (fun (v : W64) => (v >>> (8 * (offset % 8))) &&& 0xFFFFFFFF) else none
  | _ => none

/-- A write to quadword `o` of the PF's window. Before READY only the management stream takes writes (R343). -/
def State.pfWrite (s : State) (o : Nat) (v m : W64) : State :=
  if 0x80 ≤ o ∧ o < 0xC0 then s.streamWrite .mgmt ((o - 0x80) / 8) v m
  else if !s.pf.ready then s
  else if o = 0x08 then
    (if reachesBit m 0 then
      let s1 := if v.getLsbD 16 then s.clearTrip else s
      s1.setTarget (field v 0 3)
    else s)
  else if o = 0x20 then { s with pf := { s.pf with mcBase := (merge64 (s.pf.mcBase.setWidth 64) v m).extractLsb' 0 52 } }
  else if o = 0x28 then { s with pf := { s.pf with mcLog2 := (merge64 (s.pf.mcLog2.setWidth 64) v m).extractLsb' 0 5 } }
  else if o = 0x38 then { s with pf := { s.pf with mcCons := merge64 s.pf.mcCons v m } }
  else if o = 0x68 then
    let r := vselWrite s.pf.pktver s.pf.lrver s.pf.mgmt.enable false v m
    { s with pf := { s.pf with pktver := r.1, lrver := r.2 } }
  else s

/-- REGISTER_WRITE. -/
def execRegisterWrite (win : WindowRef) (offset : W16) (size : AccessSize) (value : W64) (s : State) : Host.Outcome State Fault Refusal :=
  match regWrite offset.toNat size value with
  | none => .next s
  | some (o, v, m) =>
    match win with
    | .vf p => .next (s.vfWrite p o v m)
    | .pf => .next (s.pfWrite o v m)

end Sys2Proof.Machine
end

