-- ==== Sys2Proof/Machine/Dispatch.lean ====
section
/-! DEFINITION. The meaning of every step: one arm for each row of spec/opcode_table.json. -/

namespace Sys2Proof.Machine

def exec (i : Instr) (s : State) : Host.Outcome State Fault Refusal :=
  match i with
  | .vadd d a b => Sys2Proof.Machine.execVadd d a b s
  | .vsub d a b => Sys2Proof.Machine.execVsub d a b s
  | .vmul d a b => Sys2Proof.Machine.execVmul d a b s
  | .vmulhS d a b => Sys2Proof.Machine.execVmulhS d a b s
  | .vmulhZ d a b => Sys2Proof.Machine.execVmulhZ d a b s
  | .vmad d a b => Sys2Proof.Machine.execVmad d a b s
  | .vminS d a b => Sys2Proof.Machine.execVminS d a b s
  | .vminZ d a b => Sys2Proof.Machine.execVminZ d a b s
  | .vmaxS d a b => Sys2Proof.Machine.execVmaxS d a b s
  | .vmaxZ d a b => Sys2Proof.Machine.execVmaxZ d a b s
  | .vaddsS d a b => Sys2Proof.Machine.execVaddsS d a b s
  | .vaddsZ d a b => Sys2Proof.Machine.execVaddsZ d a b s
  | .vsubsS d a b => Sys2Proof.Machine.execVsubsS d a b s
  | .vsubsZ d a b => Sys2Proof.Machine.execVsubsZ d a b s
  | .vdivS d a b => Sys2Proof.Machine.execVdivS d a b s
  | .vdivZ d a b => Sys2Proof.Machine.execVdivZ d a b s
  | .vremS d a b => Sys2Proof.Machine.execVremS d a b s
  | .vremZ d a b => Sys2Proof.Machine.execVremZ d a b s
  | .vand d a b => Sys2Proof.Machine.execVand d a b s
  | .vor d a b => Sys2Proof.Machine.execVor d a b s
  | .vxor d a b => Sys2Proof.Machine.execVxor d a b s
  | .vandn d a b => Sys2Proof.Machine.execVandn d a b s
  | .vsel d a b => Sys2Proof.Machine.execVsel d a b s
  | .vshl d a b => Sys2Proof.Machine.execVshl d a b s
  | .vshrZ d a b => Sys2Proof.Machine.execVshrZ d a b s
  | .vshrS d a b => Sys2Proof.Machine.execVshrS d a b s
  | .vrotl d a b => Sys2Proof.Machine.execVrotl d a b s
  | .vpopc d a => Sys2Proof.Machine.execVpopc d a s
  | .vclz d a => Sys2Proof.Machine.execVclz d a s
  | .vbrev d a => Sys2Proof.Machine.execVbrev d a s
  | .vbfxZ d a b => Sys2Proof.Machine.execVbfxZ d a b s
  | .vbfxS d a b => Sys2Proof.Machine.execVbfxS d a b s
  | .vbfi d a b => Sys2Proof.Machine.execVbfi d a b s
  | .vcmpEq d a b => Sys2Proof.Machine.execVcmpEq d a b s
  | .vcmpNe d a b => Sys2Proof.Machine.execVcmpNe d a b s
  | .vcmpLtS d a b => Sys2Proof.Machine.execVcmpLtS d a b s
  | .vcmpLtZ d a b => Sys2Proof.Machine.execVcmpLtZ d a b s
  | .vcmpLeS d a b => Sys2Proof.Machine.execVcmpLeS d a b s
  | .vcmpLeZ d a b => Sys2Proof.Machine.execVcmpLeZ d a b s
  | .vmov d a => Sys2Proof.Machine.execVmov d a s
  | .vbcast d a => Sys2Proof.Machine.execVbcast d a s
  | .vext d a b => Sys2Proof.Machine.execVext d a b s
  | .vins d a b => Sys2Proof.Machine.execVins d a b s
  | .sadd d a b => Sys2Proof.Machine.execSadd d a b s
  | .ssub d a b => Sys2Proof.Machine.execSsub d a b s
  | .smul d a b => Sys2Proof.Machine.execSmul d a b s
  | .smulhS d a b => Sys2Proof.Machine.execSmulhS d a b s
  | .smulhZ d a b => Sys2Proof.Machine.execSmulhZ d a b s
  | .sminS d a b => Sys2Proof.Machine.execSminS d a b s
  | .sminZ d a b => Sys2Proof.Machine.execSminZ d a b s
  | .smaxS d a b => Sys2Proof.Machine.execSmaxS d a b s
  | .smaxZ d a b => Sys2Proof.Machine.execSmaxZ d a b s
  | .sdivS d a b => Sys2Proof.Machine.execSdivS d a b s
  | .sdivZ d a b => Sys2Proof.Machine.execSdivZ d a b s
  | .sremS d a b => Sys2Proof.Machine.execSremS d a b s
  | .sremZ d a b => Sys2Proof.Machine.execSremZ d a b s
  | .sand d a b => Sys2Proof.Machine.execSand d a b s
  | .sor d a b => Sys2Proof.Machine.execSor d a b s
  | .sxor d a b => Sys2Proof.Machine.execSxor d a b s
  | .sandn d a b => Sys2Proof.Machine.execSandn d a b s
  | .sshl d a b => Sys2Proof.Machine.execSshl d a b s
  | .sshrZ d a b => Sys2Proof.Machine.execSshrZ d a b s
  | .sshrS d a b => Sys2Proof.Machine.execSshrS d a b s
  | .spopc d a => Sys2Proof.Machine.execSpopc d a s
  | .sclz d a => Sys2Proof.Machine.execSclz d a s
  | .scmpEq d a b => Sys2Proof.Machine.execScmpEq d a b s
  | .scmpNe d a b => Sys2Proof.Machine.execScmpNe d a b s
  | .scmpLtS d a b => Sys2Proof.Machine.execScmpLtS d a b s
  | .scmpLtZ d a b => Sys2Proof.Machine.execScmpLtZ d a b s
  | .scmpLeS d a b => Sys2Proof.Machine.execScmpLeS d a b s
  | .scmpLeZ d a b => Sys2Proof.Machine.execScmpLeZ d a b s
  | .smov d a => Sys2Proof.Machine.execSmov d a s
  | .ssel d a b => Sys2Proof.Machine.execSsel d a b s
  | .vaddi d a k => Sys2Proof.Machine.execVaddi d a k s
  | .vmuli d a k => Sys2Proof.Machine.execVmuli d a k s
  | .vandi d a k => Sys2Proof.Machine.execVandi d a k s
  | .vori d a k => Sys2Proof.Machine.execVori d a k s
  | .vxori d a k => Sys2Proof.Machine.execVxori d a k s
  | .vshli d a k => Sys2Proof.Machine.execVshli d a k s
  | .vshriZ d a k => Sys2Proof.Machine.execVshriZ d a k s
  | .vshriS d a k => Sys2Proof.Machine.execVshriS d a k s
  | .vcmpiEq d a k => Sys2Proof.Machine.execVcmpiEq d a k s
  | .vcmpiLtS d a k => Sys2Proof.Machine.execVcmpiLtS d a k s
  | .vcmpiLtZ d a k => Sys2Proof.Machine.execVcmpiLtZ d a k s
  | .vminiS d a k => Sys2Proof.Machine.execVminiS d a k s
  | .vmaxiS d a k => Sys2Proof.Machine.execVmaxiS d a k s
  | .saddi d a k => Sys2Proof.Machine.execSaddi d a k s
  | .smuli d a k => Sys2Proof.Machine.execSmuli d a k s
  | .sandi d a k => Sys2Proof.Machine.execSandi d a k s
  | .sori d a k => Sys2Proof.Machine.execSori d a k s
  | .sxori d a k => Sys2Proof.Machine.execSxori d a k s
  | .sshli d a k => Sys2Proof.Machine.execSshli d a k s
  | .sshriZ d a k => Sys2Proof.Machine.execSshriZ d a k s
  | .sshriS d a k => Sys2Proof.Machine.execSshriS d a k s
  | .scmpiEq d a k => Sys2Proof.Machine.execScmpiEq d a k s
  | .scmpiLtS d a k => Sys2Proof.Machine.execScmpiLtS d a k s
  | .scmpiLtZ d a k => Sys2Proof.Machine.execScmpiLtZ d a k s
  | .sminiS d a k => Sys2Proof.Machine.execSminiS d a k s
  | .smaxiS d a k => Sys2Proof.Machine.execSmaxiS d a k s
  | .vmovi d k => Sys2Proof.Machine.execVmovi d k s
  | .vmovhi d k => Sys2Proof.Machine.execVmovhi d k s
  | .smovi d k => Sys2Proof.Machine.execSmovi d k s
  | .smovhi d k => Sys2Proof.Machine.execSmovhi d k s
  | .fadd d a b => Sys2Proof.Machine.execFadd d a b s
  | .fsub d a b => Sys2Proof.Machine.execFsub d a b s
  | .fmul d a b => Sys2Proof.Machine.execFmul d a b s
  | .ffma d a b => Sys2Proof.Machine.execFfma d a b s
  | .fmin d a b => Sys2Proof.Machine.execFmin d a b s
  | .fmax d a b => Sys2Proof.Machine.execFmax d a b s
  | .fabs d a => Sys2Proof.Machine.execFabs d a s
  | .fneg d a => Sys2Proof.Machine.execFneg d a s
  | .fdiv d a b => Sys2Proof.Machine.execFdiv d a b s
  | .fsqrt d a => Sys2Proof.Machine.execFsqrt d a s
  | .frcp d a => Sys2Proof.Machine.execFrcp d a s
  | .fcmpEq d a b => Sys2Proof.Machine.execFcmpEq d a b s
  | .fcmpLt d a b => Sys2Proof.Machine.execFcmpLt d a b s
  | .fcmpLe d a b => Sys2Proof.Machine.execFcmpLe d a b s
  | .fcmpUn d a b => Sys2Proof.Machine.execFcmpUn d a b s
  | .fclass d a => Sys2Proof.Machine.execFclass d a s
  | .fscale d a b => Sys2Proof.Machine.execFscale d a b s
  | .ffloor d a => Sys2Proof.Machine.execFfloor d a s
  | .fceil d a => Sys2Proof.Machine.execFceil d a s
  | .ftrunc d a => Sys2Proof.Machine.execFtrunc d a s
  | .frint d a => Sys2Proof.Machine.execFrint d a s
  | .faddB2 d a b => Sys2Proof.Machine.execFaddB2 d a b s
  | .fmulB2 d a b => Sys2Proof.Machine.execFmulB2 d a b s
  | .ffmaB2 d a b => Sys2Proof.Machine.execFfmaB2 d a b s
  | .faddH2 d a b => Sys2Proof.Machine.execFaddH2 d a b s
  | .fmulH2 d a b => Sys2Proof.Machine.execFmulH2 d a b s
  | .ffmaH2 d a b => Sys2Proof.Machine.execFfmaH2 d a b s
  | .fmaxB2 d a b => Sys2Proof.Machine.execFmaxB2 d a b s
  | .fminB2 d a b => Sys2Proof.Machine.execFminB2 d a b s
  | .cvtFS d a => Sys2Proof.Machine.execCvtFS d a s
  | .cvtFZ d a => Sys2Proof.Machine.execCvtFZ d a s
  | .cvtSF d a => Sys2Proof.Machine.execCvtSF d a s
  | .cvtZF d a => Sys2Proof.Machine.execCvtZF d a s
  | .cvtB2F d a b => Sys2Proof.Machine.execCvtB2F d a b s
  | .cvtH2F d a b => Sys2Proof.Machine.execCvtH2F d a b s
  | .cvtFB2 d a n => Sys2Proof.Machine.execCvtFB2 d a n s
  | .cvtFH2 d a n => Sys2Proof.Machine.execCvtFH2 d a n s
  | .cvtNF d a b => Sys2Proof.Machine.execCvtNF d a b s
  | .cvtFN d a b => Sys2Proof.Machine.execCvtFN d a b s
  | .vpack4 d a n => Sys2Proof.Machine.execVpack4 d a n s
  | .vunpk4 d a n => Sys2Proof.Machine.execVunpk4 d a n s
  | .fexp2 d a => Sys2Proof.Machine.execFexp2 d a s
  | .flog2 d a => Sys2Proof.Machine.execFlog2 d a s
  | .frsqrt d a => Sys2Proof.Machine.execFrsqrt d a s
  | .fsinpi d a => Sys2Proof.Machine.execFsinpi d a s
  | .fcospi d a => Sys2Proof.Machine.execFcospi d a s
  | .ftanh d a => Sys2Proof.Machine.execFtanh d a s
  | .fsigm d a => Sys2Proof.Machine.execFsigm d a s
  | .vshflIdx d a b => Sys2Proof.Machine.execVshflIdx d a b s
  | .vshflUp d a b => Sys2Proof.Machine.execVshflUp d a b s
  | .vshflDn d a b => Sys2Proof.Machine.execVshflDn d a b s
  | .vshflXor d a b => Sys2Proof.Machine.execVshflXor d a b s
  | .vredAdd d a => Sys2Proof.Machine.execVredAdd d a s
  | .vredMinS d a => Sys2Proof.Machine.execVredMinS d a s
  | .vredMaxS d a => Sys2Proof.Machine.execVredMaxS d a s
  | .vredMinZ d a => Sys2Proof.Machine.execVredMinZ d a s
  | .vredMaxZ d a => Sys2Proof.Machine.execVredMaxZ d a s
  | .vredAnd d a => Sys2Proof.Machine.execVredAnd d a s
  | .vredOr d a => Sys2Proof.Machine.execVredOr d a s
  | .vredXor d a => Sys2Proof.Machine.execVredXor d a s
  | .vredFadd d a => Sys2Proof.Machine.execVredFadd d a s
  | .vredFmin d a => Sys2Proof.Machine.execVredFmin d a s
  | .vredFmax d a => Sys2Proof.Machine.execVredFmax d a s
  | .vargminS d a => Sys2Proof.Machine.execVargminS d a s
  | .vargminZ d a => Sys2Proof.Machine.execVargminZ d a s
  | .vargmaxS d a => Sys2Proof.Machine.execVargmaxS d a s
  | .vargmaxZ d a => Sys2Proof.Machine.execVargmaxZ d a s
  | .vscanAdd d a => Sys2Proof.Machine.execVscanAdd d a s
  | .vscanFadd d a => Sys2Proof.Machine.execVscanFadd d a s
  | .vballot d a => Sys2Proof.Machine.execVballot d a s
  | .vany d a => Sys2Proof.Machine.execVany d a s
  | .vall d a => Sys2Proof.Machine.execVall d a s
  | .smovsr d n => Sys2Proof.Machine.execSmovsr d n s
  | .vmovsr d n => Sys2Proof.Machine.execVmovsr d n s
  | .bnz a p o => Sys2Proof.Machine.execBnz a p o s
  | .bz a p o => Sys2Proof.Machine.execBz a p o s
  | .bsnz a p o => Sys2Proof.Machine.execBsnz a p o s
  | .bsz a p o => Sys2Proof.Machine.execBsz a p o s
  | .bra p o => Sys2Proof.Machine.execBra p o s
  | .calli p o => Sys2Proof.Machine.execCalli p o s
  | .callv d a => Sys2Proof.Machine.execCallv d a s
  | .calls d a => Sys2Proof.Machine.execCalls d a s
  | .ret => Sys2Proof.Machine.execRet s
  | .exit => Sys2Proof.Machine.execExit s
  | .jmpv d a => Sys2Proof.Machine.execJmpv d a s
  | .rjset d a => Sys2Proof.Machine.execRjset d a s
  | .rjsetm d a => Sys2Proof.Machine.execRjsetm d a s
  | .rjenter d => Sys2Proof.Machine.execRjenter d s
  | .rjquit d => Sys2Proof.Machine.execRjquit d s
  | .rjwait d => Sys2Proof.Machine.execRjwait d s
  | .rjget d a n => Sys2Proof.Machine.execRjget d a n s
  | .yield => Sys2Proof.Machine.execYield s
  | .setprio n => Sys2Proof.Machine.execSetprio n s
  | .wbase n => Sys2Proof.Machine.execWbase n s
  | .nop => Sys2Proof.Machine.execNop s
  | .brk n => Sys2Proof.Machine.execBrk n s
  | .trap n => Sys2Proof.Machine.execTrap n s
  | .frnd n => Sys2Proof.Machine.execFrnd n s
  | .vldBZ d a c k => Sys2Proof.Machine.execVldBZ d a c k s
  | .vldBS d a c k => Sys2Proof.Machine.execVldBS d a c k s
  | .vldHZ d a c k => Sys2Proof.Machine.execVldHZ d a c k s
  | .vldHS d a c k => Sys2Proof.Machine.execVldHS d a c k s
  | .vldW d a c k => Sys2Proof.Machine.execVldW d a c k s
  | .vldD d a c k => Sys2Proof.Machine.execVldD d a c k s
  | .vldQ d a c k => Sys2Proof.Machine.execVldQ d a c k s
  | .vldbc d a c k => Sys2Proof.Machine.execVldbc d a c k s
  | .vstB d a c k => Sys2Proof.Machine.execVstB d a c k s
  | .vstH d a c k => Sys2Proof.Machine.execVstH d a c k s
  | .vstW d a c k => Sys2Proof.Machine.execVstW d a c k s
  | .vstD d a c k => Sys2Proof.Machine.execVstD d a c k s
  | .vstQ d a c k => Sys2Proof.Machine.execVstQ d a c k s
  | .sldD d a c k => Sys2Proof.Machine.execSldD d a c k s
  | .sldWS d a c k => Sys2Proof.Machine.execSldWS d a c k s
  | .sldWZ d a c k => Sys2Proof.Machine.execSldWZ d a c k s
  | .sstD d a c k => Sys2Proof.Machine.execSstD d a c k s
  | .sstW d a c k => Sys2Proof.Machine.execSstW d a c k s
  | .cld d a c k => Sys2Proof.Machine.execCld d a c k s
  | .cst d a c k => Sys2Proof.Machine.execCst d a c k s
  | .aadd d a c b => Sys2Proof.Machine.execAadd d a c b s
  | .aminS d a c b => Sys2Proof.Machine.execAminS d a c b s
  | .amaxS d a c b => Sys2Proof.Machine.execAmaxS d a c b s
  | .aminZ d a c b => Sys2Proof.Machine.execAminZ d a c b s
  | .amaxZ d a c b => Sys2Proof.Machine.execAmaxZ d a c b s
  | .aand d a c b => Sys2Proof.Machine.execAand d a c b s
  | .aor d a c b => Sys2Proof.Machine.execAor d a c b s
  | .axor d a c b => Sys2Proof.Machine.execAxor d a c b s
  | .axchg d a c b => Sys2Proof.Machine.execAxchg d a c b s
  | .acas d a c b => Sys2Proof.Machine.execAcas d a c b s
  | .afadd d a c b => Sys2Proof.Machine.execAfadd d a c b s
  | .saadd d a c b => Sys2Proof.Machine.execSaadd d a c b s
  | .sacas d a c b => Sys2Proof.Machine.execSacas d a c b s
  | .fpub n => Sys2Proof.Machine.execFpub n s
  | .fsys n => Sys2Proof.Machine.execFsys n s
  | .tbinit a b => Sys2Proof.Machine.execTbinit a b s
  | .tbarrive d a b => Sys2Proof.Machine.execTbarrive d a b s
  | .tbwait a b => Sys2Proof.Machine.execTbwait a b s
  | .tbtest d a b => Sys2Proof.Machine.execTbtest d a b s
  | .teambar n => Sys2Proof.Machine.execTeambar n s
  | .lvlbar n => Sys2Proof.Machine.execLvlbar n s
  | .send d a => Sys2Proof.Machine.execSend d a s
  | .recv d a => Sys2Proof.Machine.execRecv d a s
  | .qstat d a => Sys2Proof.Machine.execQstat d a s
  | .tmwait a => Sys2Proof.Machine.execTmwait a s
  | .svc d a n => Sys2Proof.Machine.execSvc d a n s
  | .icinv n => Sys2Proof.Machine.execIcinv n s
  | .bclaim d a b => Sys2Proof.Machine.execBclaim d a b s
  | .bflow d a b => Sys2Proof.Machine.execBflow d a b s
  | .bseal d => Sys2Proof.Machine.execBseal d s
  | .bwait a => Sys2Proof.Machine.execBwait a s
  | .brelease a => Sys2Proof.Machine.execBrelease a s
  | .bstat d a => Sys2Proof.Machine.execBstat d a s
  | .coll d a b => Sys2Proof.Machine.execColl d a b s
  | .rprio a b => Sys2Proof.Machine.execRprio a b s
  | .rdemote a => Sys2Proof.Machine.execRdemote a s
  | .rpromote a b => Sys2Proof.Machine.execRpromote a b s
  | .rquery d a => Sys2Proof.Machine.execRquery d a s
  | .tset a b => Sys2Proof.Machine.execTset a b s
  | .tget d a n => Sys2Proof.Machine.execTget d a n s
  | .gset d a => Sys2Proof.Machine.execGset d a s
  | .mmx d a b => Sys2Proof.Machine.execMmx d a b s
  | .mmxz d a b => Sys2Proof.Machine.execMmxz d a b s
  | .accrd d a b => Sys2Proof.Machine.execAccrd d a b s
  | .accadd d a b => Sys2Proof.Machine.execAccadd d a b s
  | .accclr a b => Sys2Proof.Machine.execAccclr a b s
  | .tsum d a => Sys2Proof.Machine.execTsum d a s
  | .cderive d a b => Sys2Proof.Machine.execCderive d a b s
  | .cmov d a => Sys2Proof.Machine.execCmov d a s
  | .cbase d a => Sys2Proof.Machine.execCbase d a s
  | .clen d a => Sys2Proof.Machine.execClen d a s
  | .crights d a => Sys2Proof.Machine.execCrights d a s
  | .ckind d a => Sys2Proof.Machine.execCkind d a s
  | .cvalid d a => Sys2Proof.Machine.execCvalid d a s
  | .cclear d => Sys2Proof.Machine.execCclear d s
  | .bmode a b => Sys2Proof.Machine.execBmode a b s
  | .bfill a b => Sys2Proof.Machine.execBfill a b s
  | .bsplit => Sys2Proof.Machine.execBsplit s
  | .babandon => Sys2Proof.Machine.execBabandon s
  | .blo d a => Sys2Proof.Machine.execBlo d a s
  | .bhi d a => Sys2Proof.Machine.execBhi d a s
  | .bhull d a b => Sys2Proof.Machine.execBhull d a b s
  | .bwiden d a b => Sys2Proof.Machine.execBwiden d a b s
  | .tld d a b => Sys2Proof.Machine.execTld d a b s
  | .tst d a b => Sys2Proof.Machine.execTst d a b s
  | .mark n => Sys2Proof.Machine.execMark n s
  | .rti => Sys2Proof.Machine.execRti s
  | .hcall n => Sys2Proof.Machine.execHcall n s
  | .mfsr d n => Sys2Proof.Machine.execMfsr d n s
  | .mtsr n b => Sys2Proof.Machine.execMtsr n b s
  | .otinv a b => Sys2Proof.Machine.execOtinv a b s
  | .otswap a b => Sys2Proof.Machine.execOtswap a b s
  | .keyrev a => Sys2Proof.Machine.execKeyrev a s
  | .ctxstop a => Sys2Proof.Machine.execCtxstop a s
  | .ctxresume a => Sys2Proof.Machine.execCtxresume a s
  | .ctxkill a => Sys2Proof.Machine.execCtxkill a s
  | .frpush a => Sys2Proof.Machine.execFrpush a s
  | .halt => Sys2Proof.Machine.execHalt s
  | .variableLatencyResult x1 x2 => Sys2Proof.Machine.execVariableLatencyResult x1 x2 s
  | .operandLogReplay x1 => Sys2Proof.Machine.execOperandLogReplay x1 s
  | .orphanedSet x1 => Sys2Proof.Machine.execOrphanedSet x1 s
  | .flowEnd x1 => Sys2Proof.Machine.execFlowEnd x1 s
  | .tsumEnd x1 => Sys2Proof.Machine.execTsumEnd x1 s
  | .rendezvous x1 x2 => Sys2Proof.Machine.execRendezvous x1 x2 s
  | .matrixOperationEnd x1 => Sys2Proof.Machine.execMatrixOperationEnd x1 s
  | .gangOrphaned x1 => Sys2Proof.Machine.execGangOrphaned x1 s
  | .barrierTimeout x1 => Sys2Proof.Machine.execBarrierTimeout x1 s
  | .watchdog x1 => Sys2Proof.Machine.execWatchdog x1 s
  | .tmwaitExpiry x1 => Sys2Proof.Machine.execTmwaitExpiry x1 s
  | .svcReply x1 x2 => Sys2Proof.Machine.execSvcReply x1 x2 s
  | .hcallReply x1 x2 x3 => Sys2Proof.Machine.execHcallReply x1 x2 x3 s
  | .boundsEvaluation x1 => Sys2Proof.Machine.execBoundsEvaluation x1 s
  | .tileIssueLimit x1 => Sys2Proof.Machine.execTileIssueLimit x1 s
  | .settledDispatch x1 => Sys2Proof.Machine.execSettledDispatch x1 s
  | .elementDispatch x1 => Sys2Proof.Machine.execElementDispatch x1 s
  | .fill x1 => Sys2Proof.Machine.execFill x1 s
  | .roundStart x1 => Sys2Proof.Machine.execRoundStart x1 s
  | .roundDone x1 x2 => Sys2Proof.Machine.execRoundDone x1 x2 s
  | .timeout x1 => Sys2Proof.Machine.execTimeout x1 s
  | .residencyMove x1 x2 => Sys2Proof.Machine.execResidencyMove x1 x2 s
  | .softfault x1 => Sys2Proof.Machine.execSoftfault x1 s
  | .hotness x1 => Sys2Proof.Machine.execHotness x1 s
  | .resolve x1 => Sys2Proof.Machine.execResolve x1 s
  | .hotclr x1 x2 => Sys2Proof.Machine.execHotclr x1 x2 s
  | .launch x1 x2 => Sys2Proof.Machine.execLaunch x1 x2 s
  | .tlaunch x1 x2 => Sys2Proof.Machine.execTlaunch x1 x2 s
  | .tlaunchTick x1 x2 => Sys2Proof.Machine.execTlaunchTick x1 x2 s
  | .placement x1 x2 => Sys2Proof.Machine.execPlacement x1 x2 s
  | .launchRetirement x1 => Sys2Proof.Machine.execLaunchRetirement x1 s
  | .semwait x1 x2 => Sys2Proof.Machine.execSemwait x1 x2 s
  | .semwaitLoad x1 x2 => Sys2Proof.Machine.execSemwaitLoad x1 x2 s
  | .semsignal x1 x2 => Sys2Proof.Machine.execSemsignal x1 x2 s
  | .flush x1 x2 => Sys2Proof.Machine.execFlush x1 x2 s
  | .capwrite x1 x2 => Sys2Proof.Machine.execCapwrite x1 x2 s
  | .ctxstopPacket => Sys2Proof.Machine.execCtxstopPacket s
  | .ctxresumePacket => Sys2Proof.Machine.execCtxresumePacket s
  | .ctxkillPacket => Sys2Proof.Machine.execCtxkillPacket s
  | .otinvPacket => Sys2Proof.Machine.execOtinvPacket s
  | .otswapPacket => Sys2Proof.Machine.execOtswapPacket s
  | .keyrevPacket => Sys2Proof.Machine.execKeyrevPacket s
  | .frames => Sys2Proof.Machine.execFrames s
  | .create => Sys2Proof.Machine.execCreate s
  | .destroy => Sys2Proof.Machine.execDestroy s
  | .keyload => Sys2Proof.Machine.execKeyload s
  | .keyfree => Sys2Proof.Machine.execKeyfree s
  | .doorbell x1 x2 => Sys2Proof.Machine.execDoorbell x1 x2 s
  | .enableSet x1 => Sys2Proof.Machine.execEnableSet x1 s
  | .enableClear x1 => Sys2Proof.Machine.execEnableClear x1 s
  | .errorClear x1 => Sys2Proof.Machine.execErrorClear x1 s
  | .registerWrite x1 x2 x3 x4 => Sys2Proof.Machine.execRegisterWrite x1 x2 x3 x4 s
  | .engineStop x1 x2 x3 => Sys2Proof.Machine.execEngineStop x1 x2 x3 s
  | .activation x1 => Sys2Proof.Machine.execActivation x1 s
  | .snapshotRollback x1 => Sys2Proof.Machine.execSnapshotRollback x1 s
  | .hostAccess x1 x2 x3 x4 x5 => Sys2Proof.Machine.execHostAccess x1 x2 x3 x4 x5 s
  | .hostSnoop x1 x2 x3 => Sys2Proof.Machine.execHostSnoop x1 x2 x3 s
  | .peerAccess x1 x2 x3 x4 x5 => Sys2Proof.Machine.execPeerAccess x1 x2 x3 x4 x5 s
  | .windowRequest x1 x2 x3 x4 x5 x6 x7 x8 => Sys2Proof.Machine.execWindowRequest x1 x2 x3 x4 x5 x6 x7 x8 s
  | .atomicopCompletion x1 x2 => Sys2Proof.Machine.execAtomicopCompletion x1 x2 s
  | .serviceReply x1 => Sys2Proof.Machine.execServiceReply x1 s
  | .hostWriteRejected x1 => Sys2Proof.Machine.execHostWriteRejected x1 s
  | .tdiLeavesRun x1 x2 => Sys2Proof.Machine.execTdiLeavesRun x1 x2 s
  | .spdmSessionEnd x1 => Sys2Proof.Machine.execSpdmSessionEnd x1 s
  | .heartbeatTimeout x1 => Sys2Proof.Machine.execHeartbeatTimeout x1 s
  | .flr x1 => Sys2Proof.Machine.execFlr x1 s
  | .portTraining x1 x2 x3 x4 => Sys2Proof.Machine.execPortTraining x1 x2 x3 x4 s
  | .flit x1 x2 => Sys2Proof.Machine.execFlit x1 x2 s
  | .linkLoss x1 x2 => Sys2Proof.Machine.execLinkLoss x1 x2 s
  | .timebaseFlit x1 x2 x3 x4 x5 => Sys2Proof.Machine.execTimebaseFlit x1 x2 x3 x4 x5 s
  | .timebaseUnlocked => Sys2Proof.Machine.execTimebaseUnlocked s
  | .winctl x1 x2 x3 => Sys2Proof.Machine.execWinctl x1 x2 x3 s
  | .windowRevocationDone x1 => Sys2Proof.Machine.execWindowRevocationDone x1 s
  | .release x1 x2 x3 x4 => Sys2Proof.Machine.execRelease x1 x2 x3 x4 s
  | .step x1 x2 x3 x4 => Sys2Proof.Machine.execStep x1 x2 x3 x4 s
  | .sampctl x1 x2 => Sys2Proof.Machine.execSampctl x1 x2 s
  | .sample x1 => Sys2Proof.Machine.execSample x1 s
  | .powerOn x1 => Sys2Proof.Machine.execPowerOn x1 s
  | .targetQ0 => Sys2Proof.Machine.execTargetQ0 s
  | .targetQ1 => Sys2Proof.Machine.execTargetQ1 s
  | .targetQ2 => Sys2Proof.Machine.execTargetQ2 s
  | .targetQ3 => Sys2Proof.Machine.execTargetQ3 s
  | .targetQ4 => Sys2Proof.Machine.execTargetQ4 s
  | .powerStateChangeDone => Sys2Proof.Machine.execPowerStateChangeDone s
  | .thermalTrip x1 => Sys2Proof.Machine.execThermalTrip x1 s
  | .thermtripClear x1 => Sys2Proof.Machine.execThermtripClear x1 s
  | .tdispRequest x1 x2 => Sys2Proof.Machine.execTdispRequest x1 x2 s
  | .spdmRequest x1 x2 => Sys2Proof.Machine.execSpdmRequest x1 x2 s
  | .hostLinkRetraining => Sys2Proof.Machine.execHostLinkRetraining s
  | .portDown x1 => Sys2Proof.Machine.execPortDown x1 s
  | .scrub x1 x2 => Sys2Proof.Machine.execScrub x1 x2 s
  | .powerRemoval => Sys2Proof.Machine.execPowerRemoval s

end Sys2Proof.Machine
end

