-- ==== Sys2Proof/Machine/Fetch.lean ====
section
/-! DEFINITION. Fetching and issuing (spec/09_encoding_and_assembly.md R138 to R140; spec/17_translation_and_migration.md R275;
spec/02_execution_model.md R23, R31, R32, R37): the octet of a PC, the ready entries of a group, and the issue of one word. -/

namespace Sys2Proof.Machine

/-! ### Fetch -/

/-- What a group finds at a PC: a word with the stall count after it, a hard fault, nothing yet (a page that stalls the group; a key that is being revoked), or an
address that does not exist. -/
inductive Fetched where
  | word (i : Instr) (stall : Nat)
  | hard (h : Hard)
  | stall
  | later
  | beyond (addr : Nat)
  deriving DecidableEq, Repr

/-- Word k of an octet, little-endian. -/
def octetWord (bs : List Byte) (k : Nat) : W32 := BitVec.ofNat 32 (ofBytes ((bs.drop (4 * k)).take 4))

/-- R139, R138: the word at a PC of an octet. -/
noncomputable def octetInstr (bs : List Byte) (pc : Pc) : Fetched :=
  let ctl := octetWord bs 0
  let k := pc.toNat % 32 / 4
  if field ctl 28 4 ≠ 0xF then .hard (Hard.plain fcIllCtl)
  else
    match decodeWord (octetWord bs k) with
    | none => .hard (Hard.plain fcIllInst)
    | some i => .word i (field ctl (4 * (k - 1)) 4)

/-- R275: what a group finds at a PC of an octet that it holds. -/
noncomputable def Octet.at (h : Octet) (pc : Pc) : Fetched :=
  if h.exec then octetInstr h.bytes pc else .hard ⟨fcExec, none, h.obj, h.addr, 0⟩

/-- R139, R275: what a group would issue from a PC: from an octet that it holds, else from one that it fetches. A page that is absent or migrating stalls its issue. -/
noncomputable def State.fetch (s : State) (uid : Nat) (g : Group) (pc : Pc) : Fetched × State :=
  let o := pc.toNat / 32 * 32
  let hold (s : State) (h : Octet) : State := s.onGroup uid (·.holdOctet h)
  match fetchCheck (g.regs.rc 29) o with
  | some h => (.hard h, s)
  | none =>
    if pc.toNat % 4 ≠ 0 ∨ isWord0 pc then (.hard (Hard.plain fcIllCtl), s)
    else match g.octetOf o with
      | some h => (h.at pc, hold s h)
      | none =>
        match s.fetchAt uid g o with
        | (.held h, s1) => (h.at pc, hold s1 h)
        | (.hard h, s1) => (.hard h, s1)
        | (.stall, s1) => (.stall, s1.onGroup uid (fun g => { g with fetchHeld := true }))
        | (.later, s1) => (.later, s1)
        | (.beyond a, s1) => (.beyond a, s1)

/-! ### Readiness (R23, R37, R140, R141, R351) -/

/-- Does a register wait on the scoreboard? -/
def Group.waitsOn (g : Group) (rs : List RegName) : Bool := g.pend.any (fun p => rs.contains p.reg)

/-- Is the word of an entry ready: the scoreboard clears its registers, an instruction that must find the operand log empty does, and no earlier
memory-class word of the group is held? -/
def Group.ready (g : Group) (pc : Pc) (m : W64) (i : Instr) : Bool :=
  let sh := shape i
  !g.waitsOn (g.uses i m) &&
  !(sh.empty && (!g.log.isEmpty)) &&
  (match g.memHold with
    | none => true
    | some p => decide (p = pc) || !(sh.mem || sh.empty))

/-- R106: an evaluation goes no further than 4,096 issues. -/
def Group.limited (g : Group) : Bool := decide (g.mode = 1) && decide (4096 ≤ (g.dispatch.map (·.issues)).getD 0)

/-- May the group take an issue at all? -/
def State.mayIssue (s : State) (g : Group) : Bool :=
  s.clocked && !g.halted && !g.fetchHeld && !g.limited && decide (g.fault = none) && decide (g.stall ≤ s.aclk) && s.mayRun g &&
  (match s.team? g.team with
    | none => false
    | some t => !t.stopped) &&
  decide (g.log.length < 8)

/-! ### Single-step (R336): lanes that have issued their word park again -/

/-- Park the stepped lanes of a group that are back in RUN, each with a STEP record; `stepped` marks a lane that is parked before its word. -/
def State.parkStepped (s : State) (uid : Nat) (g : Group) (tid : Nat) : List Nat → State
  | [] => s
  | l :: ls =>
    let x := g.lane l
    let s1 :=
      if x.stepped && decide (x.state = .run) then
        (s.trace g.part (traceQ0 2 0 g.gid tid) (traceQ1 x.pc l) 0).onGroup uid
          (fun g => g.onLanes (oneBit l) (fun _ x => { x with state := .brk, stepping := false }))
      else s
    State.parkStepped s1 uid g tid ls

/-! ### Issue -/

/-- The delay of a causal experiment (R339). -/
def Context.delay (c : Context) (pc : Pc) : Nat :=
  if c.cxdly.getLsbD 63 && !(decide (field c.cxlo 0 48 ≤ pc.toNat) && decide (pc.toNat < field c.cxhi 0 48)) then field c.cxdly 0 12 else 0

/-- R140, R142, R339, R340: what the issue of a word leaves in its group and the counters. -/
def State.account (s : State) (uid : Nat) (g0 : Group) (pc : Pc) (mask : W64) (stall : Nat) : State :=
  let delay := if g0.level = .u then ((s.context? g0.part).map (·.delay pc)).getD 0 else 0
  let n := max stall 1
  let s1 := s.onGroup uid (fun g =>
    { g with stall := s.aclk + n + delay, last := some s.aclk, issued := (pc, (lowestLane mask).getD 0),
             recent := (g.recent.map (fun r => { r with left := r.left - n })).filter (fun r => decide (0 < r.left)),
             dispatch := g.dispatch.map (fun d => { d with issues := d.issues + 1 }) })
  let s2 := s1.onGroup uid (fun g => (g.dropJumped pc mask).onLanes mask (fun _ x => { x with stepped := x.stepping }))
  (s2.countU g0.level g0.part 1 1).countU g0.level g0.part 6 delay

/-- Run a word for an entry. -/
def State.runWord (s : State) (uid : Nat) (e : Entry) (i : Instr) : Host.Outcome State Fault Refusal :=
  exec i { s with cur := some ⟨uid, e.pc, e.mask, i, none⟩ }

/-- The state after a turn: no word is at issue. -/
def closeTurn : Host.Outcome State Fault Refusal → Host.Outcome State Fault Refusal
  | .next s => .next { s with cur := none }
  | r => r

/-- Has the word just issued put its group on hold: it waits at this PC with no effect? -/
def State.heldAt (s : State) (uid : Nat) (pc : Pc) : Bool :=
  match s.group? uid with
  | none => false
  | some g => decide (g.memHold = some pc) && g.lanes.any (fun x => decide (x.state = .run ∧ x.pc = pc))

/-- The accumulator instructions, which first wait for the group's matrix tokens (R231). -/
def isAcc : Instr → Bool
  | .accrd _ _ _ => true
  | .accadd _ _ _ => true
  | .accclr _ _ => true
  | _ => false

/-- In bounds mode a fault of the fetch abandons the tiles (R103). -/
noncomputable def Fetched.inMode (g : Group) (f : Fetched) : Fetched :=
  match f with
  | .hard h => if g.mode = 1 then .word .babandon 1 else .hard h
  | f => f

/-- R32: the entry that is tried next; the one that yielded comes after the others (R177). -/
def pickEntry (yielded : Option Pc) (es : List Entry) : Option Entry :=
  (selectEntry (es.filter (fun e => decide (some e.pc ≠ yielded)))).orElse (fun _ => selectEntry es)

/-- Issue a word from an entry: its age starts anew. -/
def State.issueWord (s : State) (uid : Nat) (e : Entry) (i : Instr) : Host.Outcome State Fault Refusal :=
  (s.onGroup uid (fun g => { g.ageIssue e.mask with yielded := none })).runWord uid e i

/-- A word that waits has not issued: its group stands as before, on hold. -/
def State.undoIssue (s : State) (uid : Nat) (g : Group) : State :=
  ({ s with cur := none } : State).onGroup uid (fun x => { x with lanes := g.lanes, yielded := g.yielded })

/-- The issue of a group: the entries in the order of R32, those that are not ready, or whose word waits, being passed over. n bounds their number. -/
noncomputable def State.tryEntries (s : State) (uid : Nat) : Nat → List Entry → Host.Outcome State Fault Refusal
  | 0, _ => .next s
  | n + 1, es =>
    match s.group? uid with
    | none => .next s
    | some g =>
      match pickEntry g.yielded es with
      | none => .next s
      | some e =>
        let rest := es.filter (fun x => decide (x ≠ e))
        let (f, s1) := s.fetch uid g e.pc
        match f.inMode g with
        | .stall => .next s1
        | .later => State.tryEntries s1 uid n rest
        | .beyond a => .fault (.noSuchAddress a)
        | .hard h => .next ((s1.onGroup uid (fun g => g.ageIssue e.mask)).takeFault uid e.mask h false)
        | .word i stall =>
          if !g.ready e.pc e.mask i || (isAcc i && s1.matrixBusy uid) then State.tryEntries s1 uid n rest
          else match s1.issueWord uid e i with
            | .next s2 => if s2.heldAt uid e.pc then State.tryEntries (s2.undoIssue uid g) uid n rest else .next (({ s2 with cur := none } : State).account uid g e.pc e.mask stall)
            | r => r

/-- The turn of a group: it issues one word from the entry of R32, if one is ready. -/
noncomputable def State.groupTurn (s : State) (uid : Nat) : Host.Outcome State Fault Refusal :=
  match s.group? uid with
  | none => .next s
  | some g => if s.mayIssue g then s.tryEntries uid 65 g.frontier else .next s

/-! ### After a turn -/

/-- The words of a frontier that stand in the octets that the group holds. -/
noncomputable def Group.heldWords (g : Group) : List (Pc × Instr) :=
  let find (e : Entry) : Option Fetched := (g.octetOf (e.pc.toNat / 32 * 32)).map (fun (h : Octet) => h.at e.pc)
  g.frontier.filterMap (fun (e : Entry) => match find e with
    | some (.word i _) => some (e.pc, i)
    | _ => none)

/-- The groups after a turn: lanes that arrived at a PC have merged into its entry (R31), stepped lanes have parked (R336; those of a group
that a fault has stopped stand in RUN at the word, R305), and where the partition samples the words of
the frontier are at hand (R342). -/
noncomputable def State.regroup (s : State) : State :=
  let stepped := s.groups.filter (fun e => e.2.fault.isNone && e.2.lanes.any (fun x => x.stepped && decide (x.state = .run)))
  let s1 := stepped.foldl (fun s e => s.parkStepped e.1 e.2 (((s.team? e.2.team).map (·.tid)).getD 0) (List.range e.2.width)) s
  let samples (p : Nat) : Bool := ((s.part? p).map (fun x => x.sampctl.getLsbD 63)).getD false
  { s1 with groups := s1.groups.map (fun e => (e.1, { e.2.merge with fetched := if samples e.2.part then e.2.heldWords else [] })) }

end Sys2Proof.Machine
end

