-- ==== Sys2Proof/Machine/Sched.lean ====
section
/-! DEFINITION. Whose turn it is when nothing waits on the agenda, and the passing of time (spec/01_device_at_a_glance.md R13;
spec/02_execution_model.md R23; spec/25_bringup_power_package.md R346). One step is one turn and, where aclk runs, one aclk. -/

namespace Sys2Proof.Machine

/-- R23: is the first group to be taken before the second: issued less recently, resident earlier, lower octet, lower TEAMID, lower GROUPID? -/
def groupBefore (s : State) (a b : Nat × Group) : Bool :=
  let k (x : Nat × Group) : List Nat :=
    [match x.2.last with
      | none => 0
      | some n => n + 1, x.2.born, x.2.octet, ((s.team? x.2.team).map (·.tid)).getD 0, x.2.gid, x.1]
  decide (k a < k b)

/-- The groups that have a running lane and may issue. -/
def State.runnable (s : State) : List (Nat × Group) := s.groups.filter (fun e => s.mayIssue e.2 && !(runPcs e.2.lanes).isEmpty)

/-- Would the group issue, or take a fault, in a turn now: has it a ready entry? -/
noncomputable def State.wouldIssue (s : State) (e : Nat × Group) : Bool :=
  match s.groupTurn e.1 with
  | .next t => match t.group? e.1 with
    | none => true
    | some g => decide (g.last ≠ e.2.last ∨ g.fault ≠ e.2.fault)
  | _ => true

/-- The first group in the order of R23. -/
def firstGroup (s : State) : List (Nat × Group) → Option (Nat × Group)
  | [] => none
  | e :: es =>
    match firstGroup s es with
    | none => some e
    | some f => some (if groupBefore s e f then e else f)

/-- The group whose turn it is by R23. -/
noncomputable def State.groupDue (s : State) : Option Turn := (firstGroup s (s.runnable.filter s.wouldIssue)).map (fun e => .group e.1)

/-- The groups that would not issue, in rotation, for what a waiting word does without issuing. -/
noncomputable def State.groupNext (s : State) (n : Nat) : Option Turn :=
  let ws := s.runnable.filter (fun e => !s.wouldIssue e)
  (ws[n % ws.length]?).map (fun e => .group e.1)

/-! ### The device's own events: those that the state lets happen, without anything from outside -/

/-- The result at the head of a group's scoreboard. -/
def firstResult : Nat → List Pend → Option Nat
  | _, [] => none
  | n, p :: ps => if p.why = .result then some n else firstResult (n + 1) ps

/-- The events of a group. -/
noncomputable def State.groupEvents (s : State) (u : Nat) (g : Group) : List Turn :=
  let has (st : LaneState) : Bool := g.lanes.any (fun x => decide (x.state = st))
  (match firstResult 0 g.pend with
    | some k => [.event (.variableLatencyResult u k)]
    | none => []) ++
  (if g.retry && !g.log.isEmpty then [.event (.operandLogReplay u)] else []) ++
  (if s.expired g ≠ 0 then [.event (.tmwaitExpiry u)] else []) ++
  (if g.orphaned then [.event (.orphanedSet u)] else []) ++
  (if has .park then [.event (.watchdog u)] else []) ++
  (if g.bmode.isSome || g.dispatch.isSome || has .park then
    [.event (.boundsEvaluation u), .event (.fill u), .event (.settledDispatch u), .event (.elementDispatch u), .event (.tileIssueLimit u)] else [])

/-- The event of a packet of a user stream. -/
noncomputable def packetEvent (p n type : Nat) : Turn :=
  .event (if type = tyTlaunch then .tlaunch p n else if type = tySemwait then .semwait p n else if type = tySemsignal then .semsignal p n
    else if type = tyFlush then .flush p n else if type = tyCapwrite then .capwrite p n else .launch p n)

/-- The events of a stream (R279). -/
noncomputable def State.streamEvents (s : State) (p n : Nat) (d : Stream) : List Turn :=
  if !d.due.isEmpty then [.event (.launch p n)]
  else if d.step = 3 then [.event (.semwaitLoad p n)]
  else if d.step = 2 then [.event (.tlaunchTick p n)]
  else if d.step = 0 ∧ d.enable ∧ !d.error ∧ d.avail ≠ 0 then
    match s.ringWord p d 0 with
    | .at h => [packetEvent p n (hType h)]
    | _ => [.event (.launch p n)]
  else []

/-- The placement that is due, on the cores that the search finds first (R290). -/
noncomputable def State.placementDue (s : State) (p a : Nat) (x : Part) (c : Context) : List Turn :=
  match s.nextLaunch a c with
  | none => []
  | some r =>
    match s.findCores p x { Launch.base with part := p, ctx := a, record := r.record } with
    | none => []
    | some cs => [.event (.placement p cs)]

/-- The events of a partition's context. A stop whose last engines have nothing resident any more ends at the next event of an engine that has acknowledged. -/
noncomputable def State.contextEvents (s : State) (p a : Nat) (x : Part) (c : Context) : List Turn :=
  (if c.state = .stopping then
    let todo := (s.stopNeeds p).filter (fun e => !c.acks.contains e)
    (if todo.isEmpty then s.stopNeeds p else todo).map (fun e => .event (.engineStop p e.1 e.2)) else []) ++
  (if c.state = .halted then ((s.ctxLaunches p).filter (fun e => decide (e.2.failing ≠ 0))).map (fun e => .event (.snapshotRollback e.1)) else []) ++
  (if c.state = .running then
    c.streams.flatMap (fun e => s.streamEvents p e.1 e.2) ++ s.placementDue p a x c ++ (s.ctxLaunches p).map (fun e => .event (.launchRetirement e.1)) else [])

/-- The events of a partition. -/
noncomputable def State.partEvents (s : State) (p : Nat) (x : Part) : List Turn :=
  (if x.softQ.isEmpty then [] else [.event (.softfault p)]) ++ (if x.hotQ.isEmpty then [] else [.event (.hotness p)]) ++
  (if x.resid.head?.any (·.started) then [.event (.residencyMove p [])] else []) ++
  (if (s.handlerOf p).isSome && !x.events.isEmpty then [.event (.activation p)] else []) ++
  (if s.mgmtOps.any (fun m => decide (m.part = p ∧ m.kind = mkReset ∧ m.owner = .host)) then [.event (.flr p)] else []) ++
  (if x.sampctl.getLsbD 63 && decide (x.sampNext ≤ s.aclk) then [.event (.sample p)] else []) ++
  (match x.ctx, s.context? p with
    | some a, some c => s.contextEvents p a x c
    | _, _ => [])

/-- The event of a packet of the management stream. -/
noncomputable def mgmtEvent (m : MgmtAt) : Turn :=
  let t := hType (m.words.headD 0)
  .event (if t = tyCtxstop then .ctxstopPacket else if t = tyCtxresume then .ctxresumePacket else if t = tyCtxkill then .ctxkillPacket
    else if t = tyOtinv then .otinvPacket else if t = tyOtswap then .otswapPacket else if t = tyKeyrev then .keyrevPacket
    else if t = tyFrames then .frames
    else if cfgOp (m.q 1) = 1 then .destroy else if cfgOp (m.q 1) = 2 then .keyload else if cfgOp (m.q 1) = 3 then .keyfree else .create)

/-- The events of the engines, the barriers and the rounds. -/
noncomputable def State.engineEvents (s : State) : List Turn :=
  s.copies.map (fun e => if e.2.claim.isSome then .event (.flowEnd e.1) else .event (.tsumEnd e.1)) ++
  s.mats.map (fun e => .event (.matrixOperationEnd e.1)) ++
  s.latch.map (fun w => .event (.rendezvous w.cluster w.gang)) ++ s.latch.map (fun w => .event (.gangOrphaned w.group)) ++
  (s.rounds.filter (fun e => !e.2.ended)).map (fun e => if e.2.begun then .event (.timeout e.1) else .event (.roundStart e.1)) ++
  (s.rounds.filter (fun e => e.2.begun && !e.2.ended)).map (fun e => .event (.roundDone e.1 [])) ++
  s.teams.flatMap (fun e => e.2.bars.map (fun b => .event (.barrierTimeout (.team e.1 b.1)))) ++
  s.launches.flatMap (fun e => e.2.lvlBars.map (fun b => .event (.barrierTimeout (.level e.1 (b.1 / 2 ^ 40) (b.1 % 2 ^ 40)))))

/-- Every event that the state lets happen. -/
noncomputable def State.events (s : State) : List Turn :=
  (if s.pf.pwrStatus = 1 then [.event .powerStateChangeDone] else []) ++
  (if s.pf.mgmt.enable then (s.mgmtRing.filter (fun m => !s.pktDone m.pos)).map mgmtEvent else []) ++
  s.parts.flatMap (fun e => s.partEvents e.1 e.2) ++ s.groups.flatMap (fun e => s.groupEvents e.1 e.2) ++ s.engineEvents

/-! ### Events while the clocks are gated (R346, R347) -/

/-- A request of the host or of a peer, which Q2 and Q3 hold: its memory accesses, its writes of registers, PWRCTL's apart, and its answers to what the device has
asked of it. -/
def heldRequest : Instr → Bool
  | .hostAccess _ _ _ _ _ | .hostSnoop _ _ _ | .peerAccess _ _ _ _ _ | .windowRequest _ _ _ _ _ _ _ _ | .flr _ | .doorbell _ _ | .enableSet _ | .enableClear _
  | .errorClear _ | .winctl _ _ _ | .sampctl _ _ | .release _ _ _ _ | .step _ _ _ _ | .atomicopCompletion _ _ | .serviceReply _ | .svcReply _ _ | .hcallReply _ _ _ => true
  | .registerWrite w off _ _ => !decide (w = .pf ∧ off.toNat / 8 = 1)
  | _ => false

/-- What goes on while the clocks are gated: power, temperature and the timebase, the links and their training, SPDM and TDISP, PWRCTL, and a round's time. -/
def ungated : Instr → Bool
  | .powerOn _ | .powerRemoval | .targetQ0 | .targetQ1 | .targetQ2 | .targetQ3 | .targetQ4 | .powerStateChangeDone | .thermalTrip _ | .thermtripClear _
  | .timebaseFlit _ _ _ _ _ | .timebaseUnlocked | .flit _ _ | .portTraining _ _ _ _ | .portDown _ | .linkLoss _ _ | .hostLinkRetraining | .tdispRequest _ _
  | .spdmRequest _ _ | .tdiLeavesRun _ _ | .spdmSessionEnd _ | .heartbeatTimeout _ | .hostWriteRejected _ | .timeout _ | .registerWrite _ _ _ _ => true
  | _ => false

/-- A turn of an event: in Q2 and Q3 requests are held, in their order, and of the rest those go on that need no aclk, as issue and engines pause; in Q4 the device is
off, and only power comes and goes. -/
noncomputable def State.gated (s : State) (i : Instr) (f : State → Host.Outcome State Fault Refusal) : Host.Outcome State Fault Refusal :=
  if s.clocked then f s
  else if s.pf.current = 4 then (match i with
    | .powerOn _ | .powerRemoval => f s
    | _ => .next s)
  else if heldRequest i then .next { s with waiting := s.waiting ++ [i] }
  else if ungated i then f s else .next s

/-- What counts the turns: aclk, or the timebase while the clocks are gated. -/
def State.beat (s : State) : Nat := if s.clocked then s.aclk else s.timebase.toNat

/-- The default turn: TIMEBASE_UNLOCKED once a millisecond has passed without a flit (R330); the answer to a store to a service queue; else in alternation the group of R23, the device's own events, each of these in its turn, and
the groups that would not issue in rotation. The order of events that do not depend on each other is the manual's to leave open; an agenda gives any other. -/
noncomputable def State.due (s : State) : Option Turn :=
  if s.tbSilent then some (.event .timebaseUnlocked)
  else match s.hooks with
  | (p, none) :: _ => some (.event (.resolve p))
  | (p, some t) :: _ => some (.event (.hotclr p t))
  | [] =>
    let n := s.beat
    let e := s.events[n / 4 % s.events.length]?
    let r := s.groupNext (n / 4)
    if n % 4 = 1 then (e.orElse (fun _ => s.groupDue)).orElse (fun _ => r)
    else if n % 4 = 3 then (r.orElse (fun _ => e)).orElse (fun _ => s.groupDue)
    else (s.groupDue.orElse (fun _ => e)).orElse (fun _ => r)

/-- Does a running context of a partition count an event (R340)? -/
def State.selects (s : State) (p ev : Nat) : Bool :=
  match s.context? p with
  | none => false
  | some c => decide (c.state = .running) && (List.range 8).any (fun i => decide (field (Tab.get 0 c.pmsel i) 0 8 = ev))

/-- The counts of an aclk (R340): one for a resident U group with a frontier entry that has not issued in it; the L2 misses, which the model does not
follow: a free number. -/
def State.countAclk (s : State) : State :=
  s.parts.foldl (fun s e =>
    let idle := s.selects e.1 2 && s.groups.any (fun g => decide (g.2.part = e.1 ∧ g.2.level = .u ∧ g.2.last ≠ some s.aclk) && !(runPcs g.2.lanes).isEmpty)
    let s1 := if idle then s.count e.1 2 1 else s
    if s1.selects e.1 3 then
      let (f, s2) := s1.fresh (s1.dom e.1)
      s2.count e.1 3 f.toNat
    else s1) s

/-- R345: TEMP follows the junction every 100 µs: below 105 °C, whose reaching is an event of its own, but from there on anything until it is
below again. -/
def State.sense (s : State) (before : W64) : State :=
  if s.timebase.toNat / 100000 = before.toNat / 100000 then s
  else
    let (f, s1) := s.fresh domDevice
    let t := if 105 ≤ s.pf.temp.toNat then f.extractLsb' 0 8 else BitVec.ofNat 8 (f.toNat % 105)
    { s1 with pf := { s1.pf with temp := t } }

/-- Is a team's watch running: its context is RUNNING, and none of its lanes stands in BRK (R335)? -/
def State.watched (s : State) (u : Nat) (t : Team) : Bool :=
  (match s.context? t.part with
    | none => false
    | some c => decide (c.state = .running)) && !s.groups.any (fun e => decide (e.2.team = u) && e.2.lanes.any (fun x => decide (x.state = .brk)))

/-- One aclk: the watches of the teams, and the CYCLES of the groups whose contexts run and of those of the service teams, which nothing stops (R146). -/
def State.clock (s : State) : State :=
  let runs (g : Group) : Bool := decide (g.level ≠ .u) || s.ctxRuns g.part
  { s with teams := s.teams.map (fun e => (e.1, if s.watched e.1 e.2 then { e.2 with watch := e.2.watch + 1 } else e.2)), aclk := s.aclk + 1,
           groups := s.groups.map (fun e => (e.1, if runs e.2 then { e.2 with cycles := e.2.cycles + 1 } else e.2)) }

/-- R13, R346: 36 parts of a tick of the timebase for each aclk of Q0 (10) and Q1 (15); in Q2 and Q3 the timebase alone goes on. The four dies read this one
count, without the skew that R13 allows (log entry 131). -/
def State.tick (s : State) : State :=
  let add := if s.pf.current = 0 then 10 else if s.pf.current = 1 then 15 else if s.pf.current ≤ 3 then 36 else 0
  let s1 := { s with frac := (s.frac + add) % 36, timebase := s.timebase + BitVec.ofNat 64 ((s.frac + add) / 36) }.sense s.timebase
  if s.clocked then s1.countAclk.clock else s1

/-- After a turn the frontiers form anew, and time passes. -/
noncomputable def afterTurn : Host.Outcome State Fault Refusal → Host.Outcome State Fault Refusal
  | .next s => .next s.regroup.tick
  | r => r

end Sys2Proof.Machine
end

