-- ==== Sys2Proof/Machine/Step.lean ====
section
/-! DEFINITION. One step of the machine: the turn at the head of the agenda, else the default turn; then time passes. -/

namespace Sys2Proof.Machine

/-- An event that has put a word of the operand log at issue (R38): the word is performed. -/
def replayCur : Host.Outcome State Fault Refusal → Host.Outcome State Fault Refusal
  | .next s =>
    match s.cur with
    | none => .next s
    | some k => closeTurn (exec k.word s)
  | r => r

/-- Take a turn: an event, or the issue of a group. -/
noncomputable def State.take (s : State) (t : Turn) : Host.Outcome State Fault Refusal :=
  match t with
  | .event i => s.gated i (fun s => replayCur (exec i { s with cur := none }))
  | .group u => s.groupTurn u

/-- One step. -/
noncomputable
def step (s : State) : Host.Outcome State Fault Refusal :=
  match s.agenda with
  | t :: ts => afterTurn (State.take { s with agenda := ts } t)
  | [] =>
    match s.due with
    | some t => afterTurn (s.take t)
    | none => afterTurn (.next s)

/-- s with the instruction whose bits are w where step fetches its next instruction: at PC 4 of the code of a group that issues next. -/
def State.withFetchWord (s : State) (nbits w : Nat) : State := s.bootWith (toBytes 4 (w % 2 ^ nbits))

end Sys2Proof.Machine
end

