-- ==== Sys2Proof/Safety.lean ====
section
/-! DEFINITION. The terms in which statements speak of runs: an answer is a next state (the architecture turns an instruction's fault into a next
state, R300, so the two other outcomes are the model's own stops); a word that passes the checks of R147; what a word leaves unchanged. -/

namespace Sys2Proof
open Machine

/-- The step answers a next state. -/
def StepOk (s : State) : Prop := ∃ t, step s = .next t

/-- The instruction answers a next state. -/
def ExecOk (i : Instr) (s : State) : Prop := ∃ t, exec i s = .next t

/-! ### A word at issue -/

/-- Group `u`, which stands as `g`, issues the word `i` at `pc` for the lanes of `m`; it is no replay of the group's operand log. -/
def Issues (s : State) (u : Nat) (g : Group) (pc : Pc) (m : W64) (i : Instr) : Prop :=
  s.cur = some ⟨u, pc, m, i, none⟩ ∧ s.group? u = some g

/-- The word as its meaning sees it. -/
def issueCtx (u : Nat) (g : Group) (pc : Pc) (m : W64) (i : Instr) : Ctx := ⟨u, i, g, pc, m, g.regs, g.rm, false⟩

/-- The word passes steps 4 to 7 of R147 (level, operands, window, fixed latencies), finds the operand log empty if it is memory-class (R37),
is not one that abandons in bounds mode (R103), and meets no failing shadow check (R96). -/
structure Passes (s : State) (u : Nat) (g : Group) (pc : Pc) (m : W64) (i : Instr) : Prop where
  issues   : Issues s u g pc m i
  level    : (shape i).level ≤ g.level.num
  operands : i.operandsOk = true
  window   : ∀ o ∈ (shape i).ops, o.kind = .v → g.regs.wb + o.num + o.run ≤ g.alloc
  closed   : g.openRegs (g.uses i m) = []
  log      : (shape i).mem = true → g.log = []
  mode     : g.mode = 1 → (shape i).aband = false
  sound    : s.upsetAt (issueCtx u g pc m i) = none

/-- Does lane `l` execute? -/
def executes (g : Group) (m : W64) (l : Nat) : Bool := decide (l < g.width) && bit m l

/-! ### What a word leaves unchanged -/

/-- Of the whole machine only group `u` differs: every other group, every register of the device and its contexts, and every byte of every memory
is as before. -/
structure OnlyGroup (s t : State) (u : Nat) : Prop where
  rest   : { t with groups := s.groups } = s
  others : ∀ v, v ≠ u → t.group? v = s.group? v
  bytes  : ∀ l, t.rawByte l = s.rawByte l

/-- The group after a word that has retired, its registers apart: the executing lanes stand at next(p) and are otherwise as they were, the other lanes
are untouched; the destinations of a fixed-latency word open their R142 windows, those of a variable-latency word their scoreboard entries
(a word whose result an engine makes opens its own); the `tsum` tokens that it has read or overwritten are gone (R134); nothing else of the group differs. -/
structure Retired (g g' : Group) (pc : Pc) (m : W64) (i : Instr) : Prop where
  lanes  : g'.lanes = mapMask m (fun _ x => { x with pc := nextPc pc }) 0 g.lanes
  recent : g'.recent = g.recent ++ (if (shape i).lat = 0 then [] else (written g.regs.wb (shape i).ops).map (fun r => ⟨r, (shape i).lat⟩))
  pend   : (shape i).own = false →
    g'.pend = g.pend ++ (if (shape i).lat = 0 then (written g.regs.wb (shape i).ops).map (fun r => ⟨r, .result, pc⟩) else [])
  rest   : { g' with regs := g.regs, shadow := g.shadow, lanes := g.lanes, recent := g.recent, pend := g.pend, tokens := g.tokens,
                     tsumRead := g.tsumRead, memHold := g.memHold } = g

/-- Of the registers only scalar register `d` differs: it holds `x`. -/
structure ScalarWritten (g g' : Group) (d : Nat) (x : W64) : Prop where
  scalars : ∀ n, g'.regs.rs n = if n = d then x else g.regs.rs n
  vectors : g'.regs.v = g.regs.v
  caps    : g'.regs.c = g.regs.c
  gangs   : g'.regs.g = g.regs.g
  base    : g'.regs.wb = g.regs.wb
  shadow  : g'.shadow = g.shadow

/-- Of the registers only the executing lanes of vector registers `vd` to `vd + n - 1` differ: lane `l` of `vd + k` holds `f k l`. -/
structure VectorWritten (g g' : Group) (m : W64) (d n : Nat) (f : Nat → Nat → W32) : Prop where
  vectors : ∀ r l, l < 64 → Tab.get 0 g'.regs.v (vkey r l) =
    if g.regs.wb + d ≤ r ∧ r < g.regs.wb + d + n ∧ executes g m l = true then f (r - (g.regs.wb + d)) l else Tab.get 0 g.regs.v (vkey r l)
  scalars : g'.regs.s = g.regs.s
  caps    : g'.regs.c = g.regs.c
  gangs   : g'.regs.g = g.regs.g
  base    : g'.regs.wb = g.regs.wb
  shadow  : g'.shadow = g.shadow

/-- Of the registers only the executing lanes of vector register `vd` differ, in bounds mode: lane `l` holds the interval `f l` (R101). -/
structure IntervalWritten (g g' : Group) (m : W64) (d : Nat) (f : Nat → Iv) : Prop where
  lows    : ∀ r l, l < 64 → Tab.get 0 g'.regs.v (vkey r l) =
    if r = g.regs.wb + d ∧ executes g m l = true then (f l).lo else Tab.get 0 g.regs.v (vkey r l)
  shadows : ∀ r l, l < 64 → Tab.find g'.shadow (vkey r l) =
    if r = g.regs.wb + d ∧ executes g m l = true then some ⟨(f l).hi, (f l).tag, (f l).nan⟩ else Tab.find g.shadow (vkey r l)
  scalars : g'.regs.s = g.regs.s
  caps    : g'.regs.c = g.regs.c
  gangs   : g'.regs.g = g.regs.g
  base    : g'.regs.wb = g.regs.wb

/-- Of the registers only capability register `d` differs. -/
structure CapWritten (g g' : Group) (d : Nat) (x : Cap) : Prop where
  caps    : ∀ n, g'.regs.rc n = if n = d then x else g.regs.rc n
  vectors : g'.regs.v = g.regs.v
  scalars : g'.regs.s = g.regs.s
  gangs   : g'.regs.g = g.regs.g
  base    : g'.regs.wb = g.regs.wb
  shadow  : g'.shadow = g.shadow

/-- Lane `l` of vector register `r` of a group, as bounds mode reads it (R101). -/
def laneIv (g : Group) (r l : Nat) : Iv :=
  match Tab.find g.shadow (vkey (g.regs.wb + r) l) with
  | none => Iv.point .s (g.regs.rv r l)
  | some x => ⟨g.regs.rv r l, x.hi, x.tag, x.nan⟩

/-- The word completes: `exec` answers a next state in which only its group differs, retired, its registers as `p` says. -/
def Completes (i : Instr) (s : State) (u : Nat) (g : Group) (pc : Pc) (m : W64) (p : Group → Prop) : Prop :=
  ∃ t g', exec i s = .next t ∧ t.group? u = some g' ∧ OnlyGroup s t u ∧ Retired g g' pc m i ∧ p g'

/-! ### Instructions of one shape -/

/-- A vector instruction of one source: outside bounds mode every executing lane of `vd` takes `f` of its source lane. -/
def VectorOp1 (mk : F7 → F7 → Instr) (f : W32 → W32) : Prop :=
  ∀ s u g pc m d a, Passes s u g pc m (mk d a) → g.mode ≠ 1 →
    Completes (mk d a) s u g pc m (fun g' => VectorWritten g g' m d.toNat 1 (fun _ l => f (g.regs.rv a.toNat l)))

/-- A vector instruction of two sources. -/
def VectorOp2 (mk : F7 → F7 → F7 → Instr) (f : W32 → W32 → W32) : Prop :=
  ∀ s u g pc m d a b, Passes s u g pc m (mk d a b) → g.mode ≠ 1 →
    Completes (mk d a b) s u g pc m (fun g' => VectorWritten g g' m d.toNat 1 (fun _ l => f (g.regs.rv a.toNat l) (g.regs.rv b.toNat l)))

/-- A vector instruction that also reads its destination, first. -/
def VectorOp3 (mk : F7 → F7 → F7 → Instr) (f : W32 → W32 → W32 → W32) : Prop :=
  ∀ s u g pc m d a b, Passes s u g pc m (mk d a b) → g.mode ≠ 1 →
    Completes (mk d a b) s u g pc m
      (fun g' => VectorWritten g g' m d.toNat 1 (fun _ l => f (g.regs.rv d.toNat l) (g.regs.rv a.toNat l) (g.regs.rv b.toNat l)))

/-- Vector instructions whose result depends on the group's rounding control, which `f` takes first (R87). -/
def RoundedOp1 (mk : F7 → F7 → Instr) (f : Nat → W32 → W32) : Prop :=
  ∀ s u g pc m d a, Passes s u g pc m (mk d a) → g.mode ≠ 1 →
    Completes (mk d a) s u g pc m (fun g' => VectorWritten g g' m d.toNat 1 (fun _ l => f g.rm (g.regs.rv a.toNat l)))

def RoundedOp2 (mk : F7 → F7 → F7 → Instr) (f : Nat → W32 → W32 → W32) : Prop :=
  ∀ s u g pc m d a b, Passes s u g pc m (mk d a b) → g.mode ≠ 1 →
    Completes (mk d a b) s u g pc m (fun g' => VectorWritten g g' m d.toNat 1 (fun _ l => f g.rm (g.regs.rv a.toNat l) (g.regs.rv b.toNat l)))

def RoundedOp3 (mk : F7 → F7 → F7 → Instr) (f : Nat → W32 → W32 → W32 → W32) : Prop :=
  ∀ s u g pc m d a b, Passes s u g pc m (mk d a b) → g.mode ≠ 1 →
    Completes (mk d a b) s u g pc m
      (fun g' => VectorWritten g g' m d.toNat 1 (fun _ l => f g.rm (g.regs.rv d.toNat l) (g.regs.rv a.toNat l) (g.regs.rv b.toNat l)))

/-- A vector instruction with an immediate of 10 bits. -/
def VectorImm (mk : F7 → F7 → BitVec 10 → Instr) (f : W32 → BitVec 10 → W32) : Prop :=
  ∀ s u g pc m d a k, Passes s u g pc m (mk d a k) → g.mode ≠ 1 →
    Completes (mk d a k) s u g pc m (fun g' => VectorWritten g g' m d.toNat 1 (fun _ l => f (g.regs.rv a.toNat l) k))

/-- Scalar instructions (R160): once for the group, the same in every mode. -/
def ScalarOp1 (mk : F7 → F7 → Instr) (f : W64 → W64) : Prop :=
  ∀ s u g pc m d a, Passes s u g pc m (mk d a) →
    Completes (mk d a) s u g pc m (fun g' => ScalarWritten g g' d.toNat (f (g.regs.rs a.toNat)))

def ScalarOp2 (mk : F7 → F7 → F7 → Instr) (f : W64 → W64 → W64) : Prop :=
  ∀ s u g pc m d a b, Passes s u g pc m (mk d a b) →
    Completes (mk d a b) s u g pc m (fun g' => ScalarWritten g g' d.toNat (f (g.regs.rs a.toNat) (g.regs.rs b.toNat)))

def ScalarOp3 (mk : F7 → F7 → F7 → Instr) (f : W64 → W64 → W64 → W64) : Prop :=
  ∀ s u g pc m d a b, Passes s u g pc m (mk d a b) →
    Completes (mk d a b) s u g pc m (fun g' => ScalarWritten g g' d.toNat (f (g.regs.rs d.toNat) (g.regs.rs a.toNat) (g.regs.rs b.toNat)))

def ScalarImm (mk : F7 → F7 → BitVec 10 → Instr) (f : W64 → BitVec 10 → W64) : Prop :=
  ∀ s u g pc m d a k, Passes s u g pc m (mk d a k) →
    Completes (mk d a k) s u g pc m (fun g' => ScalarWritten g g' d.toNat (f (g.regs.rs a.toNat) k))

/-! ### Integers as the manual writes them -/

/-- All ones where the relation holds, else 0 (R157). -/
def flag {w : Nat} (p : Prop) [Decidable p] : BitVec w := if p then BitVec.allOnes w else 0

/-- Clamped to a range (R154). -/
def clamp {w : Nat} (lo hi x : Int) : BitVec w := BitVec.ofInt w (if x < lo then lo else if hi < x then hi else x)

/-- The quotient and remainder of R154 at w bits, signed: x/0 is all ones and leaves x; MIN by -1 wraps to MIN and leaves 0. -/
def quotS {w : Nat} (x y : BitVec w) : BitVec w :=
  if y = 0 then BitVec.allOnes w
  else if x = BitVec.intMin w ∧ y = BitVec.allOnes w then BitVec.intMin w
  else BitVec.ofInt w (Int.tdiv x.toInt y.toInt)
def remdS {w : Nat} (x y : BitVec w) : BitVec w :=
  if y = 0 then x
  else if x = BitVec.intMin w ∧ y = BitVec.allOnes w then 0
  else BitVec.ofInt w (x.toInt - Int.tdiv x.toInt y.toInt * y.toInt)

/-- Unsigned. -/
def quotZ {w : Nat} (x y : BitVec w) : BitVec w := if y = 0 then BitVec.allOnes w else BitVec.ofNat w (x.toNat / y.toNat)
def remdZ {w : Nat} (x y : BitVec w) : BitVec w := if y = 0 then x else BitVec.ofNat w (x.toNat - x.toNat / y.toNat * y.toNat)

/-- The 1 bits of a word, and its leading 0 bits (R156, R160). -/
def onesIn {w : Nat} (x : BitVec w) : Nat := ((List.range w).filter (fun k => x.getLsbD k)).length
def leadingZeros {w : Nat} (x : BitVec w) : Nat := if x = 0 then w else w - 1 - x.toNat.log2

/-- The field operand of R156. -/
def fieldPos (y : W32) : Nat := y.toNat % 32
def fieldLen (y : W32) : Nat := min (y.toNat / 256 % 64) (32 - fieldPos y)
def fieldMask (y : W32) : W32 := BitVec.ofNat 32 (2 ^ fieldLen y - 1)

/-! ### Floating point as the manual writes it -/

/-- A NaN pattern (R80). -/
abbrev isNan (x : W32) : Prop := 0x7F800000 < x.toNat % 2 ^ 31

/-- The order of R81 on patterns that are no NaN: -0 lies below +0. -/
abbrev belowF (x y : W32) : Prop :=
  (x.msb = true ∧ y.msb = false) ∨ (x.msb = false ∧ y.msb = false ∧ x.toNat < y.toNat) ∨ (x.msb = true ∧ y.msb = true ∧ y.toNat < x.toNat)

/-- The relation of IEEE 754: no NaN, and -0 equals +0 (R182). -/
abbrev equalF (x y : W32) : Prop := ¬ isNan x ∧ ¬ isNan y ∧ (x = y ∨ (x.toNat % 2 ^ 31 = 0 ∧ y.toNat % 2 ^ 31 = 0))
abbrev lessF (x y : W32) : Prop := ¬ isNan x ∧ ¬ isNan y ∧ belowF x y ∧ ¬ equalF x y

/-- The magnitude of a finite code with mb fraction bits, its sign apart, as a multiple of the least subnormal (R79); for the code of infinity, the
value at which overflow begins. -/
def mag (mb c : Nat) : Nat := if c < 2 ^ mb then c else (2 ^ mb + c % 2 ^ mb) * 2 ^ (c / 2 ^ mb - 1)

/-- One divided by the least subnormal of a format. -/
def unit (f : FFmt) : Nat := 2 ^ (-f.qmin).toNat

/-- Does the mode round a magnitude that lies between two neighbours up (R87, IEEE 754)? `half` compares twice the magnitude with their sum. -/
def awayFrom (rm : Nat) (neg odd : Bool) (half : Ordering) : Bool :=
  if rm = 0 then decide (half = .gt) || (decide (half = .eq) && odd)
  else if rm = 2 then neg
  else if rm = 3 then !neg
  else false

/-- The one rounding of R80: `c` is the code, its sign apart, that the magnitude n / d (a multiple of the least subnormal) rounds to. -/
def RoundsTo (f : FFmt) (rm : Nat) (neg : Bool) (n d c : Nat) : Prop :=
  ∃ k, k < f.infCode ∧ mag f.mb k * d ≤ n ∧ (n < mag f.mb (k + 1) * d ∨ k + 1 = f.infCode) ∧
    c = if n ≠ mag f.mb k * d ∧ awayFrom rm neg (k % 2 = 1) (compare (2 * n) ((mag f.mb k + mag f.mb (k + 1)) * d)) = true then k + 1 else k

/-- The code of a finite value; its value, as a multiple of the least subnormal; a code from its sign and the rest. -/
abbrev finiteCode (f : FFmt) (x : Nat) : Prop := x % f.signBit < f.infCode ∧ x < 2 * f.signBit
def valueOf (f : FFmt) (x : Nat) : Int := if f.signBit ≤ x then -(mag f.mb (x - f.signBit) : Int) else mag f.mb x
def signedCode (f : FFmt) (neg : Bool) (c : Nat) : Nat := (if neg then f.signBit else 0) + c

/-- The same of the FP32 value of a lane. -/
abbrev finite (x : W32) : Prop := x.toNat % 2 ^ 31 < 0x7F800000
def patternF (neg : Bool) (c : Nat) : W32 := BitVec.ofNat 32 (signedCode fp32 neg c)

/-- `v` is the magnitude of a finite FP32 value, rounded to an integer in a mode (R86, R183). -/
def IntegralOf (rm : Nat) (x : W32) (v : Nat) : Prop :=
  ∃ k, k * 2 ^ 149 ≤ mag 23 (x.toNat % 2 ^ 31) ∧ mag 23 (x.toNat % 2 ^ 31) < (k + 1) * 2 ^ 149 ∧
    v = if mag 23 (x.toNat % 2 ^ 31) ≠ k * 2 ^ 149 ∧
      awayFrom rm x.msb (k % 2 = 1) (compare (2 * mag 23 (x.toNat % 2 ^ 31)) ((2 * k + 1) * 2 ^ 149)) = true then k + 1 else k

/-! ### Correctly rounded transcendentals (R88) -/

/-- The value of a finite FP32 lane. -/
noncomputable def realOf (x : W32) : ℝ := (if x.msb then -1 else 1) * (mag 23 (x.toNat % 2 ^ 31) : ℝ) / 2 ^ 149

/-- `w` is the FP32 value nearest to v, of the sign of v; from halfway beyond the greatest finite value on, infinity. -/
def NearestTo (v : ℝ) (w : W32) : Prop :=
  ∃ (s : Bool) (k : Nat), (s = true ↔ v < 0) ∧ k < 0x7F800000 ∧ (mag 23 k : ℝ) ≤ |v| * 2 ^ 149 ∧ (|v| * 2 ^ 149 < mag 23 (k + 1) ∨ k + 1 = 0x7F800000) ∧
    (2 * |v| * 2 ^ 149 < mag 23 k + mag 23 (k + 1) → w = patternF s k) ∧ (mag 23 k + mag 23 (k + 1) < 2 * |v| * 2 ^ 149 → w = patternF s (k + 1))

/-- v is farther than 2^-81 of itself from halfway between two neighbours. -/
def Clear (v : ℝ) : Prop := ∀ k : Nat, k < 0x7F800000 → |v| / 2 ^ 80 ≤ |2 * |v| - ((mag 23 k + mag 23 (k + 1) : Nat) : ℝ) / 2 ^ 149|

/-- A function of FP32 values is a real function, rounded once to the nearest. -/
def RoundsNearest (f : W32 → W32) (p : W32 → Prop) (v : ℝ → ℝ) : Prop := ∀ x, finite x → p x → Clear (v (realOf x)) → NearestTo (v (realOf x)) (f x)

/-! ### Values across lanes (R189) -/

/-- What lane `l` contributes: its value where it executes, else the identity. -/
def contribution (g : Group) (m : W64) (r : Nat) (ident : W32) (l : Nat) : W32 := if executes g m l then g.regs.rv r l else ident

/-- A reduction over lanes 0 to 63: its one result goes to every executing lane. -/
def Reduction (mk : F7 → F7 → Instr) (ident : W32) (f : List W32 → W32) : Prop :=
  ∀ s u g pc m d a, Passes s u g pc m (mk d a) →
    Completes (mk d a) s u g pc m (fun g' => VectorWritten g g' m d.toNat 1
      (fun _ _ => f ((List.range 64).map (contribution g m a.toNat ident))))

/-- A shuffle: every executing lane takes the value of its source lane, 0 where that lane does not execute. -/
def Shuffle (mk : F7 → F7 → F7 → Instr) (src : Group → F7 → Nat → Option Nat) : Prop :=
  ∀ s u g pc m d a b, Passes s u g pc m (mk d a b) →
    Completes (mk d a b) s u g pc m (fun g' => VectorWritten g g' m d.toNat 1
      (fun _ l => ((src g b l).map (contribution g m a.toNat 0)).getD 0))

/-- An argmin or argmax: the value that no executing lane's value is better than, and the lowest executing lane that holds it. -/
def Selection (mk : F7 → F7 → Instr) (better : W32 → W32 → Prop) : Prop :=
  ∀ s u g pc m d a, Passes s u g pc m (mk d a) → ∃ n,
    (∀ l, executes g m l = true → executes g m n = true ∧ ¬ better (g.regs.rv a.toNat l) (g.regs.rv a.toNat n) ∧
      (l < n → g.regs.rv a.toNat l ≠ g.regs.rv a.toNat n)) ∧
    Completes (mk d a) s u g pc m (fun g' => VectorWritten g g' m d.toNat 2 (fun k _ => if k = 0 then g.regs.rv a.toNat n else BitVec.ofNat 32 n))

/-- An inclusive scan: lane 0's contribution alone, then each next lane combined in ascending order. -/
def Scan (mk : F7 → F7 → Instr) (first : W32 → W32) (f : W32 → W32 → W32) : Prop :=
  ∀ s u g pc m d a, Passes s u g pc m (mk d a) → ∃ y : Nat → W32,
    y 0 = first (contribution g m a.toNat 0 0) ∧ (∀ l, y (l + 1) = f (y l) (contribution g m a.toNat 0 (l + 1))) ∧
    Completes (mk d a) s u g pc m (fun g' => VectorWritten g g' m d.toNat 1 (fun _ => y))

/-! ### Words that place their lanes, and words that touch memory -/

/-- The word completes and places its executing lanes itself: lane `l` becomes `f l`; of its group nothing else changes but what a retirement clears. -/
def Places (i : Instr) (s : State) (u : Nat) (g : Group) (m : W64) (f : Nat → Lane → Lane) : Prop :=
  ∃ t g', exec i s = .next t ∧ t.group? u = some g' ∧ OnlyGroup s t u ∧ g'.lanes = mapMask m f 0 g.lanes ∧
    { g' with lanes := g.lanes, tokens := g.tokens, tsumRead := g.tsumRead, memHold := g.memHold } = g

/-- The executing lanes, ascending. -/
def execList (g : Group) (m : W64) : List Nat := (List.range 64).filter (executes g m)

/-- The accesses of a word: one for each executing lane at its vector offset, or one for the group at its scalar offset (R196). -/
def laneAccs (g : Group) (m : W64) (a : F7) (n : Nat) : List Acc := (execList g m).map (fun l => ⟨l, (g.regs.rv a.toNat l).toNat + n⟩)
def groupAccs (g : Group) (m : W64) (a : F7) (n : Nat) : List Acc := [⟨(lowestLane m).getD 0, (g.regs.rs a.toNat).toNat + n⟩]

/-- A word that writes no byte and no tag: other groups, teams, launches, contexts and every store are as before. -/
structure ReadOnly (s t : State) (u : Nat) : Prop where
  others   : ∀ v, v ≠ u → t.group? v = s.group? v
  bytes    : ∀ l, t.rawByte l = s.rawByte l
  tags     : ∀ l, t.tagAt l = s.tagAt l
  teams    : t.teams = s.teams
  launches : t.launches = s.launches
  ctxs     : t.ctxs = s.ctxs

/-- The bytes from a place on. -/
def bytesAt (mem : Loc → Byte) (l : Loc) (n : Nat) : List Byte := (List.range n).map (fun k => mem (l.add k))

/-- Memory after bytes have been stored at a place, and after the stores of some accesses in their order. -/
def storeTo (mem : Loc → Byte) (l : Loc) (bs : List Byte) : Loc → Byte :=
  fun x => match (List.range bs.length).find? (fun k => decide (l.add k = x)) with
    | none => mem x
    | some k => bs.getD k 0
def storesTo (f : Nat → List Byte) : List (Acc × Trans) → (Loc → Byte) → Loc → Byte
  | [], mem => mem
  | (a, t) :: as, mem => storesTo f as (storeTo mem t.loc (f a.lane))

/-- Read-modify-writes of w bytes, one access after the other: the old values by lane, and memory after them. -/
def rmwsTo (w : Nat) (f : Nat → Nat → Nat) : List (Acc × Trans) → (Loc → Byte) → List (Nat × Nat) × (Loc → Byte)
  | [], mem => ([], mem)
  | (a, t) :: as, mem =>
    let x := ofBytes (bytesAt mem t.loc w)
    let r := rmwsTo w f as (storeTo mem t.loc (toBytes w (f a.lane x)))
    ((a.lane, x) :: r.1, r.2)

/-- The places of some accesses of w bytes stand under one key slot that may read them, lie in stores that exist, and are no register of a service queue (whose
PRODUCER a store does not change, and whose RESOLVE and HOTCLR read 0, R270). -/
structure Ordinary (s : State) (w : Nat) (ts : List (Acc × Trans)) : Prop where
  slots    : ∀ e ∈ ts, ∀ e' ∈ ts, e.2.slot = e'.2.slot
  readable : ∀ e ∈ ts, ∀ k, k < w → s.readable e.2.slot (e.2.loc.add k) = true
  exist    : ∀ e ∈ ts, ∀ t o, e.2.loc = .team t o ∨ e.2.loc = .wbuf t o → (s.team? t).isSome = true
  plain    : ∀ e ∈ ts, ∀ a ∈ e.2.loc.addrs w, ∀ q ∈ s.queues, a < q.2 ∨ q.2 + 32 ≤ a

/-- A write from outside to n bytes of device memory is performed whole: no page copy of theirs misses its frames, and none is a register of a service queue. -/
structure OutsideOpen (s : State) (a n : Nat) : Prop where
  copied : s.snapShort ((List.range n).map (fun i => .dev (a + i))) = none
  plain  : ∀ i, i < n → ∀ q ∈ s.queues, a + i < q.2 ∨ q.2 + 32 ≤ a + i

/-- Nothing else bears on memory: no write that some observer may miss, no engine's copy or posted write under way, no byte held back by the team. -/
structure Quiet (s : State) (team : Nat) : Prop where
  unpub  : s.unpub = []
  copies : s.copies = []
  posted : s.posted = []
  held   : ∀ t, s.team? team = some t → t.held = []

/-- The word that a lane loaded, from its bytes. -/
def wordAt (bs : List Byte) (k : Nat) : W32 := BitVec.ofNat 32 (ofBytes ((bs.drop (4 * k)).take 4))

/-- A vector load (R199): once its accesses have passed every check, the executing lanes of `n` registers take the values of their bytes. -/
def VectorLoad (mk : F7 → F7 → BitVec 5 → BitVec 6 → Instr) (w n : Nat) (v : List Byte → Nat → W32) : Prop :=
  ∀ s u g pc m d a r k ts s1, Passes s u g pc m (mk d a r k) → g.mode ≠ 1 → Quiet s g.team → Ordinary s w ts →
    s.access (issueCtx u g pc m (mk d a r k)) r loadKinds 1 .load w (laneAccs g m a (k.toNat * w)) = (.ok ts, s1) →
    ∃ t g', exec (mk d a r k) s = .next t ∧ t.group? u = some g' ∧ ReadOnly s t u ∧ Retired g g' pc m (mk d a r k) ∧
      VectorWritten g g' m d.toNat n (fun j l => v (((ts.find? (fun e => decide (e.1.lane = l))).map (fun e => bytesAt s.rawByte e.2.loc w)).getD []) j)

/-- A scalar load (R201). -/
def ScalarLoad (mk : F7 → F7 → BitVec 5 → BitVec 6 → Instr) (w : Nat) (v : List Byte → W64) : Prop :=
  ∀ s u g pc m d a r k e s1, Passes s u g pc m (mk d a r k) → Quiet s g.team → Ordinary s w [e] →
    s.access (issueCtx u g pc m (mk d a r k)) r loadKinds 1 .load w (groupAccs g m a (k.toNat * w)) = (.ok [e], s1) →
    ∃ t g', exec (mk d a r k) s = .next t ∧ t.group? u = some g' ∧ ReadOnly s t u ∧ Retired g g' pc m (mk d a r k) ∧
      ScalarWritten g g' d.toNat (v (bytesAt s.rawByte e.2.loc w))

/-- What a store leaves (R200, R201): its bytes at its places in ascending lane order, every other byte as before; no register changes. -/
structure Stored (s t : State) (u : Nat) (g : Group) (pc : Pc) (m : W64) (i : Instr) (w : Nat) (f : Nat → List Byte) (ts : List (Acc × Trans)) : Prop where
  bytes  : ∀ l, t.rawByte l = storesTo f ts s.rawByte l
  others : ∀ v, v ≠ u → t.group? v = s.group? v
  group  : ∃ g', t.group? u = some g' ∧ Retired g g' pc m i ∧ g'.regs = g.regs ∧ g'.shadow = g.shadow
  tags   : ∀ e ∈ ts, ∀ k, k < w → t.tagAt (e.2.loc.add k) = false

/-- A vector or scalar store into ordinary memory: a capability that is no connection, a launch that holds no store back. -/
def VectorStore (mk : F7 → F7 → BitVec 5 → BitVec 6 → Instr) (w : Nat) (f : Group → F7 → Nat → List Byte) : Prop :=
  ∀ s u g pc m d a r k ts s1, Passes s u g pc m (mk d a r k) → g.mode ≠ 1 → Ordinary s w ts → s.heldMode g.launch = false →
    (g.regs.rc r.toNat).kind ≠ kHostio → (g.regs.rc r.toNat).kind ≠ kWindow →
    s.access (issueCtx u g pc m (mk d a r k)) r storeKinds 2 .store w (laneAccs g m a (k.toNat * w)) = (.ok ts, s1) →
    ∃ t, exec (mk d a r k) s = .next t ∧ Stored s t u g pc m (mk d a r k) w (f g d) ts

def ScalarStore (mk : F7 → F7 → BitVec 5 → BitVec 6 → Instr) (w : Nat) (f : Group → F7 → List Byte) : Prop :=
  ∀ s u g pc m d a r k e s1, Passes s u g pc m (mk d a r k) → g.mode ≠ 1 → Ordinary s w [e] → s.heldMode g.launch = false →
    (g.regs.rc r.toNat).kind ≠ kHostio → (g.regs.rc r.toNat).kind ≠ kWindow →
    s.access (issueCtx u g pc m (mk d a r k)) r storeKinds 2 .store w (groupAccs g m a (k.toNat * w)) = (.ok [e], s1) →
    ∃ t, exec (mk d a r k) s = .next t ∧ Stored s t u g pc m (mk d a r k) w (fun _ => f g d) [e]

/-- A vector atomic (R203): one read-modify-write after the other in ascending lane order; each executing lane takes its word's old value. -/
def VectorAtomic (mk : F7 → F7 → BitVec 5 → BitVec 5 → Instr) (f : W32 → W32 → W32 → W32) : Prop :=
  ∀ s u g pc m d a r b ts s1, Passes s u g pc m (mk d a r b) → g.mode ≠ 1 → Quiet s g.team → Ordinary s 4 ts → s.heldMode g.launch = false →
    (g.regs.rc r.toNat).kind ≠ kHostio →
    s.access (issueCtx u g pc m (mk d a r b)) r atomKinds (1 + 2 + 8) .atomic 4 (laneAccs g m a 0) = (.ok ts, s1) →
    let new (l old : Nat) : Nat := (f (BitVec.ofNat 32 old) (g.regs.rv b.toNat l) (g.regs.rv d.toNat l)).toNat
    ∃ t g', exec (mk d a r b) s = .next t ∧ t.group? u = some g' ∧ (∀ v, v ≠ u → t.group? v = s.group? v) ∧ Retired g g' pc m (mk d a r b) ∧
      (∀ l, t.rawByte l = (rmwsTo 4 new ts s.rawByte).2 l) ∧
      VectorWritten g g' m d.toNat 1 (fun _ l => BitVec.ofNat 32 ((((rmwsTo 4 new ts s.rawByte).1.find? (fun e => decide (e.1 = l))).map (·.2)).getD 0))

/-- A scalar atomic: one access for the group. -/
def ScalarAtomic (mk : F7 → F7 → BitVec 5 → BitVec 5 → Instr) (f : W64 → W64 → W64 → W64) : Prop :=
  ∀ s u g pc m d a r b e s1, Passes s u g pc m (mk d a r b) → g.mode ≠ 1 → Quiet s g.team → Ordinary s 8 [e] → s.heldMode g.launch = false →
    (g.regs.rc r.toNat).kind ≠ kHostio →
    s.access (issueCtx u g pc m (mk d a r b)) r atomKinds (1 + 2 + 8) .atomic 8 (groupAccs g m a 0) = (.ok [e], s1) →
    let old : W64 := BitVec.ofNat 64 (ofBytes (bytesAt s.rawByte e.2.loc 8))
    ∃ t g', exec (mk d a r b) s = .next t ∧ t.group? u = some g' ∧ (∀ v, v ≠ u → t.group? v = s.group? v) ∧ Retired g g' pc m (mk d a r b) ∧
      (∀ l, t.rawByte l = storeTo s.rawByte e.2.loc (toBytes 8 (f old (g.regs.rs b.toNat) (g.regs.rs d.toNat)).toNat) l) ∧
      ScalarWritten g g' d.toNat old

/-- A word whose accesses fail a check of R62 raises that fault, and has no effect. -/
def AccessFault (i : Instr) (s : State) (u : Nat) (g : Group) (pc : Pc) (m : W64) (r : BitVec 5) (kinds : List Nat) (need w : Nat) (accs : List Acc) : Prop :=
  ∀ h s1, Passes s u g pc m i → g.mode ≠ 1 → s.capCheck (s.actor u g) (g.regs.rc r.toNat) kinds need w accs = (some h, s1) →
    exec i s = .next (s1.takeFault u m h false)

/-! ### Control words -/

/-- A branch outside bounds mode (R163): `v` is what a lane's condition says; in a settled dispatch a conditional branch follows the path record while it
lasts (R108). -/
def Branch (mk : F7 → BitVec 4 → BitVec 14 → Instr) (cond : Bool) (v : Group → F7 → Nat → Bool) : Prop :=
  ∀ s u g pc m a p o, Passes s u g pc m (mk a p o) → g.mode ≠ 1 →
    let t : Pc := pc + o.signExtend 48 * 4
    let take (l : Nat) : Bool := executes g m l && (match (g.lane l).tile with
      | none => v g a l
      | some k => if cond = true ∧ g.mode = 2 ∧ k.nbr < k.ndec then bit k.path k.nbr else v g a l)
    (t.toNat % 32 ≠ 0 ∨ (∀ l, take l = false) → Places (mk a p o) s u g m (fun l x =>
      { x with pc := if take l then t else nextPc pc, prio := if take l then p.toNat else x.prio,
               tile := if cond then x.tile.map (fun k => { k with nbr := k.nbr + 1 }) else x.tile })) ∧
    (t.toNat % 32 = 0 → (∃ l, take l = true) → exec (mk a p o) s = .next (s.takeFault u m (Hard.plain 0x03) false))

/-- The targets of an indirect transfer pass its checks (R169): a tagged code capability with X for the group's own code object, and for each executing lane
an offset whose word lies in its window, is aligned and is no word 0. -/
def CodeTargets (g : Group) (c : Cap) (m : W64) (off : Nat → Nat) : Prop :=
  c.tag = true ∧ c.kind = kCode ∧ c.has rX = true ∧ c.obj = (g.regs.rc 29).obj ∧
    ∀ l, executes g m l = true → off l + 4 ≤ c.length ∧ (c.base + off l) % 4 = 0 ∧ (c.base + off l) % 32 ≠ 0

/-- The word completes; of its group only the members of a rejoin set differ: `f` says for each lane whether it is one. -/
def SetWritten (i : Instr) (s : State) (u : Nat) (g : Group) (pc : Pc) (m : W64) (d : F7) (f : Nat → Bool) : Prop :=
  ∃ t g', exec i s = .next t ∧ t.group? u = some g' ∧ OnlyGroup s t u ∧ g'.regs = g.regs ∧
    (∀ l, l < 64 → bit (g'.set d.toNat).member l = f l) ∧ (g'.set d.toNat).waiting = (g.set d.toNat).waiting ∧
    (∀ n, n ≠ d.toNat → g'.set n = g.set n) ∧ g'.lanes = mapMask m (fun _ x => { x with pc := nextPc pc }) 0 g.lanes

/-! ### Invariants -/

/-- The canonical form of memory: every byte store and the tags list their keys in rising order, and no entry equal to what an unlisted one reads. -/
def MemoryCanonical (s : State) : Prop :=
  s.mem.wf = true ∧ s.hostMem.wf = true ∧ Tab.wf false s.mtags = true

/-! ### Synchronisation -/

/-- The word has placed its lanes (`f` says where lane `l` goes) and written no byte; its registers are as before. Other groups may have changed. -/
structure Moved (s t : State) (u : Nat) (g : Group) (m : W64) (f : Nat → Lane → Lane) : Prop where
  group : ∃ g', t.group? u = some g' ∧ g'.regs = g.regs ∧ g'.shadow = g.shadow ∧ g'.rm = g.rm ∧ g'.js = g.js ∧ g'.lanes = mapMask m f 0 g.lanes
  bytes : ∀ l, t.rawByte l = s.rawByte l
  ctxs  : t.ctxs = s.ctxs
  parts : t.parts = s.parts

/-- Group `v` has arrived at a barrier of which `arrived` lists the arrivals: it is listed, or all its live lanes wait there. -/
def HasArrived (s : State) (arrived : List Nat) (st : LaneState) (id v : Nat) : Prop :=
  v ∈ arrived ∨ ∃ h, s.group? v = some h ∧ h.allIn st id = true

/-- With the lanes of `m` placed there, all live lanes of the group wait at the barrier, and one of them is placed now. -/
def Arrives (g : Group) (m : W64) (st : LaneState) (id : Nat) : Prop :=
  (∃ l, executes g m l = true ∧ l < g.lanes.length ∧ l < 64) ∧
  ∀ l, l < g.width → (g.lane l).state ≠ .exit → bit m l = true ∨ ((g.lane l).state = st ∧ (g.lane l).id = id)

/-- The engine writes after a publication at a level (0 for the group alone, else the scope + 1), whose place in T is n: those of the covered operations, once
made, have that place for every observer of the level for which they had none (R134, R135). -/
def Published (covered : Nat → Bool) (level n : Nat) (us vs : List Unpub) : Prop :=
  us.length = vs.length ∧ ∀ (k : Nat) (u v : Unpub), us[k]? = some u → vs[k]? = some v → { v with pubs := u.pubs } = u ∧
    ∀ o, v.since o = (u.since o).or (if covered u.op && u.ended && u.serves o level then some n else none)

/-- A team barrier object at a place (R207): EXPECTED, PHASE and PENDING. -/
def barrierObject (expected : Nat) (phase : Bool) (pending : Nat) : Nat := expected * 2 ^ 32 + (if phase then 2 ^ 31 else 0) + pending

/-- The value of 8 bytes at a place of team memory. -/
def teamWord (s : State) (t o : Nat) : W64 := BitVec.ofNat 64 (ofBytes (bytesAt s.rawByte (.team t o) 8))

/-- The word stores 8 bytes at a place of its team's memory. -/
def StoresTeamWord (i : Instr) (s : State) (u : Nat) (g : Group) (pc : Pc) (m : W64) (o v : Nat) (p : Group → Prop) : Prop :=
  ∃ t g', exec i s = .next t ∧ t.group? u = some g' ∧ (∀ w, w ≠ u → t.group? w = s.group? w) ∧ Retired g g' pc m i ∧ p g' ∧
    ∀ l, t.rawByte l = storeTo s.rawByte (.team g.team o) (toBytes 8 v) l

/-- A channel of the group's launch, declared (R124). -/
def Channel (s : State) (g : Group) (q : F7) (ln : Launch) (ch : Chan) : Prop :=
  s.launch? g.launch = some ln ∧ Tab.find ln.chans (q.toNat - 64) = some ch

/-- The word completes; besides its group only that channel differs. -/
def ChannelWritten (i : Instr) (s : State) (u : Nat) (g : Group) (pc : Pc) (m : W64) (ln : Launch) (q : F7) (ch : Chan) (p : Group → Prop) : Prop :=
  ∃ t g' ln', exec i s = .next t ∧ t.group? u = some g' ∧ (∀ v, v ≠ u → t.group? v = s.group? v) ∧ (∀ l, t.rawByte l = s.rawByte l) ∧
    Retired g g' pc m i ∧ p g' ∧ t.launch? g.launch = some ln' ∧ { ln' with chans := ln.chans } = ln ∧
    ∀ n, Tab.find ln'.chans n = if n = q.toNat - 64 then some ch else Tab.find ln.chans n

/-- The executing lanes park at the word (R57). -/
def Parks (g g' : Group) (pc : Pc) (m : W64) (w : Park) (since : Nat) : Prop :=
  g'.lanes = mapMask m (fun _ x => { x with state := .park, park := w, pc := pc, since := since }) 0 g.lanes ∧ g'.regs = g.regs ∧ g'.shadow = g.shadow

/-! ### Claims, tensors and the array -/

/-- The word waits: it has no effect; its group issues no other memory word before it (R139). -/
def Waits (i : Instr) (s : State) (u : Nat) (pc : Pc) : Prop := exec i s = .next (s.onGroup u (fun g => { g with memHold := some pc }))

/-- A memory word that has retired with these registers, and has changed no byte and no other group. -/
structure Performed (s t : State) (u : Nat) (g : Group) (pc : Pc) (m : W64) (p : Group → Prop) : Prop where
  group  : ∃ g', t.group? u = some g' ∧ g'.lanes = mapMask m (fun _ x => { x with pc := nextPc pc }) 0 g.lanes ∧ g'.shadow = g.shadow ∧ p g'
  others : ∀ v, v ≠ u → t.group? v = s.group? v
  bytes  : ∀ l, t.rawByte l = s.rawByte l

/-- Claim register `k` of team `n` becomes `c`; every other claim register of the machine is as before. -/
def ClaimWritten (s t : State) (n k : Nat) (c : Claim) : Prop := ∀ x j, (s.team? x).isSome = true → t.claim x j = if x = n ∧ j = k then c else s.claim x j

/-- The flow specification in four scalars from `b` on (R120) names an allowed flow between windows of these lengths. -/
def FlowInRange (r : Regs) (b slen dlen : Nat) : Prop :=
  let src := (r.rs b).toNat
  let dst := (r.rs (b + 1)).toNat
  let bytes := (r.rs (b + 2)).toNat % 2 ^ 32
  let rows := (r.rs (b + 2)).toNat / 2 ^ 32 % 2 ^ 16
  let sst := (r.rs (b + 3)).toNat % 2 ^ 32
  let dstr := (r.rs (b + 3)).toNat / 2 ^ 32
  (r.rs (b + 2)).toNat / 2 ^ 48 = 0 ∧ 32 ≤ bytes ∧ 1 ≤ rows ∧ bytes * rows ≤ 2 ^ 20 ∧
  bytes % 32 = 0 ∧ src % 32 = 0 ∧ dst % 32 = 0 ∧ sst % 32 = 0 ∧ dstr % 32 = 0 ∧ (rows ≤ 1 ∨ bytes ≤ dstr) ∧
  src + (rows - 1) * sst + bytes ≤ slen ∧ dst + (rows - 1) * dstr + bytes ≤ dlen

/-- The window offsets of its bytes, row by row: of its source, and of its destination. -/
def flowSources (r : Regs) (b : Nat) : List Nat :=
  (List.range ((r.rs (b + 2)).toNat / 2 ^ 32 % 2 ^ 16)).flatMap (fun n => (List.range ((r.rs (b + 2)).toNat % 2 ^ 32)).map
    (fun j => (r.rs b).toNat + n * ((r.rs (b + 3)).toNat % 2 ^ 32) + j))
def flowTargets (r : Regs) (b : Nat) : List Nat :=
  (List.range ((r.rs (b + 2)).toNat / 2 ^ 32 % 2 ^ 16)).flatMap (fun n => (List.range ((r.rs (b + 2)).toNat % 2 ^ 32)).map
    (fun j => (r.rs (b + 1)).toNat + n * ((r.rs (b + 3)).toNat / 2 ^ 32) + j))

/-- What an engine reads at some places, each under its key slot, while no write is unpublished: their bytes, if the slots may read them. -/
def ReadsTrue (s : State) (ps : List (Loc × Nat)) (bs : List Byte) : Prop :=
  s.unpub = [] → (∀ e ∈ ps, s.readable e.2 e.1 = true) → bs = ps.map (fun e => s.rawByte e.1)

/-- Of the registers only gang register `d` differs. -/
structure GangWritten (g g' : Group) (d : Nat) (x : W64) : Prop where
  gangs   : ∀ n, g'.regs.rg n = if n = d then x else g.regs.rg n
  vectors : g'.regs.v = g.regs.v
  scalars : g'.regs.s = g.regs.s
  caps    : g'.regs.c = g.regs.c
  base    : g'.regs.wb = g.regs.wb
  shadow  : g'.shadow = g.shadow

/-- The gang values that `gset` accepts (R224): COUNT in [2:0], BANDS in [3], member i in [8i + 15 : 8i + 8]. -/
def GangValue (v : W64) : Prop :=
  let n := v.toNat % 8
  let member (i : Nat) : Nat := v.toNat / 2 ^ (8 * i + 8) % 256
  1 ≤ n ∧ n ≤ 6 ∧ (v.toNat / 8 % 2 = 1 → n % 2 = 0) ∧ (v.toNat / 8 % 2 = 0 → n ≤ 4) ∧ v.toNat / 16 % 16 = 0 ∧ v.toNat / 2 ^ 56 = 0 ∧
  (∀ i, n ≤ i → i < 6 → member i = 0) ∧ (∀ i j, i < j → j < n → member i ≠ member j)

/-- The context of partition `p` holds for every tid the entry that `f` says. -/
def TensorsWritten (t : State) (p : Nat) (f : Nat → Option TEntry) : Prop := ∀ n, t.tensor p n = f n

/-- No matrix operation of the group is queued or waits at the latch (R231), and none of another group meets its team's accumulators. -/
def ArrayIdle (s : State) : Prop := s.mats = [] ∧ s.latch = []

/-- The accumulators of a team that are defined. -/
def accDefined (t : Team) (k : Nat) : Prop := Tab.get false t.accBad k = false

/-! ### Bounds mode -/

/-- The bounds-mode word completes with its result intervals `f` in the executing lanes (R101). -/
def BoundsResult (i : Instr) (s : State) (u : Nat) (g : Group) (pc : Pc) (m : W64) (d : Nat) (f : Nat → Iv) : Prop :=
  Completes i s u g pc m (fun g' => IntervalWritten g g' m d f)

/-- The tiles of the executing lanes end with an outcome; their lanes leave the evaluation (R103, R106). -/
def EndsTiles (i : Instr) (s : State) (u : Nat) (g : Group) (m : W64) (e : TileEnd) : Prop :=
  Places i s u g m (fun _ x => { x with state := .exit, tile := x.tile.map (fun k => { k with ended := some e }) })

/-- The tensor, i2 and i3 that a scalar of `tld`, `tst` and `bfill` names (R104). -/
def ElementTensor (s : State) (g : Group) (x : W64) (e : TEntry) (i2 i3 : Nat) : Prop :=
  x.toNat / 2 ^ 44 = 0 ∧ s.tensor g.part (x.toNat % 2 ^ 12) = some e ∧ e.comp = 0 ∧ i2 = x.toNat / 2 ^ 12 % 2 ^ 16 ∧ i3 = x.toNat / 2 ^ 28 % 2 ^ 16

/-- The elements that the executing lanes name: i0 in `vb`, i1 in `vb + 1`. -/
def laneElems (g : Group) (m : W64) (b : F7) (i2 i3 : Nat) : List Elem :=
  (execList g m).map (fun l => ⟨l, i3, i2, (g.regs.rv (b.toNat + 1) l).toNat, (g.regs.rv b.toNat l).toNat⟩)

/-- Memory after the stores of some elements, lane after lane: an element of 4 bits changes its nibble, any other its bytes. -/
def elemsTo (e : TEntry) (v : Nat → Nat) : List (Elem × Trans) → (Loc → Byte) → Loc → Byte
  | [], mem => mem
  | (y, t) :: ys, mem =>
    elemsTo e v ys (storeTo mem t.loc
      (if e.bits = 4 then [setField (mem t.loc) (e.bitOff y.i3 y.i2 y.i1 y.i0 % 8) 4 (v y.lane)] else toBytes e.elBytes (v y.lane)))

/-- The word stores the codes of its lanes' words at its elements. -/
def ElementsStored (i : Instr) (s : State) (u : Nat) (g : Group) (pc : Pc) (m : W64) (e : TEntry) (es : List Elem) (ts : List (Acc × Trans)) (v : Nat → W32) : Prop :=
  ∃ t, exec i s = .next t ∧ (∀ w, w ≠ u → t.group? w = s.group? w) ∧ (∃ g', t.group? u = some g' ∧ Retired g g' pc m i ∧ g'.regs = g.regs) ∧
    ∀ l, t.rawByte l = elemsTo e (fun n => e.encode g.rm (v n)) (es.zip (ts.map (·.2))) s.rawByte l

/-! ### System words -/

/-- The word completes; besides its group only the contexts' registers may differ: those of the current context of partition `p` become `f` of it. -/
def ContextWritten (i : Instr) (s : State) (u : Nat) (g : Group) (pc : Pc) (m : W64) (p : Nat) (c c' : Context) : Prop :=
  s.context? p = some c ∧ ∃ t g', exec i s = .next t ∧ t.group? u = some g' ∧ (∀ v, v ≠ u → t.group? v = s.group? v) ∧ Retired g g' pc m i ∧ g'.regs = g.regs ∧
    t.context? p = some c'

/-- No management operation is under way on the partition, and no reset. -/
def Unmanaged (s : State) (p u : Nat) : Prop := s.opBusy p = false ∧ s.hasOp (.group u) = false

/-- A management word of a group that ends at once: its group retires. -/
def Managed (i : Instr) (s : State) (u : Nat) (g : Group) (pc : Pc) (m : W64) (p : State → Prop) : Prop :=
  ∃ t g', exec i s = .next t ∧ t.group? u = some g' ∧ g'.lanes = mapMask m (fun _ x => { x with pc := nextPc pc }) 0 g.lanes ∧ g'.regs = g.regs ∧ p t

/-- The intervals that registers hold: one value, or bounds in the order of the tag; an F interval without a number stands for NaN alone (R101). -/
def Legit (a : Iv) : Prop :=
  (a.lo = a.hi ∧ a.nan = false) ∨
  match a.tag with
  | .s => a.lo.toInt ≤ a.hi.toInt
  | .z => a.lo.toNat ≤ a.hi.toNat
  | .f => (¬ isNan a.lo ∧ ¬ isNan a.hi ∧ ¬ belowF a.hi a.lo) ∨ (isNan a.lo ∧ isNan a.hi ∧ a.nan = true)

/-- The interval stands for the value: it is its one value, or lies between the bounds in the tag's order, or is a NaN where one may occur. -/
def Stands (a : Iv) (x : W32) : Prop :=
  if a.lo = a.hi ∧ a.nan = false then x = a.lo
  else match a.tag with
    | .s => a.lo.toInt ≤ x.toInt ∧ x.toInt ≤ a.hi.toInt
    | .z => a.lo.toNat ≤ x.toNat ∧ x.toNat ≤ a.hi.toNat
    | .f => if isNan x then a.nan = true ∨ isNan a.lo else ¬ isNan a.lo ∧ ¬ isNan a.hi ∧ ¬ belowF x a.lo ∧ ¬ belowF a.hi x

/-- R102: whatever values the operand intervals stand for, the result interval stands for the instruction's result on them. -/
def IntervalOp1 (mk : F7 → F7 → Instr) (f : Nat → W32 → W32) : Prop :=
  ∀ s u g pc m d a, Passes s u g pc m (mk d a) → g.mode = 1 → ∃ r, BoundsResult (mk d a) s u g pc m d.toNat r ∧
    ∀ l x, Legit (laneIv g a.toNat l) → Stands (laneIv g a.toNat l) x → Legit (r l) ∧ Stands (r l) (f g.rm x)

def IntervalOp2 (mk : F7 → F7 → F7 → Instr) (f : Nat → W32 → W32 → W32) : Prop :=
  ∀ s u g pc m d a b, Passes s u g pc m (mk d a b) → g.mode = 1 → ∃ r, BoundsResult (mk d a b) s u g pc m d.toNat r ∧
    ∀ l x y, Legit (laneIv g a.toNat l) → Legit (laneIv g b.toNat l) → Stands (laneIv g a.toNat l) x → Stands (laneIv g b.toNat l) y →
      Legit (r l) ∧ Stands (r l) (f g.rm x y)

def IntervalOp3 (mk : F7 → F7 → F7 → Instr) (f : Nat → W32 → W32 → W32 → W32) : Prop :=
  ∀ s u g pc m d a b, Passes s u g pc m (mk d a b) → g.mode = 1 → ∃ r, BoundsResult (mk d a b) s u g pc m d.toNat r ∧
    ∀ l z x y, Legit (laneIv g d.toNat l) → Legit (laneIv g a.toNat l) → Legit (laneIv g b.toNat l) →
      Stands (laneIv g d.toNat l) z → Stands (laneIv g a.toNat l) x → Stands (laneIv g b.toNat l) y → Legit (r l) ∧ Stands (r l) (f g.rm z x y)

def IntervalImm (mk : F7 → F7 → BitVec 10 → Instr) (f : W32 → BitVec 10 → W32) : Prop :=
  ∀ s u g pc m d a k, Passes s u g pc m (mk d a k) → g.mode = 1 → ∃ r, BoundsResult (mk d a k) s u g pc m d.toNat r ∧
    ∀ l x, Legit (laneIv g a.toNat l) → Stands (laneIv g a.toNat l) x → Legit (r l) ∧ Stands (r l) (f x k)

/-! ### Steps without an encoding -/

/-- The step changes group `u` alone, to `g'`. -/
def GroupBecomes (i : Instr) (s : State) (u : Nat) (p : Group → Prop) : Prop :=
  ∃ t g', exec i s = .next t ∧ t.group? u = some g' ∧ OnlyGroup s t u ∧ p g'

/-- A lane that goes on after the word at which it has waited (R30). -/
def released (x : Lane) : Lane := { x with state := .run, pc := nextPc x.pc, age := 0, id := 0, park := .no }

/-- The context of a group counts its times and takes its replies: it runs, or the group is of a service team. -/
def Live (s : State) (g : Group) : Prop := g.level ≠ .u ∨ ∃ c, s.context? g.part = some c ∧ c.state = .running

/-- The bounds sequencer may start something for the group (R110). -/
def Startable (s : State) (g : Group) : Prop := Live s g ∧ g.fault = none ∧ g.halted = false ∧ g.dispatch = none

/-- The group of a dispatch that ends is as before the dispatch but for what R122 lets in from outside: the registers, rounding control, sets and lanes saved
at its start. -/
structure Restored (g g' : Group) (d : Dispatch) : Prop where
  regs  : g'.regs = d.regs
  rm    : g'.rm = d.rm
  js    : g'.js = d.js
  lanes : g'.lanes = d.lanes
  mode  : g'.dispatch = none

/-- A dispatch starts on group `u`: mode, entry, what its lanes stand for; the lanes that stand for nothing are out. -/
structure Dispatched (g g' : Group) (mode : Nat) (entry : Pc) (f : Nat → Option TileLane) : Prop where
  mode  : g'.mode = mode
  saved : ∃ d, g'.dispatch = some d ∧ d.regs = g.regs ∧ d.lanes = g.lanes ∧ d.js = g.js ∧ d.rm = g.rm
  lanes : ∀ l, l < g.width → (f l = none → (g'.lane l).state = .exit) ∧
    (∀ t, f l = some t → (g'.lane l).state = .run ∧ (g'.lane l).pc = entry ∧ (g'.lane l).tile = some t)
  sets  : g'.js = []

/-- The places that an engine operation writes: distinct, no page copy missing its frames, in stores that exist, under one key slot that may read them, and no
register of a service queue (R270). -/
structure Writable (s : State) (ds : List (Loc × Nat)) : Prop where
  distinct : (ds.map (·.1)).Nodup
  copied   : s.snapShort (ds.map (·.1)) = none
  slots    : ∀ e ∈ ds, ∀ e' ∈ ds, e.2 = e'.2
  readable : ∀ e ∈ ds, s.readable e.2 e.1 = true
  exist    : ∀ e ∈ ds, ∀ t o, e.1 = .team t o ∨ e.1 = .wbuf t o → (s.team? t).isSome = true
  plain    : ∀ e ∈ ds, queueReg s.queues e.1 = false

/-- The writes of operation `op` are made: at each place its byte stands outside T, published to nobody, and T's own byte is as before (R133). -/
structure WritesMade (s t : State) (op : Nat) (ds : List (Loc × Nat)) (bs : List Byte) : Prop where
  made  : ∀ n d, ds[n]? = some d → ∃ e ∈ t.unpub, e.loc = d.1 ∧ e.bytes = [bs.getD n 0] ∧ e.op = op ∧ e.ended = true ∧ e.pubs = []
  only  : ∀ e ∈ t.unpub, e.op = op → e.ended = true
  bytes : ∀ l, t.rawByte l = s.rawByte l

/-- The operation has made no write yet. -/
def Unmade (s : State) (op : Nat) : Prop := ∀ e ∈ s.unpub, e.op = op → e.ended = false ∧ e.pubs = []

/-- The bytes are at these places, one for one; every other byte is as before. -/
def BytesAt (s t : State) (ds : List (Loc × Nat)) (bs : List Byte) : Prop :=
  (∀ n d, ds[n]? = some d → t.rawByte d.1 = bs.getD n 0) ∧ ∀ l, (∀ d ∈ ds, d.1 ≠ l) → t.rawByte l = s.rawByte l

/-- The token of operation `op` reaches its group: scalar register `sd` holds `v` and waits no longer. -/
def Token (t : State) (u op sd : Nat) (v : Nat) : Prop :=
  ∃ g', t.group? u = some g' ∧ g'.regs.rs sd = BitVec.ofNat 64 v ∧ ∀ p ∈ g'.pend, p.why ≠ .op op

/-- The host's accesses reach a stream's registers, and no stopped block holds them: `d` is what they hold. -/
def StreamAt (s : State) (r : StreamRef) (d : Stream) : Prop :=
  s.stream r = some d ∧ match r with
    | .mgmt => True
    | .user p _ => s.pf.ready = true ∧ (∃ x, s.part? p = some x ∧ x.cut = false) ∧ ∃ c, s.context? p = some c ∧ (c.state = .running ∨ c.state = .stopping)

/-- A register write makes `d` of a stream; the streams of the context otherwise, and every byte, are as before. -/
def StreamWritten (i : Instr) (s : State) (r : StreamRef) (d : Stream) : Prop :=
  ∃ t, exec i s = .next t ∧ t.stream r = some d ∧ (∀ l, t.rawByte l = s.rawByte l) ∧ (r ≠ .mgmt → t.stream .mgmt = s.stream .mgmt) ∧
    ∀ p n k, r = .user p n → k ≠ n → t.stream (.user p k) = s.stream (.user p k)

/-- The front end of stream `n` of partition `p` may start a packet, and finds one with this header and body (R279, R281). -/
structure PacketAt (s : State) (p n : Nat) (x : Part) (d : Stream) (h : W64) (ws : List W64) : Prop where
  part   : s.part? p = some x
  stream : s.stream (.user p n) = some d
  due    : d.due = []
  open_  : s.sfeOpen p d = true
  found  : s.sfeStart p x.pktver d = .packet h ws

/-- Step `k` of a packet under way on a stream, with its header and body. -/
structure PacketOn (s : State) (p n k : Nat) (d : Stream) (h : W64) (ws : List W64) : Prop where
  stream : s.stream (.user p n) = some d
  due    : d.due = []
  serves : s.sfeServes p d = true
  step   : d.step = k
  head   : s.ringWord p d 0 = .at h
  body   : s.ringWords p d ((List.range (hLen h)).tail) = .ok ws

/-- The packet is over: HEAD has passed it, the stream is idle, and no error is set. -/
def PacketOver (t : State) (p n : Nat) (d : Stream) (h : W64) : Prop :=
  ∃ d', t.stream (.user p n) = some d' ∧ d'.head = d.head + BitVec.ofNat 64 (hLen h) ∧ d'.busy = false ∧ d'.step = 0 ∧ d'.error = d.error

/-- The management stream's ring holds one packet, of a type, with a good header, that may start or is under way (R280, R283). -/
structure MgmtPacket (s : State) (type : Nat) (m : MgmtAt) : Prop where
  enable  : s.pf.mgmt.enable = true
  clocked : s.pf.current ≤ 1
  ready   : s.pf.ready = true
  due     : s.pf.mgmt.due = []
  room    : s.pf.mgmt.room = true
  ring    : s.mgmtRing = [m]
  good    : m.bad = false
  type    : hType (m.words.headD 0) = type
  version : s.pf.pktver ≠ 0 ∧ hVersion (m.words.headD 0) = s.pf.pktver.toNat
  started : s.pf.pkts = [] ∨ s.pf.pkts = [⟨m.pos, m.words, false⟩]
  held    : s.hasOp (.packet m.pos) = true ∨ ∀ p ∈ s.pktNames m, s.resetting p = false

/-- The partition is configured, and no management operation or reset is under way there. -/
def Idle (s : State) (p : Nat) (m : MgmtAt) : Prop := (s.part? p).isSome = true ∧ s.opBusy p = false ∧ s.hasOp (.packet m.pos) = false

/-- A packet without COMPLETE = 1: no completion record is due when it ends DONE (R285). -/
abbrev silent (m : MgmtAt) : Prop := hComplete (m.words.headD 0) = false

end Sys2Proof
end

