-- ==== Sys2Proof/Certificates/Slice0/Obligations.lean ====
section
/-! DEFINITION. The statements for the provers, from the numbered rules of spec/: encoding and issue, the integer, floating-point and cross-lane
instructions, control, memory, synchronisation, claims, tensors and the matrix array, capabilities, the bounds pass, the system instructions, and the
steps without an encoding. Each docstring names the rules that it rests on. -/

open Sys2Proof Sys2Proof.Machine

/-! ### Encoding and issue -/

/-- R143, R148: words written out from the manual's encodings, decoded. -/
def Obligations.DecodedWords : Prop :=
  decodeWord 0x00A0410E = some (.vdivS 5 1 2) ∧ decodeWord 0x00814316 = some (.vsel 4 5 6) ∧ decodeWord 0x106067FB = some (.vcmpiLtS 3 1 0x3FB) ∧
  decodeWord 0x204083FF = some (.saddi 2 2 0x3FF) ∧ decodeWord 0x3096789A = some (.smovi 4 0x6789A) ∧ decodeWord 0x41018383 = some (.ffma 8 6 7) ∧
  decodeWord 0x50604116 = some (.vshflXor 3 1 2) ∧ decodeWord 0x7000000E = some .nop ∧ decodeWord 0x70000002 = some .ret ∧
  decodeWord 0x7002400F = some (.brk 9) ∧ decodeWord 0x7000400E = none ∧ decodeWord 0x0040409B = none ∧ decodeWord 0xF0000000 = none ∧ decodeWord 0x00000000 = some (.vadd 0 0 0)

/-- R143, R144, R148: every word that the encoder makes decodes to its instruction; no bit of an operand is dropped. R147 steps 1 to 3: every word that decodes is the encoding
of its instruction: no unassigned code and no nonzero unused field decodes. -/
def Obligations.EncodedWordsDecode : Prop :=
  (∀ i w, encode i = some w → decodeWord w = some i) ∧
  (∀ i w, decodeWord w = some i → encode i = some w)

/-- R23, R32, R140: a group that has the turn runs the word that its fetch has decoded at the first entry in the order of R32, if that is ready: the step is `exec` of that word,
with the entry's ageing before it and the stall count, the counters, the forming of the frontiers and the passing of one aclk after it. R62, R139, R138, R147, R275: a fetch
makes the checks of the code capability, finds the word at the PC in an octet that the group holds or fetches, and raises the fault of a bad control word or of a word that does
not decode; word 0 is never issued. That a step is the issue of one word and one aclk, and that an octet already held is checked anew at every issue, are the model's choices (log entries 9 and 119). -/
def Obligations.StepRunsIssuedWord : Prop :=
  (∀ (s : State) rest u (g : Group) (e : Entry) i n (s2 : State), s.agenda = .group u :: rest → s.group? u = some g →
    let s1 := { s with agenda := rest }
    let s3 := s2.onGroup u (fun g => { g.ageIssue e.mask with yielded := none })
    s1.mayIssue g = true → pickEntry g.yielded g.frontier = some e → s1.fetch u g e.pc = (.word i n, s2) → g.ready e.pc e.mask i = true → (isAcc i = true → s2.matrixBusy u = false) →
    (∀ t, exec i { s3 with cur := some ⟨u, e.pc, e.mask, i, none⟩ } = .next t → t.heldAt u e.pc = false →
      step s = .next (({ t with cur := none }.account u g e.pc e.mask n).regroup.tick)) ∧
    (∀ f, exec i { s3 with cur := some ⟨u, e.pc, e.mask, i, none⟩ } = .fault f → step s = .fault f) ∧
    (∀ r, exec i { s3 with cur := some ⟨u, e.pc, e.mask, i, none⟩ } = .refused r → step s = .refused r)) ∧
  (∀ (es : List Entry), es ≠ [] → ∃ e, pickEntry none es = some e ∧ e ∈ es ∧ ∀ x ∈ es, let old := ∃ y ∈ es, 64 ≤ y.age
    (old → x.age < e.age ∨ (x.age = e.age ∧ e.pc.toNat ≤ x.pc.toNat)) ∧ (¬ old → x.prio < e.prio ∨ (x.prio = e.prio ∧ e.pc.toNat ≤ x.pc.toNat))) ∧
  (∀ (s : State) u (g : Group) (pc : Pc), let c := g.regs.rc 29
    let o := pc.toNat / 32 * 32
    (c.tag = false → s.fetch u g pc = (.hard ⟨0x12, none, c.obj, o, 0⟩, s)) ∧
    (c.tag = true → c.kind ≠ kCode → s.fetch u g pc = (.hard ⟨0x11, none, c.obj, o, 0⟩, s)) ∧
    (c.tag = true → c.kind = kCode → c.has rX = false → s.fetch u g pc = (.hard ⟨0x1A, none, c.obj, o, 0⟩, s)) ∧
    (c.tag = true → c.kind = kCode → c.has rX = true → o < c.base ∨ c.base + c.length < o + 32 → s.fetch u g pc = (.hard ⟨0x10, none, c.obj, o, 0⟩, s)) ∧
    (c.tag = true → c.kind = kCode → c.has rX = true → c.base ≤ o → o + 32 ≤ c.base + c.length →
      (pc.toNat % 32 = 0 → s.fetch u g pc = (.hard (Hard.plain 0x03), s)) ∧
      (pc.toNat % 4 = 0 → pc.toNat % 32 ≠ 0 →
        (∀ h, g.octetOf o = some h → s.fetch u g pc = (h.at pc, s.onGroup u (·.holdOctet h))) ∧
        (∀ h s1, g.octetOf o = none → s.fetchAt u g o = (.held h, s1) → s.fetch u g pc = (h.at pc, s1.onGroup u (·.holdOctet h)))))) ∧
  (∀ (s : State) u (g : Group) o (t : Trans) (s1 : State), s.translate (s.domOf g) (g.core / 8) g.part (s.tbOf g.part) kCode (g.regs.rc 29).obj o 32 = (.at t, s1) →
    s1.keyHeld g.part t.slot = false → s1.keyBad g.part t.slot = false → s1.marked t.loc 32 = false →
    s.fetchAt u g o = (.held ⟨(g.regs.rc 29).obj, o, (s1.fetchOctet (s.actor u g).obs t).1, t.exec && t.xbit⟩, (s1.fetchOctet (s.actor u g).obs t).2)) ∧
  (∀ (s : State) (o : Obs) (t : Trans) a, t.loc = .dev a → s.readable t.slot t.loc = true → s.unpub = [] →
    (∀ l ∈ s.icache, l.core = o.core → l.addr = a → l.bytes = bytesAt s.rawByte (.dev a) 32) → (s.fetchOctet o t).1 = bytesAt s.rawByte (.dev a) 32) ∧
  (∀ (h : Octet) pc, h.exec = true → h.at pc = octetInstr h.bytes pc) ∧ (∀ (h : Octet) pc, h.exec = false → h.at pc = .hard ⟨0x1A, none, h.obj, h.addr, 0⟩) ∧
  (∀ bs pc, (octetWord bs 0).toNat / 2 ^ 28 ≠ 15 → octetInstr bs pc = .hard (Hard.plain 0x03)) ∧
  (∀ bs pc, (octetWord bs 0).toNat / 2 ^ 28 = 15 → decodeWord (octetWord bs (pc.toNat % 32 / 4)) = none → octetInstr bs pc = .hard (Hard.plain 0x01)) ∧
  (∀ bs pc i, (octetWord bs 0).toNat / 2 ^ 28 = 15 → decodeWord (octetWord bs (pc.toNat % 32 / 4)) = some i →
    octetInstr bs pc = .word i ((octetWord bs 0).toNat / 2 ^ (4 * (pc.toNat % 32 / 4 - 1)) % 16))

/-- R147 steps 4 to 7: the checks of an instruction word, in their order: the first that fails is the fault, and the word has no effect. R147, R103: in bounds mode a word that
fails a check, or one that R103 lists as abandoning, ends its lanes' tiles as ABANDONED and has no other effect. R37: a memory-class word that finds the operand log not empty
joins it, with its operands as they stand, its destinations wait for it, and its lanes go on. -/
def Obligations.IssueChecks : Prop :=
  (∀ i s u g pc m, encode i ≠ none → Issues s u g pc m i → g.mode ≠ 1 →
    (g.level.num < (shape i).level → exec i s = .next (s.takeFault u m (Hard.plain 0x06) false)) ∧
    ((shape i).level ≤ g.level.num → i.operandsOk = false → exec i s = .next (s.takeFault u m (Hard.plain 0x02) false)) ∧
    ((shape i).level ≤ g.level.num → i.operandsOk = true → (∃ o ∈ (shape i).ops, o.kind = .v ∧ g.alloc < g.regs.wb + o.num + o.run) →
      exec i s = .next (s.takeFault u m (Hard.plain 0x05) false)) ∧
    ((shape i).level ≤ g.level.num → i.operandsOk = true → (∀ o ∈ (shape i).ops, o.kind = .v → g.regs.wb + o.num + o.run ≤ g.alloc) →
      s.stallEn g = true → g.openRegs (g.uses i m) ≠ [] → exec i s = .next (s.takeFault u m (Hard.plain 0x04) false))) ∧
  (∀ i s u g pc m, encode i ≠ none → Issues s u g pc m i → g.mode = 1 →
    (g.level.num < (shape i).level ∨ i.operandsOk = false ∨ (∃ o ∈ (shape i).ops, o.kind = .v ∧ g.alloc < g.regs.wb + o.num + o.run) ∨
      ((shape i).aband = true ∧ (s.stallEn g = true → g.openRegs (g.uses i m) = []))) →
    ∃ t g', exec i s = .next t ∧ t.group? u = some g' ∧ OnlyGroup s t u ∧ g'.regs = g.regs ∧ g'.shadow = g.shadow ∧ g'.fault = g.fault ∧
      g'.lanes = mapMask m (fun _ x => { x with state := .exit, tile := x.tile.map (fun k => { k with ended := some .abandoned }) }) 0 g.lanes) ∧
  (∀ i s u g pc m, encode i ≠ none → Issues s u g pc m i → g.mode ≠ 1 → (shape i).level ≤ g.level.num → i.operandsOk = true →
    (∀ o ∈ (shape i).ops, o.kind = .v → g.regs.wb + o.num + o.run ≤ g.alloc) → g.openRegs (g.uses i m) = [] →
    (shape i).mem = true → g.log ≠ [] →
    ∃ t g', exec i s = .next t ∧ t.group? u = some g' ∧ OnlyGroup s t u ∧ g'.log = g.log ++ [⟨i, pc, m, g.regs, g.rm, []⟩] ∧ g'.regs = g.regs ∧
      g'.pend = g.pend ++ (written g.regs.wb (shape i).ops).map (fun r => ⟨r, .log, pc⟩) ∧
      g'.lanes = mapMask m (fun _ x => if (shape i).park then { x with state := .defer } else { x with pc := nextPc pc }) 0 g.lanes)

/-- R300, R304: taking a hard fault: the group stands at its word with its record; the context of a U group starts its halt, and a group of another level stops its own team
alone; no other group changes. R96: a floating-point word whose shadow check fails in a lane takes SHADOW_MISMATCH there and writes nothing. R168, R175, R334: `trap` and `brk` raise USER_TRAP and BREAKPOINT with the code as detail; `brk` parks its lanes in BRK, and under lane-stop it
raises nothing. The shadow check fails where State.upset says so, which is the model's own field (log entry 17). -/
def Obligations.TakingAFault : Prop :=
  (∀ (s : State) u (g : Group) m (h : Hard), s.group? u = some g →
    ∃ (r : FaultRec) (g' : Group), (s.takeFault u m h false).group? u = some g' ∧
      g' = { g with fault := some r, memHold := if g.host.isSome then g.memHold else none, softOn := none } ∧
      r.cause = BitVec.ofNat 8 h.cause ∧ r.fmask = m ∧ r.time = s.timebase ∧ r.off = h.off ∧ r.obj = BitVec.ofNat 32 h.obj ∧ r.engine = g.core ∧
      (∀ l, h.lane = none → lowestLane m = some l → r.lane = l) ∧ (∀ l, h.lane = some l → r.lane = l) ∧
      (∀ v, v ≠ u → (s.takeFault u m h false).group? v = s.group? v) ∧
      (∀ a (c : Context), g.level = .u → s.ctxOf g.part = some a → s.ctx? a = some c → c.state = .running → c.first = none →
        (s.takeFault u m h false).ctx? a = some { c with state := .stopping, halting := true, acks := [], first := some r }) ∧
      (∀ (x : Team), g.level ≠ .u → s.team? g.team = some x → (s.takeFault u m h false).team? g.team = some { x with stopped := true } ∧
        ∀ a, (s.takeFault u m h false).ctx? a = s.ctx? a)) ∧
  (∀ i s u g pc m e, encode i ≠ none → Issues s u g pc m i → g.mode ≠ 1 → (shape i).level ≤ g.level.num → i.operandsOk = true →
    (∀ o ∈ (shape i).ops, o.kind = .v → g.regs.wb + o.num + o.run ≤ g.alloc) → g.openRegs (g.uses i m) = [] →
    s.upsetAt (issueCtx u g pc m i) = some e →
    exec i s = .next ({ s with upset := s.upset.erase e }.takeFault u m { Hard.plain 0x30 with lane := some e.2 } false)) ∧
  (∀ s u g pc m n, Passes s u g pc m (.trap n) → exec (.trap n) s = .next (s.takeFault u m { Hard.plain 0x07 with extra := BitVec.ofNat 64 n.toNat } false)) ∧
  (∀ s u g pc m n, Passes s u g pc m (.brk n) → s.laneStop g = false → exec (.brk n) s = .next
    ((s.onGroup u (fun x => x.onLanes m (fun _ y => { y with state := .brk, stepping := false, stepped := false }))).takeFault u m
      { Hard.plain 0x08 with extra := BitVec.ofNat 64 n.toNat } false)) ∧
  (∀ s u g pc m n, Passes s u g pc m (.brk n) → s.laneStop g = true → ∃ t g', exec (.brk n) s = .next t ∧ t.group? u = some g' ∧ g'.fault = g.fault ∧
    g'.regs = g.regs ∧ (∀ v, v ≠ u → t.group? v = s.group? v) ∧ (∀ a, t.ctx? a = s.ctx? a) ∧
    g'.lanes = mapMask m (fun _ y => { y with state := .brk, stepping := false, stepped := false }) 0 g.lanes)

/-- R27, R343: after reset no group, team or launch exists, nothing is at issue, and memory is in its canonical form, with nothing listed (the bytes that an unlisted address
reads as are the model's choice, log entry 6). -/
def Obligations.ResetIsIdle : Prop :=
  State.reset.groups = [] ∧ State.reset.teams = [] ∧ State.reset.launches = [] ∧ State.reset.cur = none ∧ State.reset.agenda = [] ∧
  State.reset.mem = [] ∧ MemoryCanonical State.reset ∧ StepOk State.reset

/-- Every step keeps the canonical form of memory: the bytes of the device and of the host and the tags list their keys in rising order, with no entry equal to what an unlisted
address reads as. -/
def Obligations.StepKeepsMemoryCanonical : Prop :=
  ∀ s t, MemoryCanonical s → step s = .next t → MemoryCanonical t

/-! ### Integer instructions -/

/-- R154: the vector arithmetic instructions. -/
def Obligations.VectorArithmetic : Prop :=
  VectorOp2 .vadd (fun x y => BitVec.ofNat 32 (x.toNat + y.toNat)) ∧
  VectorOp2 .vsub (fun x y => BitVec.ofInt 32 (x.toNat - y.toNat)) ∧
  VectorOp2 .vmul (fun x y => BitVec.ofNat 32 (x.toNat * y.toNat)) ∧
  VectorOp2 .vmulhS (fun x y => BitVec.ofInt 32 (x.toInt * y.toInt / 2 ^ 32)) ∧
  VectorOp2 .vmulhZ (fun x y => BitVec.ofNat 32 (x.toNat * y.toNat / 2 ^ 32)) ∧
  VectorOp3 .vmad (fun z x y => BitVec.ofNat 32 (x.toNat * y.toNat + z.toNat)) ∧
  VectorOp2 .vminS (fun x y => if x.toInt ≤ y.toInt then x else y) ∧
  VectorOp2 .vminZ (fun x y => if x.toNat ≤ y.toNat then x else y) ∧
  VectorOp2 .vmaxS (fun x y => if x.toInt ≤ y.toInt then y else x) ∧
  VectorOp2 .vmaxZ (fun x y => if x.toNat ≤ y.toNat then y else x) ∧
  VectorOp2 .vaddsS (fun x y => clamp (-2 ^ 31) (2 ^ 31 - 1) (x.toInt + y.toInt)) ∧
  VectorOp2 .vaddsZ (fun x y => clamp 0 (2 ^ 32 - 1) (x.toNat + y.toNat)) ∧
  VectorOp2 .vsubsS (fun x y => clamp (-2 ^ 31) (2 ^ 31 - 1) (x.toInt - y.toInt)) ∧
  VectorOp2 .vsubsZ (fun x y => clamp 0 (2 ^ 32 - 1) (x.toNat - y.toNat)) ∧
  VectorOp2 .vdivS quotS ∧ VectorOp2 .vdivZ quotZ ∧ VectorOp2 .vremS remdS ∧ VectorOp2 .vremZ remdZ

/-- R156: counts and bit fields. R157, R158: compares, logic and shifts; the shift amount is an unsigned 32-bit value. -/
def Obligations.VectorBitwise : Prop :=
  VectorOp1 .vpopc (fun x => BitVec.ofNat 32 (onesIn x)) ∧
  VectorOp1 .vclz (fun x => BitVec.ofNat 32 (leadingZeros x)) ∧
  VectorOp1 .vbrev BitVec.reverse ∧
  VectorOp2 .vbfxZ (fun x y => (x >>> fieldPos y) &&& fieldMask y) ∧
  VectorOp2 .vbfxS (fun x y => if fieldLen y = 0 then 0 else ((x >>> fieldPos y).setWidth (fieldLen y)).signExtend 32) ∧
  VectorOp3 .vbfi (fun z x y => (z &&& ~~~(fieldMask y <<< fieldPos y)) ||| ((x &&& fieldMask y) <<< fieldPos y)) ∧
  VectorOp2 .vcmpEq (fun x y => flag (x = y)) ∧
  VectorOp2 .vcmpNe (fun x y => flag (x ≠ y)) ∧
  VectorOp2 .vcmpLtS (fun x y => flag (x.toInt < y.toInt)) ∧
  VectorOp2 .vcmpLtZ (fun x y => flag (x.toNat < y.toNat)) ∧
  VectorOp2 .vcmpLeS (fun x y => flag (x.toInt ≤ y.toInt)) ∧
  VectorOp2 .vcmpLeZ (fun x y => flag (x.toNat ≤ y.toNat)) ∧
  VectorOp2 .vand (fun x y => x &&& y) ∧
  VectorOp2 .vor (fun x y => x ||| y) ∧
  VectorOp2 .vxor (fun x y => x ^^^ y) ∧
  VectorOp2 .vandn (fun x y => x &&& ~~~y) ∧
  VectorOp2 .vshl (fun x y => BitVec.ofNat 32 (x.toNat * 2 ^ y.toNat)) ∧
  VectorOp2 .vshrZ (fun x y => BitVec.ofNat 32 (x.toNat / 2 ^ y.toNat)) ∧
  VectorOp2 .vshrS (fun x y => BitVec.ofInt 32 (x.toInt / 2 ^ y.toNat)) ∧
  VectorOp2 .vrotl (fun x y => x.rotateLeft (y.toNat % 32))

/-- R159: moves and selection; `vext` reads a lane named by a scalar, 0 where it does not execute; `vins` writes one where it executes; both raise ILLEGAL_OPERAND for a lane at
or beyond the width. -/
def Obligations.VectorMoves : Prop :=
  VectorOp1 .vmov (fun x => x) ∧
  VectorOp3 .vsel (fun z x y => (z &&& x) ||| (~~~z &&& y)) ∧
  (∀ s u g pc m d a, Passes s u g pc m (.vbcast d a) → g.mode ≠ 1 →
    Completes (.vbcast d a) s u g pc m (fun g' => VectorWritten g g' m d.toNat 1 (fun _ _ => BitVec.ofNat 32 (g.regs.rs a.toNat).toNat))) ∧
  (∀ s u g pc m d a b, Passes s u g pc m (.vext d a b) → (g.regs.rs b.toNat).toNat < g.width →
    Completes (.vext d a b) s u g pc m (fun g' => ScalarWritten g g' d.toNat
      (if executes g m (g.regs.rs b.toNat).toNat then BitVec.ofNat 64 (g.regs.rv a.toNat (g.regs.rs b.toNat).toNat).toNat else 0))) ∧
  (∀ s u g pc m d a b, Passes s u g pc m (.vins d a b) → (g.regs.rs b.toNat).toNat < g.width →
    Completes (.vins d a b) s u g pc m (fun g' => VectorWritten g g' (m &&& BitVec.ofNat 64 (2 ^ (g.regs.rs b.toNat).toNat)) d.toNat 1
      (fun _ _ => BitVec.ofNat 32 (g.regs.rs a.toNat).toNat))) ∧
  (∀ s u g pc m d a b, Passes s u g pc m (.vext d a b) → g.width ≤ (g.regs.rs b.toNat).toNat →
    exec (.vext d a b) s = .next (s.takeFault u m (Hard.plain 0x02) false)) ∧
  (∀ s u g pc m d a b, Passes s u g pc m (.vins d a b) → g.width ≤ (g.regs.rs b.toNat).toNat →
    exec (.vins d a b) s = .next (s.takeFault u m (Hard.plain 0x02) false))

/-- R160: the scalar instructions, once for the group, in every execution mode. -/
def Obligations.ScalarInteger : Prop :=
  ScalarOp2 .sadd (fun x y => BitVec.ofNat 64 (x.toNat + y.toNat)) ∧
  ScalarOp2 .ssub (fun x y => BitVec.ofInt 64 (x.toNat - y.toNat)) ∧
  ScalarOp2 .smul (fun x y => BitVec.ofNat 64 (x.toNat * y.toNat)) ∧
  ScalarOp2 .smulhS (fun x y => BitVec.ofInt 64 (x.toInt * y.toInt / 2 ^ 64)) ∧
  ScalarOp2 .smulhZ (fun x y => BitVec.ofNat 64 (x.toNat * y.toNat / 2 ^ 64)) ∧
  ScalarOp2 .sminS (fun x y => if x.toInt ≤ y.toInt then x else y) ∧
  ScalarOp2 .sminZ (fun x y => if x.toNat ≤ y.toNat then x else y) ∧
  ScalarOp2 .smaxS (fun x y => if x.toInt ≤ y.toInt then y else x) ∧
  ScalarOp2 .smaxZ (fun x y => if x.toNat ≤ y.toNat then y else x) ∧
  ScalarOp2 .sdivS quotS ∧ ScalarOp2 .sdivZ quotZ ∧ ScalarOp2 .sremS remdS ∧ ScalarOp2 .sremZ remdZ ∧
  ScalarOp2 .sand (fun x y => x &&& y) ∧
  ScalarOp2 .sor (fun x y => x ||| y) ∧
  ScalarOp2 .sxor (fun x y => x ^^^ y) ∧
  ScalarOp2 .sandn (fun x y => x &&& ~~~y) ∧
  ScalarOp2 .sshl (fun x y => BitVec.ofNat 64 (x.toNat * 2 ^ y.toNat)) ∧
  ScalarOp2 .sshrZ (fun x y => BitVec.ofNat 64 (x.toNat / 2 ^ y.toNat)) ∧
  ScalarOp2 .sshrS (fun x y => BitVec.ofInt 64 (x.toInt / 2 ^ y.toNat)) ∧
  ScalarOp1 .spopc (fun x => BitVec.ofNat 64 (onesIn x)) ∧
  ScalarOp1 .sclz (fun x => BitVec.ofNat 64 (leadingZeros x)) ∧
  ScalarOp2 .scmpEq (fun x y => flag (x = y)) ∧
  ScalarOp2 .scmpNe (fun x y => flag (x ≠ y)) ∧
  ScalarOp2 .scmpLtS (fun x y => flag (x.toInt < y.toInt)) ∧
  ScalarOp2 .scmpLtZ (fun x y => flag (x.toNat < y.toNat)) ∧
  ScalarOp2 .scmpLeS (fun x y => flag (x.toInt ≤ y.toInt)) ∧
  ScalarOp2 .scmpLeZ (fun x y => flag (x.toNat ≤ y.toNat)) ∧
  ScalarOp1 .smov (fun x => x) ∧
  ScalarOp3 .ssel (fun z x y => (z &&& x) ||| (~~~z &&& y))

/-- R161: the immediate forms; k is the sign-extended immediate, a shift takes the immediate itself. R162: the long-immediate moves. -/
def Obligations.ImmediateForms : Prop :=
  VectorImm .vaddi (fun x k => BitVec.ofInt 32 (x.toInt + k.toInt)) ∧
  VectorImm .vmuli (fun x k => BitVec.ofInt 32 (x.toInt * k.toInt)) ∧
  VectorImm .vandi (fun x k => x &&& k.signExtend 32) ∧
  VectorImm .vori (fun x k => x ||| k.signExtend 32) ∧
  VectorImm .vxori (fun x k => x ^^^ k.signExtend 32) ∧
  VectorImm .vshli (fun x k => x <<< k.toNat) ∧
  VectorImm .vshriZ (fun x k => x >>> k.toNat) ∧
  VectorImm .vshriS (fun x k => x.sshiftRight k.toNat) ∧
  VectorImm .vcmpiEq (fun x k => flag (x.toInt = k.toInt)) ∧
  VectorImm .vcmpiLtS (fun x k => flag (x.toInt < k.toInt)) ∧
  VectorImm .vcmpiLtZ (fun x k => flag (x.toNat < (k.signExtend 32).toNat)) ∧
  VectorImm .vminiS (fun x k => if x.toInt ≤ k.toInt then x else k.signExtend 32) ∧
  VectorImm .vmaxiS (fun x k => if x.toInt ≤ k.toInt then k.signExtend 32 else x) ∧
  ScalarImm .saddi (fun x k => BitVec.ofInt 64 (x.toInt + k.toInt)) ∧
  ScalarImm .smuli (fun x k => BitVec.ofInt 64 (x.toInt * k.toInt)) ∧
  ScalarImm .sandi (fun x k => x &&& k.signExtend 64) ∧
  ScalarImm .sori (fun x k => x ||| k.signExtend 64) ∧
  ScalarImm .sxori (fun x k => x ^^^ k.signExtend 64) ∧
  ScalarImm .sshli (fun x k => x <<< k.toNat) ∧
  ScalarImm .sshriZ (fun x k => x >>> k.toNat) ∧
  ScalarImm .sshriS (fun x k => x.sshiftRight k.toNat) ∧
  ScalarImm .scmpiEq (fun x k => flag (x.toInt = k.toInt)) ∧
  ScalarImm .scmpiLtS (fun x k => flag (x.toInt < k.toInt)) ∧
  ScalarImm .scmpiLtZ (fun x k => flag (x.toNat < (k.signExtend 64).toNat)) ∧
  ScalarImm .sminiS (fun x k => if x.toInt ≤ k.toInt then x else k.signExtend 64) ∧
  ScalarImm .smaxiS (fun x k => if x.toInt ≤ k.toInt then k.signExtend 64 else x) ∧
  (∀ s u g pc m d k, Passes s u g pc m (.vmovi d k) → g.mode ≠ 1 →
    Completes (.vmovi d k) s u g pc m (fun g' => VectorWritten g g' m d.toNat 1 (fun _ _ => BitVec.ofInt 32 k.toInt))) ∧
  (∀ s u g pc m d k, Passes s u g pc m (.vmovhi d k) → g.mode ≠ 1 →
    Completes (.vmovhi d k) s u g pc m (fun g' => VectorWritten g g' m d.toNat 1
      (fun _ l => BitVec.ofNat 32 (k.toNat * 2 ^ 13 + (g.regs.rv d.toNat l).toNat % 2 ^ 13)))) ∧
  (∀ s u g pc m d k, Passes s u g pc m (.smovi d k) →
    Completes (.smovi d k) s u g pc m (fun g' => ScalarWritten g g' d.toNat (BitVec.ofInt 64 k.toInt))) ∧
  (∀ s u g pc m d k, Passes s u g pc m (.smovhi d k) →
    Completes (.smovhi d k) s u g pc m (fun g' => ScalarWritten g g' d.toNat
      (BitVec.ofInt 64 (k.toInt * 2 ^ 19 + (g.regs.rs d.toNat).toNat % 2 ^ 19))))

/-! ### Floating point -/

/-- R80, R179, R184: sums and products of finite FP32, BF16 and FP16 values are the exact result, rounded once in the mode; an exact zero sum of opposite signs is negative in
RDN alone; a zero product takes the sign of its factors. FP32 lanes and packed elements share these operations. -/
def Obligations.SumsAndProductsRoundOnce : Prop :=
  (∀ rm x y, f32add rm x y = BitVec.ofNat 32 (hAdd fp32 rm x.toNat y.toNat)) ∧
  (∀ rm x y, f32sub rm x y = if isNan y then 0x7FC00000 else f32add rm x (y ^^^ 0x80000000)) ∧
  (∀ rm x y, f32mul rm x y = BitVec.ofNat 32 (hMul fp32 rm x.toNat y.toNat)) ∧
  (∀ rm z x y, f32fma rm z x y = BitVec.ofNat 32 (hFma fp32 rm z.toNat x.toNat y.toNat)) ∧
  (∀ f, f = fp32 ∨ f = bf16 ∨ f = fp16 → ∀ rm z x y, finiteCode f z → finiteCode f x → finiteCode f y →
    (valueOf f x + valueOf f y ≠ 0 → ∃ c,
      RoundsTo f rm (decide (valueOf f x + valueOf f y < 0)) (valueOf f x + valueOf f y).natAbs 1 c ∧
      hAdd f rm x y = signedCode f (decide (valueOf f x + valueOf f y < 0)) c) ∧
    (valueOf f x + valueOf f y = 0 →
      hAdd f rm x y = signedCode f (if (f.signBit ≤ x ↔ f.signBit ≤ y) then decide (f.signBit ≤ x) else decide (rm = 2)) 0) ∧
    (∃ c, RoundsTo f rm (decide (f.signBit ≤ x) ^^ decide (f.signBit ≤ y)) (valueOf f x * valueOf f y).natAbs (unit f) c ∧
      hMul f rm x y = signedCode f (decide (f.signBit ≤ x) ^^ decide (f.signBit ≤ y)) c) ∧
    (valueOf f x * valueOf f y + valueOf f z * unit f ≠ 0 → ∃ c,
      RoundsTo f rm (decide (valueOf f x * valueOf f y + valueOf f z * unit f < 0)) (valueOf f x * valueOf f y + valueOf f z * unit f).natAbs (unit f) c ∧
      hFma f rm z x y = signedCode f (decide (valueOf f x * valueOf f y + valueOf f z * unit f < 0)) c) ∧
    (valueOf f x * valueOf f y + valueOf f z * unit f = 0 →
      hFma f rm z x y = signedCode f (if ((decide (f.signBit ≤ x) ^^ decide (f.signBit ≤ y)) = decide (f.signBit ≤ z)) then decide (f.signBit ≤ z)
        else decide (rm = 2)) 0))

/-- R80, R87, R88, R179: quotients and roots are the exact result, rounded once in the mode; the special operands of IEEE 754; every NaN result is the canonical NaN. -/
def Obligations.QuotientsRootsAndSpecialOperands : Prop :=
  (∀ rm x y, finite x → finite y → y.toNat % 2 ^ 31 ≠ 0 → ∃ c,
    RoundsTo fp32 rm (x.msb ^^ y.msb) (mag 23 (x.toNat % 2 ^ 31) * 2 ^ 149) (mag 23 (y.toNat % 2 ^ 31)) c ∧ f32div rm x y = patternF (x.msb ^^ y.msb) c) ∧
  (∀ rm x, f32rcp rm x = f32div rm 0x3F800000 x) ∧
  (∀ rm x, x.toNat < 0x7F800000 → ∃ k, k < 0x7F800000 ∧ mag 23 k * mag 23 k ≤ mag 23 x.toNat * 2 ^ 149 ∧
    mag 23 x.toNat * 2 ^ 149 < mag 23 (k + 1) * mag 23 (k + 1) ∧
    f32sqrt rm x = BitVec.ofNat 32 (if mag 23 x.toNat * 2 ^ 149 ≠ mag 23 k * mag 23 k ∧
      awayFrom rm false (k % 2 = 1) (compare (4 * (mag 23 x.toNat * 2 ^ 149)) ((mag 23 k + mag 23 (k + 1)) * (mag 23 k + mag 23 (k + 1)))) = true
      then k + 1 else k)) ∧
  (∀ rm x y, isNan x ∨ isNan y → f32add rm x y = 0x7FC00000 ∧ f32sub rm x y = 0x7FC00000 ∧ f32mul rm x y = 0x7FC00000 ∧
    f32div rm x y = 0x7FC00000 ∧ ∀ z, f32fma rm z x y = 0x7FC00000 ∧ f32fma rm x z y = 0x7FC00000) ∧
  (∀ rm x, isNan x → f32sqrt rm x = 0x7FC00000 ∧ f32rcp rm x = 0x7FC00000) ∧
  (∀ rm a b, f32add rm (patternF a 0x7F800000) (patternF b 0x7F800000) = if a = b then patternF a 0x7F800000 else 0x7FC00000) ∧
  (∀ rm a x, finite x → f32add rm (patternF a 0x7F800000) x = patternF a 0x7F800000 ∧ f32add rm x (patternF a 0x7F800000) = patternF a 0x7F800000) ∧
  (∀ rm a x, ¬ isNan x → f32mul rm (patternF a 0x7F800000) x = (if x.toNat % 2 ^ 31 = 0 then 0x7FC00000 else patternF (a ^^ x.msb) 0x7F800000)) ∧
  (∀ rm a x z, x.toNat % 2 ^ 31 = 0 → f32fma rm z (patternF a 0x7F800000) x = 0x7FC00000 ∧ f32fma rm z x (patternF a 0x7F800000) = 0x7FC00000) ∧
  (∀ rm a x, finite x → x.toNat % 2 ^ 31 ≠ 0 → f32div rm x (patternF a 0) = patternF (x.msb ^^ a) 0x7F800000) ∧
  (∀ rm a b, f32div rm (patternF a 0) (patternF b 0) = 0x7FC00000 ∧ f32div rm (patternF a 0x7F800000) (patternF b 0x7F800000) = 0x7FC00000) ∧
  (∀ rm a x, finite x → f32div rm x (patternF a 0x7F800000) = patternF (x.msb ^^ a) 0 ∧
    f32div rm (patternF a 0x7F800000) x = patternF (x.msb ^^ a) 0x7F800000) ∧
  (∀ rm a, f32rcp rm (patternF a 0) = patternF a 0x7F800000 ∧ f32rcp rm (patternF a 0x7F800000) = patternF a 0) ∧
  (∀ rm, f32sqrt rm (patternF true 0) = patternF true 0 ∧ f32sqrt rm (patternF false 0x7F800000) = patternF false 0x7F800000) ∧
  (∀ rm x, x.msb = true → x ≠ patternF true 0 → f32sqrt rm x = 0x7FC00000)

/-- R180: the fixed results of the manual. The arithmetic instructions of R179 compute by the operations that give them, in the group's rounding control. -/
def Obligations.FloatVectors : Prop :=
  f32add 0 0x3F800000 0x33800000 = 0x3F800000 ∧ f32add 3 0x3F800000 0x33800000 = 0x3F800001 ∧
  f32add 2 0x00000000 0x80000000 = 0x80000000 ∧ f32sub 0 0x3F800000 0x3F800000 = 0x00000000 ∧
  f32fma 0 0xBF800000 0x3F800001 0x3F7FFFFF = 0x337FFFFE ∧
  f32add 0 (f32mul 0 0x3F800001 0x3F7FFFFF) 0xBF800000 = 0x00000000 ∧
  f32mul 1 0x7F000000 0x40800000 = 0x7F7FFFFF ∧
  (∀ rm, f32div rm 0 0 = 0x7FC00000) ∧ (∀ rm, f32div rm 0xBF800000 0 = 0xFF800000) ∧
  f32rcp 0 0x40400000 = 0x3EAAAAAB ∧ f32rcp 1 0x40400000 = 0x3EAAAAAA ∧
  (∀ rm, f32sqrt rm 0x80000000 = 0x80000000) ∧ (∀ rm, f32sqrt rm 0xC0800000 = 0x7FC00000) ∧
  RoundedOp2 .fadd f32add ∧ RoundedOp2 .fsub f32sub ∧ RoundedOp2 .fmul f32mul ∧ RoundedOp3 .ffma f32fma ∧
  RoundedOp2 .fdiv f32div ∧ RoundedOp1 .fsqrt f32sqrt ∧ RoundedOp1 .frcp f32rcp

/-- R181: selection and sign; none of them rounds. R182: compares and classification. -/
def Obligations.FloatSelectionAndSign : Prop :=
  VectorOp2 .fmin (fun x y => if isNan x then (if isNan y then 0x7FC00000 else y) else if isNan y then x else if belowF y x then y else x) ∧
  VectorOp2 .fmax (fun x y => if isNan x then (if isNan y then 0x7FC00000 else y) else if isNan y then x else if belowF x y then y else x) ∧
  VectorOp1 .fabs (fun x => if isNan x then 0x7FC00000 else x &&& 0x7FFFFFFF) ∧
  VectorOp1 .fneg (fun x => if isNan x then 0x7FC00000 else x ^^^ 0x80000000) ∧
  VectorOp2 .fcmpEq (fun x y => flag (equalF x y)) ∧
  VectorOp2 .fcmpLt (fun x y => flag (lessF x y)) ∧
  VectorOp2 .fcmpLe (fun x y => flag (equalF x y ∨ lessF x y)) ∧
  VectorOp2 .fcmpUn (fun x y => flag (isNan x ∨ isNan y)) ∧
  VectorOp1 .fclass (fun x =>
    if isNan x then (if x.getLsbD 22 then 0x200 else 0x100)
    else if x = 0xFF800000 then 0x001 else if x = 0x80000000 then 0x008
    else if x = 0x00000000 then 0x010 else if x = 0x7F800000 then 0x080
    else if x.toNat % 2 ^ 31 < 2 ^ 23 then (if x.msb then 0x004 else 0x020)
    else if x.msb then 0x002 else 0x040)

/-- R183: scaling by a power of two and rounding to an integral value; a zero result keeps the sign of x. -/
def Obligations.FloatScalingAndIntegral : Prop :=
  RoundedOp2 .fscale f32scale ∧ RoundedOp1 .ffloor (fun _ => f32int 2) ∧ RoundedOp1 .fceil (fun _ => f32int 3) ∧
  RoundedOp1 .ftrunc (fun _ => f32int 1) ∧ RoundedOp1 .frint f32int ∧
  (∀ rm x n, isNan x → f32scale rm x n = 0x7FC00000 ∧ f32int rm x = 0x7FC00000) ∧
  (∀ rm x n, x.toNat % 2 ^ 31 = 0 ∨ x.toNat % 2 ^ 31 = 0x7F800000 → f32scale rm x n = x ∧ f32int rm x = x) ∧
  (∀ rm x n, finite x → x.toNat % 2 ^ 31 ≠ 0 → 0 ≤ n.toInt → ∃ c,
    RoundsTo fp32 rm x.msb (mag 23 (x.toNat % 2 ^ 31) * 2 ^ n.toInt.toNat) 1 c ∧ f32scale rm x n = patternF x.msb c) ∧
  (∀ rm x n, finite x → x.toNat % 2 ^ 31 ≠ 0 → n.toInt < 0 → ∃ c,
    RoundsTo fp32 rm x.msb (mag 23 (x.toNat % 2 ^ 31)) (2 ^ (-n.toInt).toNat) c ∧ f32scale rm x n = patternF x.msb c) ∧
  (∀ rm x, finite x → x.toNat % 2 ^ 31 ≠ 0 → ∃ v c, IntegralOf rm x v ∧ f32int rm x = patternF x.msb c ∧ mag 23 c = v * 2 ^ 149)

/-- R184: each element of a packed pair on its own, in its own format, in words of two and of three operands. R81: the packed minimum and maximum: a NaN gives way to the other
operand, two NaNs to the canonical one; -0 lies below +0. -/
def Obligations.PackedPairs : Prop :=
  RoundedOp2 .faddB2 (fun rm => pair2 (hAdd bf16 rm)) ∧ RoundedOp2 .fmulB2 (fun rm => pair2 (hMul bf16 rm)) ∧
  RoundedOp3 .ffmaB2 (fun rm => pair3 (hFma bf16 rm)) ∧ RoundedOp2 .faddH2 (fun rm => pair2 (hAdd fp16 rm)) ∧
  RoundedOp2 .fmulH2 (fun rm => pair2 (hMul fp16 rm)) ∧ RoundedOp3 .ffmaH2 (fun rm => pair3 (hFma fp16 rm)) ∧
  VectorOp2 .fmaxB2 (pair2 (maxCode bf16)) ∧ VectorOp2 .fminB2 (pair2 (minCode bf16)) ∧
  (∀ (h : Nat → Nat → Nat) x y, (∀ a b, a < 2 ^ 16 → b < 2 ^ 16 → h a b < 2 ^ 16) →
    (pair2 h x y).toNat % 2 ^ 16 = h (x.toNat % 2 ^ 16) (y.toNat % 2 ^ 16) ∧
    (pair2 h x y).toNat / 2 ^ 16 = h (x.toNat / 2 ^ 16) (y.toNat / 2 ^ 16)) ∧
  (∀ (h : Nat → Nat → Nat → Nat) z x y, (∀ c a b, c < 2 ^ 16 → a < 2 ^ 16 → b < 2 ^ 16 → h c a b < 2 ^ 16) →
    (pair3 h z x y).toNat % 2 ^ 16 = h (z.toNat % 2 ^ 16) (x.toNat % 2 ^ 16) (y.toNat % 2 ^ 16) ∧
    (pair3 h z x y).toNat / 2 ^ 16 = h (z.toNat / 2 ^ 16) (x.toNat / 2 ^ 16) (y.toNat / 2 ^ 16)) ∧
  (∀ x y, x < 2 ^ 16 → y < 2 ^ 16 → maxCode bf16 x y < 2 ^ 16 ∧ minCode bf16 x y < 2 ^ 16 ∧
    let nan (a : Nat) : Prop := bf16.infCode < a % 2 ^ 15
    let below (a b : Nat) : Prop := (2 ^ 15 ≤ a ∧ b < 2 ^ 15) ∨ (a < 2 ^ 15 ∧ b < 2 ^ 15 ∧ a < b) ∨ (2 ^ 15 ≤ a ∧ 2 ^ 15 ≤ b ∧ b < a)
    (nan x → nan y → maxCode bf16 x y = bf16.nanCode ∧ minCode bf16 x y = bf16.nanCode) ∧ (nan x → ¬ nan y → maxCode bf16 x y = y ∧ minCode bf16 x y = y) ∧
    (¬ nan x → nan y → maxCode bf16 x y = x ∧ minCode bf16 x y = x) ∧
    (¬ nan x → ¬ nan y → (below x y → maxCode bf16 x y = y ∧ minCode bf16 x y = x) ∧ (¬ below x y → maxCode bf16 x y = x ∧ minCode bf16 x y = y))) ∧
  (∀ f, f = bf16 ∨ f = fp16 → ∀ rm z x y, hAdd f rm x y < 2 ^ 16 ∧ hMul f rm x y < 2 ^ 16 ∧ hFma f rm z x y < 2 ^ 16) ∧
  (∀ f, f = bf16 ∨ f = fp16 → ∀ rm x y, x < 2 ^ 16 → y < 2 ^ 16 →
    f.infCode < x % 2 ^ 15 ∨ f.infCode < y % 2 ^ 15 → hAdd f rm x y = f.nanCode ∧ hMul f rm x y = f.nanCode) ∧
  bf16.nanCode = 0x7FC0 ∧ fp16.nanCode = 0x7E00 ∧
  pair2 (hAdd fp16 0) 0x3C007BFF 0x3C003C00 = 0x40007BFF ∧ pair2 (hAdd fp16 3) 0x3C007BFF 0x3C003C00 = 0x40007C00

/-- R185, R86: conversions between integers and FP32: rounded in the mode, saturated, NaN to 0. R186: conversions between FP32 and packed halves: each half rounded once in the
mode; widening is exact. -/
def Obligations.Conversions : Prop :=
  RoundedOp1 .cvtFS f32ofS ∧ RoundedOp1 .cvtFZ f32ofZ ∧ RoundedOp1 .cvtSF f32toS ∧ RoundedOp1 .cvtZF f32toZ ∧
  (∀ rm x, ∃ c, RoundsTo fp32 rm x.msb (x.toInt.natAbs * 2 ^ 149) 1 c ∧ f32ofS rm x = patternF x.msb c) ∧
  (∀ rm x, ∃ c, RoundsTo fp32 rm false (x.toNat * 2 ^ 149) 1 c ∧ f32ofZ rm x = patternF false c) ∧
  (∀ rm x, isNan x → f32toS rm x = 0 ∧ f32toZ rm x = 0) ∧
  (∀ rm, f32toS rm 0x7F800000 = 0x7FFFFFFF ∧ f32toS rm 0xFF800000 = 0x80000000 ∧ f32toZ rm 0x7F800000 = 0xFFFFFFFF ∧ f32toZ rm 0xFF800000 = 0) ∧
  (∀ rm x, finite x → ∃ v, IntegralOf rm x v ∧
    f32toS rm x = clamp (-2 ^ 31) (2 ^ 31 - 1) (if x.msb then -v else v) ∧ f32toZ rm x = clamp 0 (2 ^ 32 - 1) (if x.msb then -v else v)) ∧
  RoundedOp2 .cvtB2F (packPair bf16) ∧ RoundedOp2 .cvtH2F (packPair fp16) ∧
  VectorOp1 (fun d a => .cvtFB2 d a 0) (unpackPair bf16 0) ∧ VectorOp1 (fun d a => .cvtFB2 d a 1) (unpackPair bf16 1) ∧
  VectorOp1 (fun d a => .cvtFH2 d a 0) (unpackPair fp16 0) ∧ VectorOp1 (fun d a => .cvtFH2 d a 1) (unpackPair fp16 1) ∧
  (∀ f, f = bf16 ∨ f = fp16 → ∀ rm x y, ∃ p q, p < 2 ^ 16 ∧ q < 2 ^ 16 ∧ packPair f rm x y = BitVec.ofNat 32 (p + 2 ^ 16 * q) ∧
    (isNan x → p = f.nanCode) ∧ (isNan y → q = f.nanCode) ∧
    (x.toNat % 2 ^ 31 = 0x7F800000 → p = signedCode f x.msb f.infCode) ∧ (y.toNat % 2 ^ 31 = 0x7F800000 → q = signedCode f y.msb f.infCode) ∧
    (finite x → ∃ c, RoundsTo f rm x.msb (mag 23 (x.toNat % 2 ^ 31) * unit f) (2 ^ 149) c ∧ p = signedCode f x.msb c) ∧
    (finite y → ∃ c, RoundsTo f rm y.msb (mag 23 (y.toNat % 2 ^ 31) * unit f) (2 ^ 149) c ∧ q = signedCode f y.msb c)) ∧
  (∀ f, f = bf16 ∨ f = fp16 → ∀ (h : W16) sel x, sel = 0 ∧ x = h.setWidth 32 ∨ sel = 1 ∧ x = h.setWidth 32 <<< 16 →
    (f.infCode < h.toNat % 2 ^ 15 → unpackPair f sel x = 0x7FC00000) ∧
    (h.toNat % 2 ^ 15 = f.infCode → unpackPair f sel x = patternF h.msb 0x7F800000) ∧
    (finiteCode f h.toNat → ∃ c, c < 0x7F800000 ∧ unpackPair f sel x = patternF h.msb c ∧ mag 23 c * unit f = mag f.mb (h.toNat % 2 ^ 15) * 2 ^ 149))

/-- R187, R83: narrow formats; a format word that fails R83 raises ILLEGAL_OPERAND with no effect; the codes of R73 at their storage places. R84, R85: a narrow code that is no
NaN survives decoding and encoding in every valid format and mode, and encoding keeps to the code's width. -/
def Obligations.NarrowFormats : Prop :=
  (∀ s u g pc m d a b, Passes s u g pc m (.cvtNF d a b) → g.mode ≠ 1 → (narrowOf ((g.regs.rs b.toNat).setWidth 16)).valid = true →
    Completes (.cvtNF d a b) s u g pc m (fun g' => VectorWritten g g' m d.toNat 1
      (fun _ l => BitVec.ofNat 32 ((narrowOf ((g.regs.rs b.toNat).setWidth 16)).enc g.rm (ofW (g.regs.rv a.toNat l)))))) ∧
  (∀ s u g pc m d a b, Passes s u g pc m (.cvtFN d a b) → g.mode ≠ 1 → (narrowOf ((g.regs.rs b.toNat).setWidth 16)).valid = true →
    Completes (.cvtFN d a b) s u g pc m (fun g' => VectorWritten g g' m d.toNat 1
      (fun _ l => toW 0 ((narrowOf ((g.regs.rs b.toNat).setWidth 16)).dec (g.regs.rv a.toNat l).toNat)))) ∧
  (∀ s u g pc m d a b, Passes s u g pc m (.cvtNF d a b) → g.mode ≠ 1 → (narrowOf ((g.regs.rs b.toNat).setWidth 16)).valid = false →
    exec (.cvtNF d a b) s = .next (s.takeFault u m (Hard.plain 0x02) false)) ∧
  (∀ s u g pc m d a b, Passes s u g pc m (.cvtFN d a b) → g.mode ≠ 1 → (narrowOf ((g.regs.rs b.toNat).setWidth 16)).valid = false →
    exec (.cvtFN d a b) s = .next (s.takeFault u m (Hard.plain 0x02) false)) ∧
  (∀ n : Narrow, n.valid = true ↔ 2 ≤ n.s + n.e + n.m ∧ n.s + n.e + n.m ≤ 8 ∧
    (n.pol = 0 → 2 ≤ n.e ∧ 1 ≤ n.m) ∧ (n.pol = 3 → n.e = 0 ∧ n.bias = 0 ∧ 2 ≤ n.s + n.m) ∧ (n.pol ≠ 0 → n.pol ≠ 3 → 1 ≤ n.e)) ∧
  (∀ s u g pc m d a q, Passes s u g pc m (.vpack4 d a q) → g.mode ≠ 1 →
    Completes (.vpack4 d a q) s u g pc m (fun g' => VectorWritten g g' m d.toNat 1 (fun _ l =>
      if q.toNat ≤ 3 then (g.regs.rv d.toNat l &&& ~~~((0xFF : W32) <<< (8 * q.toNat))) ||| ((g.regs.rv a.toNat l &&& 0xFF) <<< (8 * q.toNat))
      else (g.regs.rv d.toNat l &&& ~~~((0xF : W32) <<< (4 * (q.toNat - 8)))) ||| ((g.regs.rv a.toNat l &&& 0xF) <<< (4 * (q.toNat - 8)))))) ∧
  (∀ s u g pc m d a q, Passes s u g pc m (.vunpk4 d a q) → g.mode ≠ 1 →
    Completes (.vunpk4 d a q) s u g pc m (fun g' => VectorWritten g g' m d.toNat 1 (fun _ l =>
      if q.toNat ≤ 3 then (g.regs.rv a.toNat l >>> (8 * q.toNat)) &&& 0xFF else (g.regs.rv a.toNat l >>> (4 * (q.toNat - 8))) &&& 0xF))) ∧
  (∀ (x : W16) rm, (narrowOf x).valid = true →
    (∀ code, code < 2 ^ (narrowOf x).bits → (narrowOf x).dec code ≠ .nan → (narrowOf x).enc rm ((narrowOf x).dec code) = code) ∧
    ∀ y : W32, (narrowOf x).enc rm (ofW y) < 2 ^ (narrowOf x).bits)

/-- R188: the transcendental instructions round in RNE whatever the rounding control holds; the manual's fixed results. R88: the special cases; reciprocal roots, the powers 2^n of
integers and the logarithms of powers of two are the exact value, rounded once. -/
def Obligations.Transcendentals : Prop :=
  VectorOp1 .fexp2 (f32exp2 0) ∧ VectorOp1 .flog2 (f32log2 0) ∧ VectorOp1 .frsqrt (f32rsqrt 0) ∧ VectorOp1 .fsinpi (f32sinpi 0) ∧
  VectorOp1 .fcospi (f32cospi 0) ∧ VectorOp1 .ftanh (f32tanh 0) ∧ VectorOp1 .fsigm (f32sigm 0) ∧
  f32exp2 0 0xBF800000 = 0x3F000000 ∧ f32exp2 0 0xC3150000 = 0x00000001 ∧ f32exp2 0 0xC3160000 = 0 ∧ f32exp2 0 0x43000000 = 0x7F800000 ∧
  f32log2 0 0x41000000 = 0x40400000 ∧ f32log2 0 0xBF800000 = 0x7FC00000 ∧ f32rsqrt 0 0x40800000 = 0x3F000000 ∧
  f32sinpi 0 0x3E800000 = 0x3F3504F3 ∧ f32sinpi 0 0xC0000000 = 0x80000000 ∧ f32cospi 0 0x3F000000 = 0 ∧
  f32tanh 0 0x41A00000 = 0x3F800000 ∧ f32sigm 0 0 = 0x3F000000 ∧
  (f32exp2 0 0xFF800000 = 0 ∧ f32exp2 0 0x7F800000 = 0x7F800000 ∧ f32exp2 0 0 = 0x3F800000 ∧ f32exp2 0 0x80000000 = 0x3F800000) ∧
  (f32log2 0 0 = 0xFF800000 ∧ f32log2 0 0x80000000 = 0xFF800000 ∧ f32log2 0 0x3F800000 = 0 ∧ f32log2 0 0x7F800000 = 0x7F800000) ∧
  (∀ x : W32, x.msb = true → x ≠ 0x80000000 → f32log2 0 x = 0x7FC00000 ∧ f32rsqrt 0 x = 0x7FC00000) ∧
  (f32rsqrt 0 0 = 0x7F800000 ∧ f32rsqrt 0 0x80000000 = 0xFF800000 ∧ f32rsqrt 0 0x7F800000 = 0) ∧
  (∀ a, f32sinpi 0 (patternF a 0x7F800000) = 0x7FC00000 ∧ f32cospi 0 (patternF a 0x7F800000) = 0x7FC00000) ∧
  (∀ x, finite x → mag 23 (x.toNat % 2 ^ 31) % 2 ^ 149 = 0 → f32sinpi 0 x = patternF x.msb 0) ∧
  (∀ x, finite x → mag 23 (x.toNat % 2 ^ 31) % 2 ^ 149 = 2 ^ 148 → f32cospi 0 x = 0) ∧
  (∀ a, f32tanh 0 (patternF a 0x7F800000) = patternF a 0x3F800000 ∧ f32tanh 0 (patternF a 0) = patternF a 0) ∧
  (f32sigm 0 0x7F800000 = 0x3F800000 ∧ f32sigm 0 0xFF800000 = 0) ∧
  (∀ x, isNan x → f32exp2 0 x = 0x7FC00000 ∧ f32log2 0 x = 0x7FC00000 ∧ f32rsqrt 0 x = 0x7FC00000 ∧ f32sinpi 0 x = 0x7FC00000 ∧
    f32cospi 0 x = 0x7FC00000 ∧ f32tanh 0 x = 0x7FC00000 ∧ f32sigm 0 x = 0x7FC00000) ∧
  (∀ x : W32, x ≠ 0 → x.toNat < 0x7F800000 → ∃ k, k + 1 < 0x7F800000 ∧ mag 23 k * mag 23 k * mag 23 x.toNat ≤ 2 ^ 447 ∧ 2 ^ 447 < mag 23 (k + 1) * mag 23 (k + 1) * mag 23 x.toNat ∧
    f32rsqrt 0 x = BitVec.ofNat 32 (if awayFrom 0 false (k % 2 = 1) (compare (4 * 2 ^ 447) ((mag 23 k + mag 23 (k + 1)) * (mag 23 k + mag 23 (k + 1)) * mag 23 x.toNat)) = true
      then k + 1 else k)) ∧
  (∀ x (n : Nat), finite x → mag 23 (x.toNat % 2 ^ 31) = n * 2 ^ 149 → ∃ c,
    (if x.msb then RoundsTo fp32 0 false (2 ^ 149) (2 ^ n) c else RoundsTo fp32 0 false (2 ^ n * 2 ^ 149) 1 c) ∧ f32exp2 0 x = patternF false c) ∧
  (∀ (x : W32) (j : Nat), x.toNat < 0x7F800000 → mag 23 x.toNat = 2 ^ j → ∃ c, mag 23 c = ((j : Int) - 149).natAbs * 2 ^ 149 ∧ f32log2 0 x = patternF (decide (j < 149)) c)

/-- R88, R188: the transcendental functions return the exact mathematical value, rounded once to nearest: for every finite operand, where the value is farther than 2^-81 of itself
from halfway between two FP32 neighbours (nearer, the model takes the value to 4,096 binary places, which is its own choice, log entry 16). -/
def Obligations.TranscendentalsRoundCorrectly : Prop :=
  RoundsNearest (f32exp2 0) (fun _ => True) (fun v => (2 : ℝ) ^ v) ∧
  RoundsNearest (f32log2 0) (fun x => x.msb = false ∧ x ≠ 0) (fun v => Real.logb 2 v) ∧
  RoundsNearest (f32sinpi 0) (fun x => mag 23 (x.toNat % 2 ^ 31) % 2 ^ 149 ≠ 0) (fun v => Real.sin (Real.pi * v)) ∧
  RoundsNearest (f32cospi 0) (fun _ => True) (fun v => Real.cos (Real.pi * v)) ∧
  RoundsNearest (f32tanh 0) (fun x => x.toNat % 2 ^ 31 ≠ 0) (fun v => Real.tanh v) ∧
  RoundsNearest (f32sigm 0) (fun _ => True) (fun v => 1 / (1 + Real.exp (-v)))

/-! ### Across lanes -/

/-- R190 to R193: shuffles, reductions, argmin and argmax, scans. R81, R191: the R81 minimum and maximum of some values is the least or greatest of those that are no NaN, -0
below +0; of NaNs alone, two or more, it is the canonical NaN. -/
def Obligations.CrossLane : Prop :=
  Shuffle .vshflIdx (fun g b l => some (g.regs.rv b.toNat l).toNat) ∧
  Shuffle .vshflUp (fun g b l => if (g.regs.rs b.toNat).toNat ≤ l then some (l - (g.regs.rs b.toNat).toNat) else none) ∧
  Shuffle .vshflDn (fun g b l => some (l + (g.regs.rs b.toNat).toNat)) ∧
  Shuffle .vshflXor (fun g b l => some (l ^^^ (g.regs.rs b.toNat).toNat)) ∧
  Reduction .vredAdd 0 (fun xs => BitVec.ofNat 32 (xs.map BitVec.toNat).sum) ∧
  Reduction .vredMinS 0x7FFFFFFF (fun xs => BitVec.ofInt 32 ((xs.map BitVec.toInt).foldr min (2 ^ 31 - 1))) ∧
  Reduction .vredMaxS 0x80000000 (fun xs => BitVec.ofInt 32 ((xs.map BitVec.toInt).foldr max (-2 ^ 31))) ∧
  Reduction .vredMinZ 0xFFFFFFFF (fun xs => BitVec.ofNat 32 ((xs.map BitVec.toNat).foldr min (2 ^ 32 - 1))) ∧
  Reduction .vredMaxZ 0 (fun xs => BitVec.ofNat 32 ((xs.map BitVec.toNat).foldr max 0)) ∧
  Reduction .vredAnd 0xFFFFFFFF (fun xs => xs.foldr (· &&& ·) 0xFFFFFFFF) ∧
  Reduction .vredOr 0 (fun xs => xs.foldr (· ||| ·) 0) ∧
  Reduction .vredXor 0 (fun xs => xs.foldr (· ^^^ ·) 0) ∧
  Reduction .vredFadd 0 (fun xs => toW 0 (treeSum fp96 6 (xs.map ofW))) ∧
  Reduction .vredFmin 0x7F800000 (fun xs => xs.tail.foldl f32min (xs.headD 0)) ∧
  Reduction .vredFmax 0xFF800000 (fun xs => xs.tail.foldl f32max (xs.headD 0)) ∧
  Selection .vargminS (fun x y => x.toInt < y.toInt) ∧ Selection .vargminZ (fun x y => x.toNat < y.toNat) ∧
  Selection .vargmaxS (fun x y => y.toInt < x.toInt) ∧ Selection .vargmaxZ (fun x y => y.toNat < x.toNat) ∧
  Scan .vscanAdd id (fun x y => BitVec.ofNat 32 (x.toNat + y.toNat)) ∧
  Scan .vscanFadd (fun x => if isNan x then 0x7FC00000 else x) (f32add 0) ∧
  (∀ (xs : List W32) x, x ∈ xs → ¬ isNan x → (∀ y ∈ xs, ¬ isNan y → ¬ belowF y x) → xs.tail.foldl f32min (xs.headD 0) = x) ∧
  (∀ (xs : List W32) x, x ∈ xs → ¬ isNan x → (∀ y ∈ xs, ¬ isNan y → ¬ belowF x y) → xs.tail.foldl f32max (xs.headD 0) = x) ∧
  (∀ (xs : List W32), 2 ≤ xs.length → (∀ y ∈ xs, isNan y) →
    xs.tail.foldl f32min (xs.headD 0) = 0x7FC00000 ∧ xs.tail.foldl f32max (xs.headD 0) = 0x7FC00000)

/-- R194, R195, R146: votes write one scalar for the group; special registers are read by number. -/
def Obligations.VotesAndSpecialRegisters : Prop :=
  (∀ s u g pc m d a, Passes s u g pc m (.vballot d a) → ∃ x : W64,
    (∀ l, x.getLsbD l = (executes g m l && decide (g.regs.rv a.toNat l ≠ 0))) ∧
    Completes (.vballot d a) s u g pc m (fun g' => ScalarWritten g g' d.toNat x)) ∧
  (∀ s u g pc m d a, Passes s u g pc m (.vany d a) →
    ((∃ l, executes g m l = true ∧ g.regs.rv a.toNat l ≠ 0) →
      Completes (.vany d a) s u g pc m (fun g' => ScalarWritten g g' d.toNat (BitVec.allOnes 64))) ∧
    ((∀ l, executes g m l = true → g.regs.rv a.toNat l = 0) →
      Completes (.vany d a) s u g pc m (fun g' => ScalarWritten g g' d.toNat 0))) ∧
  (∀ s u g pc m d a, Passes s u g pc m (.vall d a) →
    ((∃ l, executes g m l = true ∧ g.regs.rv a.toNat l = 0) →
      Completes (.vall d a) s u g pc m (fun g' => ScalarWritten g g' d.toNat 0)) ∧
    ((∀ l, executes g m l = true → g.regs.rv a.toNat l ≠ 0) →
      Completes (.vall d a) s u g pc m (fun g' => ScalarWritten g g' d.toNat (BitVec.allOnes 64)))) ∧
  (∀ s u g pc m d n, Passes s u g pc m (.smovsr d n) → ∃ x : W64,
    (n = 1 → x = BitVec.ofNat 64 g.width) ∧ (n = 2 → x = BitVec.ofNat 64 g.gid) ∧ (n = 7 → x = BitVec.ofNat 64 g.mode) ∧
    (n = 9 → x = m) ∧ (n = 10 → x = s.timebase) ∧ (n = 11 → x = BitVec.ofNat 64 g.cycles) ∧ (n = 13 → x = BitVec.ofNat 64 g.gid) ∧
    (n = 3 → ∀ t, s.team? g.team = some t → x = BitVec.ofNat 64 t.tid) ∧
    (n = 20 → ∀ l, s.launch? g.launch = some l → x = BitVec.ofNat 64 l.nlvl) ∧
    Completes (.smovsr d n) s u g pc m (fun g' => ScalarWritten g g' d.toNat x)) ∧
  (∀ s u g pc m d n, Passes s u g pc m (.vmovsr d n) → g.mode ≠ 1 → ∃ f : Nat → W32,
    (n = 0 ∨ n = 12 → ∀ l, f l = BitVec.ofNat 32 l) ∧ (n = 1 → ∀ l, f l = BitVec.ofNat 32 g.width) ∧
    (n = 9 → ∀ l, f l = m.setWidth 32) ∧ (n = 10 → ∀ l, f l = s.timebase.setWidth 32) ∧
    (n = 4 ∨ n = 5 ∨ n = 6 → ∀ l, (g.lane l).tile = none → f l = 0) ∧
    (n = 6 → ∀ l t, (g.lane l).tile = some t → f l = BitVec.ofNat 32 t.depth) ∧
    Completes (.vmovsr d n) s u g pc m (fun g' => VectorWritten g g' m d.toNat 1 (fun _ => f))) ∧
  (∀ d n, (Instr.smovsr d n).operandsOk = true ↔ n.toNat ≤ 22 ∧ n ≠ 0 ∧ n ≠ 4 ∧ n ≠ 5 ∧ n ≠ 6 ∧ n ≠ 12) ∧
  (∀ d n, (Instr.vmovsr d n).operandsOk = true ↔ n.toNat ≤ 22)

/-! ### Control -/

/-- R163 to R166: the branches. A taken lane takes the target p + 4·off14 and the word's priority, any other lane goes on to next(p); a conditional branch of a settled dispatch
follows the lane's path record (R108); a word-0 target that some lane takes is ILLEGAL_CONTROL, with no effect. R105, R103: a vector branch in bounds mode, on a tile with fewer
than 64 branches: decided where the interval excludes zero or stands for one value, and then recorded in the tile's path; else the tile ends undecided. -/
def Obligations.Branches : Prop :=
  Branch (fun a p o => .bnz a p o) true (fun g a l => decide (g.regs.rv a.toNat l ≠ 0)) ∧
  Branch (fun a p o => .bz a p o) true (fun g a l => decide (g.regs.rv a.toNat l = 0)) ∧
  Branch (fun a p o => .bsnz a p o) true (fun g a _ => decide (g.regs.rs a.toNat ≠ 0)) ∧
  Branch (fun a p o => .bsz a p o) true (fun g a _ => decide (g.regs.rs a.toNat = 0)) ∧
  Branch (fun _ p o => .bra p o) false (fun _ _ _ => true) ∧
  (∀ s u g pc m a p o, Passes s u g pc m (.bnz a p o) → g.mode = 1 → (pc + o.signExtend 48 * 4).toNat % 32 ≠ 0 →
    (∀ x ∈ g.lanes, ∃ k, x.tile = some k ∧ k.nbr < 64) → (∀ l, bit m l = true → l < g.width ∧ l < g.lanes.length) →
    Places (.bnz a p o) s u g m (fun l x =>
      let x' := { x with pc := if (laneIv g a.toNat l).nonzero = some true then pc + o.signExtend 48 * 4 else nextPc pc,
                         prio := if (laneIv g a.toNat l).nonzero = some true then p.toNat else x.prio }
      match (laneIv g a.toNat l).nonzero with
      | none => { x' with state := .exit, tile := x.tile.map (fun k => { k with ended := some .quarter }) }
      | some b => { x' with tile := x.tile.map (fun k => { k with path := k.path ||| (if b then BitVec.ofNat 64 (2 ^ k.nbr) else 0), ndec := k.nbr + 1, nbr := k.nbr + 1 }) }))

/-- R53, R167, R169, R173: calls push next(p) and keep the four newest addresses on chip; a return pops. No form spills or reloads here. R53: a call at depth 4 or more spills
the lane's oldest on-chip address to the slot of its depth in the call-stack object, and a return from depth 5 or more reloads one; the slots of all lanes are checked first. -/
def Obligations.CallsAndReturns : Prop :=
  (∀ s u g pc m p o, Passes s u g pc m (.calli p o) → g.mode = 0 → (pc + o.signExtend 48 * 4).toNat % 32 ≠ 0 →
    (∀ l, executes g m l = true → (g.lane l).depth < 4) →
    Places (.calli p o) s u g m (fun _ x => { x with state := .run, pc := pc + o.signExtend 48 * 4, prio := p.toNat, stack := (nextPc pc :: x.stack).take 4, depth := x.depth + 1 })) ∧
  (∀ s u g pc m p o, Passes s u g pc m (.calli p o) → g.mode ≠ 1 → (pc + o.signExtend 48 * 4).toNat % 32 = 0 →
    exec (.calli p o) s = .next (s.takeFault u m (Hard.plain 0x03) false)) ∧
  (∀ s u g pc m d a, Passes s u g pc m (.callv d a) → g.mode = 0 → (∀ l, executes g m l = true → (g.lane l).depth < 4) →
    CodeTargets g (g.regs.rc d.toNat) m (fun l => (g.regs.rv a.toNat l).toNat) →
    Places (.callv d a) s u g m (fun l x => { x with state := .run, pc := BitVec.ofNat 48 ((g.regs.rc d.toNat).base + (g.regs.rv a.toNat l).toNat),
                                                     stack := (nextPc pc :: x.stack).take 4, depth := x.depth + 1 })) ∧
  (∀ s u g pc m d a, Passes s u g pc m (.calls d a) → g.mode = 0 → (∀ l, executes g m l = true → (g.lane l).depth < 4) →
    CodeTargets g (g.regs.rc d.toNat) m (fun _ => (g.regs.rs a.toNat).toNat) →
    Places (.calls d a) s u g m (fun _ x => { x with state := .run, pc := BitVec.ofNat 48 ((g.regs.rc d.toNat).base + (g.regs.rs a.toNat).toNat),
                                                     stack := (nextPc pc :: x.stack).take 4, depth := x.depth + 1 })) ∧
  (∀ s u g pc m d a, Passes s u g pc m (.jmpv d a) → CodeTargets g (g.regs.rc d.toNat) m (fun l => (g.regs.rv a.toNat l).toNat) →
    Places (.jmpv d a) s u g m (fun l x => { x with pc := BitVec.ofNat 48 ((g.regs.rc d.toNat).base + (g.regs.rv a.toNat l).toNat) })) ∧
  (∀ s u g pc m, Passes s u g pc m .ret → g.mode = 0 → (∀ l, executes g m l = true → 1 ≤ (g.lane l).depth ∧ (g.lane l).depth ≤ 4) →
    Places .ret s u g m (fun _ x => { x with state := .run, pc := x.stack.headD 0, stack := x.stack.tail, depth := x.depth - 1 })) ∧
  (∀ s u g pc m l, Passes s u g pc m .ret → g.mode ≠ 1 → executes g m l = true → (g.lane l).depth = 0 → (∀ k, k < l → executes g m k = true → (g.lane k).depth ≠ 0) →
    exec .ret s = .next (s.takeFault u m { Hard.plain 0x2C with lane := some l } false)) ∧
  (∀ s u g pc m p o ts s1, Passes s u g pc m (.calli p o) → g.mode = 0 → (pc + o.signExtend 48 * 4).toNat % 32 ≠ 0 →
    s.stackAccess (issueCtx u g pc m (.calli p o)) .store
      (((execList g m).filter (fun l => decide (4 ≤ (g.lane l).depth))).map (fun l => ⟨l, 8 * (64 * ((g.lane l).depth - 4) + l)⟩)) = (.ok ts, s1) →
    ∃ t g', exec (.calli p o) s = .next t ∧ t.group? u = some g' ∧
      g'.lanes = mapMask m (fun _ x => { x with state := .run, pc := pc + o.signExtend 48 * 4, prio := p.toNat, stack := (nextPc pc :: x.stack).take 4, depth := x.depth + 1 }) 0 g.lanes ∧
      (s.heldMode g.launch = false → (g.regs.rc 31).kind = kMem ∨ (g.regs.rc 31).kind = kTeam → Ordinary s 8 ts → ∀ l, t.rawByte l =
        storesTo (fun n => toBytes 8 (((g.lane n).stack.getLast?).getD 0).toNat) ts s.rawByte l)) ∧
  (∀ s u g pc m ts s1, Passes s u g pc m .ret → g.mode = 0 → Quiet s g.team → Ordinary s 8 ts → (∀ l, executes g m l = true → 1 ≤ (g.lane l).depth) →
    s.stackAccess (issueCtx u g pc m .ret) .load
      (((execList g m).filter (fun l => decide (5 ≤ (g.lane l).depth))).map (fun l => ⟨l, 8 * (64 * ((g.lane l).depth - 5) + l)⟩)) = (.ok ts, s1) →
    ∃ t g', exec .ret s = .next t ∧ t.group? u = some g' ∧ (∀ l, t.rawByte l = s.rawByte l) ∧
      g'.lanes = mapMask m (fun l x => { x with state := .run, pc := x.stack.headD 0, depth := x.depth - 1, stack := x.stack.tail ++
        ((ts.find? (fun e => decide (e.1.lane = l))).map (fun e => BitVec.ofNat 48 (ofBytes (bytesAt s.rawByte e.2.loc 8)))).toList }) 0 g.lanes)

/-- R172: `nop` has no effect beyond its issue and its stall count, in every mode. -/
def Obligations.NopHasNoEffect : Prop :=
  decodeWord 0x7000000E = some .nop ∧ encode .nop = some 0x7000000E ∧
  ∀ s u g pc m, Passes s u g pc m .nop → Completes .nop s u g pc m (fun g' => g'.regs = g.regs ∧ g'.shadow = g.shadow)

/-- R171, R174, R176, R177: the group's rounding control, the lanes' priority, the window base, and a yield. R40, R305: `exit` ends the executing lanes; while another lane of
the group lives, and none of its sets or barriers is concerned, nothing else changes. In bounds mode it ends the tile, SETTLED if it did element work, else RETIRED (R106). -/
def Obligations.GroupControls : Prop :=
  (∀ s u g pc m n, Passes s u g pc m (.frnd n) → ∃ t g', exec (.frnd n) s = .next t ∧ t.group? u = some g' ∧ OnlyGroup s t u ∧ g'.rm = n.toNat ∧
    g'.lanes = mapMask m (fun _ x => { x with pc := nextPc pc }) 0 g.lanes ∧ g'.regs = g.regs ∧ g'.shadow = g.shadow) ∧
  (∀ s u g pc m n, Passes s u g pc m (.setprio n) → ∃ t g', exec (.setprio n) s = .next t ∧ t.group? u = some g' ∧ OnlyGroup s t u ∧
    g'.lanes = mapMask m (fun _ x => { x with pc := nextPc pc, prio := n.toNat }) 0 g.lanes ∧ g'.regs = g.regs ∧ g'.shadow = g.shadow ∧ g'.rm = g.rm) ∧
  (∀ s u g pc m n, Passes s u g pc m (.wbase n) → 8 * n.toNat < g.alloc → ∃ t g', exec (.wbase n) s = .next t ∧ t.group? u = some g' ∧ OnlyGroup s t u ∧
    g'.regs = { g.regs with wb := 8 * n.toNat } ∧ g'.shadow = g.shadow ∧ g'.lanes = mapMask m (fun _ x => { x with pc := nextPc pc }) 0 g.lanes) ∧
  (∀ s u g pc m n, Passes s u g pc m (.wbase n) → g.mode ≠ 1 → g.alloc ≤ 8 * n.toNat → exec (.wbase n) s = .next (s.takeFault u m (Hard.plain 0x05) false)) ∧
  (∀ s u g pc m, Passes s u g pc m .yield → ∃ t g', exec .yield s = .next t ∧ t.group? u = some g' ∧ OnlyGroup s t u ∧ g'.yielded = some (nextPc pc) ∧
    g'.regs = g.regs ∧ g'.shadow = g.shadow ∧ g'.lanes = mapMask m (fun _ x => { x with pc := nextPc pc }) 0 g.lanes) ∧
  (∀ n, (Instr.frnd n).operandsOk = true ↔ n.toNat ≤ 3) ∧ (∀ n, (Instr.setprio n).operandsOk = true ↔ n.toNat ≤ 15) ∧
  (∀ s u g pc m, Passes s u g pc m .exit → g.mode ≠ 1 → s.snapShort (s.heldPlaces g.team) = none → ∃ t, exec .exit s = .next t ∧
    ∀ g', t.group? u = some g' → ∀ l, executes g m l = true → l < g.lanes.length → (g'.lane l).state = .exit) ∧
  (∀ s u g pc m l, Passes s u g pc m .exit → g.mode ≠ 1 → g.js = [] → (∀ x ∈ g.lanes, x.state ≠ .waitBar ∧ x.state ≠ .waitLvl) →
    l < g.width → (g.lane l).state ≠ .exit → bit m l = false →
    Places .exit s u g m (fun _ x => { Lane.exited with tile := x.tile })) ∧
  (∀ s u g pc m, Passes s u g pc m .exit → g.mode = 1 → Places .exit s u g m (fun _ x =>
    { x with state := .exit, tile := x.tile.map (fun k => { k with ended := some (if k.work then .settled else .retired) }) }))

/-- R46 to R51: the rejoin sets. -/
def Obligations.RejoinSets : Prop :=
  (∀ s u g pc m d a, Passes s u g pc m (.rjset d a) → (g.set d.toNat).waiting = 0 → SetWritten (.rjset d a) s u g pc m d
    (fun l => if executes g m l then decide (g.regs.rv a.toNat l ≠ 0) else bit (g.set d.toNat).member l && !bit m l)) ∧
  (∀ s u g pc m d a, Passes s u g pc m (.rjsetm d a) → (g.set d.toNat).waiting = 0 → SetWritten (.rjsetm d a) s u g pc m d
    (fun l => if executes g m l then bit (g.regs.rs a.toNat) l else bit (g.set d.toNat).member l && !bit m l)) ∧
  (∀ s u g pc m d a, Passes s u g pc m (.rjset d a) → (g.set d.toNat).waiting ≠ 0 →
    exec (.rjset d a) s = .next (s.takeFault u m { Hard.plain 0x28 with extra := g.waitedSets } false)) ∧
  (∀ s u g pc m d a, Passes s u g pc m (.rjsetm d a) → (g.set d.toNat).waiting ≠ 0 →
    exec (.rjsetm d a) s = .next (s.takeFault u m { Hard.plain 0x28 with extra := g.waitedSets } false)) ∧
  (∀ s u g pc m d, Passes s u g pc m (.rjenter d) → SetWritten (.rjenter d) s u g pc m d (fun l => bit (g.set d.toNat).member l || bit m l)) ∧
  (∀ s u g pc m d a n, Passes s u g pc m (.rjget d a n) → Completes (.rjget d a n) s u g pc m
    (fun g' => ScalarWritten g g' d.toNat (if n = 0 then (g.set a.toNat).member else (g.set a.toNat).waiting))) ∧
  (∀ s u g pc m d, Passes s u g pc m (.rjquit d) → (g.set d.toNat).waiting &&& ~~~m = 0 ∨ (g.set d.toNat).waiting &&& ~~~m ≠ (g.set d.toNat).member &&& ~~~m →
    ∃ t g', exec (.rjquit d) s = .next t ∧ t.group? u = some g' ∧ OnlyGroup s t u ∧ g'.regs = g.regs ∧
      g'.set d.toNat = ⟨(g.set d.toNat).member &&& ~~~m, (g.set d.toNat).waiting &&& ~~~m⟩ ∧ (∀ n, n ≠ d.toNat → g'.set n = g.set n) ∧
      g'.lanes = mapMask m (fun _ x => { x with pc := nextPc pc }) 0 g.lanes) ∧
  (∀ s u g pc m d, Passes s u g pc m (.rjquit d) → (g.set d.toNat).waiting &&& ~~~m ≠ 0 → (g.set d.toNat).waiting &&& ~~~m = (g.set d.toNat).member &&& ~~~m →
    ∃ t g', exec (.rjquit d) s = .next t ∧ t.group? u = some g' ∧ OnlyGroup s t u ∧ g'.regs = g.regs ∧
      g'.set d.toNat = ⟨(g.set d.toNat).member &&& ~~~m, 0⟩ ∧ (∀ n, n ≠ d.toNat → g'.set n = g.set n) ∧
      g'.lanes = mapMask m (fun _ x => { x with pc := nextPc pc }) 0
        (mapMask ((g.set d.toNat).waiting &&& ~~~m) (fun _ x => if x.state = .waitSet then x.resume else x) 0 g.lanes)) ∧
  (∀ s u g pc m d, Passes s u g pc m (.rjwait d) → (g.set d.toNat).waiting ||| (m &&& (g.set d.toNat).member) = 0 ∨
      (g.set d.toNat).waiting ||| (m &&& (g.set d.toNat).member) ≠ (g.set d.toNat).member →
    ∃ t g', exec (.rjwait d) s = .next t ∧ t.group? u = some g' ∧ OnlyGroup s t u ∧ g'.regs = g.regs ∧
      g'.set d.toNat = ⟨(g.set d.toNat).member, (g.set d.toNat).waiting ||| (m &&& (g.set d.toNat).member)⟩ ∧
      g'.lanes = mapMask m (fun l x => if bit (g.set d.toNat).member l then { x with state := .waitSet, pc := pc, id := d.toNat }
        else { x with state := .run, pc := nextPc pc }) 0 g.lanes) ∧
  (∀ s u g pc m d, Passes s u g pc m (.rjwait d) → (g.set d.toNat).waiting ||| (m &&& (g.set d.toNat).member) ≠ 0 →
      (g.set d.toNat).waiting ||| (m &&& (g.set d.toNat).member) = (g.set d.toNat).member →
    ∃ t g', exec (.rjwait d) s = .next t ∧ t.group? u = some g' ∧ OnlyGroup s t u ∧ g'.regs = g.regs ∧
      g'.set d.toNat = ⟨(g.set d.toNat).member, 0⟩ ∧ (∀ l, bit m l = true → l < g.lanes.length → (g'.lane l).state = .run ∧ (g'.lane l).pc = nextPc pc))

/-! ### Memory -/

/-- R199, R196, R130: the vector loads; each executing lane takes the little-endian value of the bytes at its own place. R199, R201, R202: the loads of one access for the
group: to one scalar, to every executing lane, or a capability with its granule's tag. -/
def Obligations.Loads : Prop :=
  VectorLoad .vldBZ 1 1 (fun bs _ => BitVec.ofNat 32 (ofBytes bs)) ∧
  VectorLoad .vldBS 1 1 (fun bs _ => (BitVec.ofNat 8 (ofBytes bs)).signExtend 32) ∧
  VectorLoad .vldHZ 2 1 (fun bs _ => BitVec.ofNat 32 (ofBytes bs)) ∧
  VectorLoad .vldHS 2 1 (fun bs _ => (BitVec.ofNat 16 (ofBytes bs)).signExtend 32) ∧
  VectorLoad .vldW 4 1 wordAt ∧ VectorLoad .vldD 8 2 wordAt ∧ VectorLoad .vldQ 16 4 wordAt ∧
  ScalarLoad .sldD 8 (fun bs => BitVec.ofNat 64 (ofBytes bs)) ∧
  ScalarLoad .sldWS 4 (fun bs => (BitVec.ofNat 32 (ofBytes bs)).signExtend 64) ∧
  ScalarLoad .sldWZ 4 (fun bs => BitVec.ofNat 64 (ofBytes bs)) ∧
  (∀ s u g pc m d a r k e s1, Passes s u g pc m (.vldbc d a r k) → g.mode ≠ 1 → Quiet s g.team → Ordinary s 4 [e] →
    s.access (issueCtx u g pc m (.vldbc d a r k)) r loadKinds 1 .load 4 (groupAccs g m a (k.toNat * 4)) = (.ok [e], s1) →
    ∃ t g', exec (.vldbc d a r k) s = .next t ∧ t.group? u = some g' ∧ ReadOnly s t u ∧ Retired g g' pc m (.vldbc d a r k) ∧
      VectorWritten g g' m d.toNat 1 (fun _ _ => wordAt (bytesAt s.rawByte e.2.loc 4) 0)) ∧
  (∀ s u g pc m d a r k e s1, Passes s u g pc m (.cld d a r k) → Quiet s g.team → Ordinary s 16 [e] →
    s.access (issueCtx u g pc m (.cld d a r k)) r [kMem, kTeam] (1 + 64) .cld 16 (groupAccs g m a (k.toNat * 16)) = (.ok [e], s1) →
    ∃ t g', exec (.cld d a r k) s = .next t ∧ t.group? u = some g' ∧ ReadOnly s t u ∧ Retired g g' pc m (.cld d a r k) ∧
      CapWritten g g' d.toNat ⟨BitVec.ofNat 128 (ofBytes (bytesAt s.rawByte e.2.loc 16)), s.tagAt e.2.loc⟩)

/-- R200, R201, R202, R64: the stores; where two lanes store to one byte the higher lane's value stays; a plain store clears the tags of the granules that it writes, `cst`
writes its capability's. R203: the atomics on memory: the new value of the word from its old value m, the operand x and, for `acas` and `sacas`, the expected value y. -/
def Obligations.StoresAndAtomics : Prop :=
  VectorStore .vstB 1 (fun g d l => toBytes 1 (g.regs.rv d.toNat l).toNat) ∧
  VectorStore .vstH 2 (fun g d l => toBytes 2 (g.regs.rv d.toNat l).toNat) ∧
  VectorStore .vstW 4 (fun g d l => toBytes 4 (g.regs.rv d.toNat l).toNat) ∧
  VectorStore .vstD 8 (fun g d l => toBytes 4 (g.regs.rv d.toNat l).toNat ++ toBytes 4 (g.regs.rv (d.toNat + 1) l).toNat) ∧
  VectorStore .vstQ 16 (fun g d l => toBytes 4 (g.regs.rv d.toNat l).toNat ++ toBytes 4 (g.regs.rv (d.toNat + 1) l).toNat ++
    toBytes 4 (g.regs.rv (d.toNat + 2) l).toNat ++ toBytes 4 (g.regs.rv (d.toNat + 3) l).toNat) ∧
  ScalarStore .sstD 8 (fun g d => toBytes 8 (g.regs.rs d.toNat).toNat) ∧
  ScalarStore .sstW 4 (fun g d => toBytes 4 (g.regs.rs d.toNat).toNat) ∧
  (∀ s u g pc m d a r k e s1, Passes s u g pc m (.cst d a r k) → g.mode ≠ 1 → Ordinary s 16 [e] → s.heldMode g.launch = false →
    s.access (issueCtx u g pc m (.cst d a r k)) r [kMem, kTeam] (2 + 32) .cst 16 (groupAccs g m a (k.toNat * 16)) = (.ok [e], s1) →
    ∃ t g', exec (.cst d a r k) s = .next t ∧ t.group? u = some g' ∧ (∀ v, v ≠ u → t.group? v = s.group? v) ∧ Retired g g' pc m (.cst d a r k) ∧
      g'.regs = g.regs ∧ (∀ l, t.rawByte l = storeTo s.rawByte e.2.loc (toBytes 16 (g.regs.rc d.toNat).bits.toNat) l) ∧
      ((∃ x, e.2.loc = .dev x) ∨ (∃ x y, e.2.loc = .team x y) ∨ (∃ x y z, e.2.loc = .peer x y z) → t.tagAt e.2.loc = (g.regs.rc d.toNat).tag)) ∧
  VectorAtomic .aadd (fun m x _ => BitVec.ofNat 32 (m.toNat + x.toNat)) ∧
  VectorAtomic .aminS (fun m x _ => if m.toInt ≤ x.toInt then m else x) ∧
  VectorAtomic .amaxS (fun m x _ => if m.toInt ≤ x.toInt then x else m) ∧
  VectorAtomic .aminZ (fun m x _ => if m.toNat ≤ x.toNat then m else x) ∧
  VectorAtomic .amaxZ (fun m x _ => if m.toNat ≤ x.toNat then x else m) ∧
  VectorAtomic .aand (fun m x _ => m &&& x) ∧ VectorAtomic .aor (fun m x _ => m ||| x) ∧ VectorAtomic .axor (fun m x _ => m ^^^ x) ∧
  VectorAtomic .axchg (fun _ x _ => x) ∧ VectorAtomic .acas (fun m x y => if m = y then x else m) ∧
  VectorAtomic .afadd (fun m x _ => f32add 0 m x) ∧
  ScalarAtomic .saadd (fun m x _ => BitVec.ofNat 64 (m.toNat + x.toNat)) ∧
  ScalarAtomic .sacas (fun m x y => if m = y then x else m)

/-- R62, R63, R196: the capability checks of a memory word in their order, CAP_TAG, CAP_RIGHTS, CAP_BOUNDS, ALIGN, each at its lowest failing lane; a word that fails one has no
effect. R62, R67, R199, R200: through a TEAM capability that covers every access, a word load or store of an executing lane reaches the team's own memory, at the capability's
base plus the lane's offset. -/
def Obligations.CapabilityChecks : Prop :=
  (∀ (s : State) x c kinds need w a as, c.tag = false → s.capCheck x c kinds need w (a :: as) = (some ⟨0x12, some a.lane, c.obj, c.base + a.off, 0⟩, s)) ∧
  (∀ (s : State) x c kinds need w a as, c.tag = true → ¬ c.kind ∈ kinds ∨ c.has need = false →
    s.capCheck x c kinds need w (a :: as) = (some ⟨0x11, some a.lane, c.obj, c.base + a.off, 0⟩, s)) ∧
  (∀ (s : State) x c kinds need w a as far s1, c.tag = true → c.kind ∈ kinds → c.has need = true → s.onPeer x c (c.base + a.off) = (far, s1) →
    (far = true → c.has 128 = false → s.capCheck x c kinds need w (a :: as) = (some ⟨0x11, some a.lane, c.obj, c.base + a.off, 0⟩, s1)) ∧
    ((far = true → c.has 128 = true) →
      (∀ pre b post, a :: as = pre ++ b :: post → (∀ y ∈ pre, boundsBad x c w y = false) → boundsBad x c w b = true →
        s.capCheck x c kinds need w (a :: as) = (some ⟨0x10, some b.lane, c.obj, c.base + b.off, 0⟩, s1)) ∧
      ((∀ y ∈ a :: as, boundsBad x c w y = false) →
        (∀ pre b post, a :: as = pre ++ b :: post → (∀ y ∈ pre, (c.base + y.off) % w = 0) → (c.base + b.off) % w ≠ 0 →
          s.capCheck x c kinds need w (a :: as) = (some ⟨0x14, some b.lane, c.obj, c.base + b.off, 0⟩, s1)) ∧
        ((∀ y ∈ a :: as, (c.base + y.off) % w = 0) → s.capCheck x c kinds need w (a :: as) = (none, s1))))) ∧
  (∀ (s : State) x c y, (c.kind = kWindow → s.onPeer x c y = (true, s)) ∧ (c.kind ≠ kWindow → c.kind ≠ kMem → s.onPeer x c y = (false, s)) ∧
    (∀ e, c.kind = kMem → s.objEntry x.tb c.obj = .at e → (e.place ≠ plPeer → s.onPeer x c y = (false, s)) ∧
      (e.place = plPeer → s.ocache = [] → s.onPeer x c y = (true, s)))) ∧
  (∀ x c w a, boundsBad x c w a = true ↔ c.length < a.off + w ∨ (c.kind = kTeam ∧ x.tm < c.base + a.off + w) ∨ (c.kind = kWbuf ∧ x.wb < c.base + a.off + w)) ∧
  (∀ s u g pc m d a r k,
    AccessFault (.vldBZ d a r k) s u g pc m r loadKinds 1 1 (laneAccs g m a k.toNat) ∧ AccessFault (.vldBS d a r k) s u g pc m r loadKinds 1 1 (laneAccs g m a k.toNat) ∧
    AccessFault (.vldHZ d a r k) s u g pc m r loadKinds 1 2 (laneAccs g m a (k.toNat * 2)) ∧ AccessFault (.vldHS d a r k) s u g pc m r loadKinds 1 2 (laneAccs g m a (k.toNat * 2)) ∧
    AccessFault (.vldW d a r k) s u g pc m r loadKinds 1 4 (laneAccs g m a (k.toNat * 4)) ∧ AccessFault (.vldD d a r k) s u g pc m r loadKinds 1 8 (laneAccs g m a (k.toNat * 8)) ∧
    AccessFault (.vldQ d a r k) s u g pc m r loadKinds 1 16 (laneAccs g m a (k.toNat * 16)) ∧ AccessFault (.vldbc d a r k) s u g pc m r loadKinds 1 4 (groupAccs g m a (k.toNat * 4)) ∧
    AccessFault (.vstB d a r k) s u g pc m r storeKinds 2 1 (laneAccs g m a k.toNat) ∧ AccessFault (.vstH d a r k) s u g pc m r storeKinds 2 2 (laneAccs g m a (k.toNat * 2)) ∧
    AccessFault (.vstW d a r k) s u g pc m r storeKinds 2 4 (laneAccs g m a (k.toNat * 4)) ∧ AccessFault (.vstD d a r k) s u g pc m r storeKinds 2 8 (laneAccs g m a (k.toNat * 8)) ∧
    AccessFault (.vstQ d a r k) s u g pc m r storeKinds 2 16 (laneAccs g m a (k.toNat * 16)) ∧ AccessFault (.sldD d a r k) s u g pc m r loadKinds 1 8 (groupAccs g m a (k.toNat * 8)) ∧
    AccessFault (.sldWS d a r k) s u g pc m r loadKinds 1 4 (groupAccs g m a (k.toNat * 4)) ∧ AccessFault (.sldWZ d a r k) s u g pc m r loadKinds 1 4 (groupAccs g m a (k.toNat * 4)) ∧
    AccessFault (.sstD d a r k) s u g pc m r storeKinds 2 8 (groupAccs g m a (k.toNat * 8)) ∧ AccessFault (.sstW d a r k) s u g pc m r storeKinds 2 4 (groupAccs g m a (k.toNat * 4)) ∧
    AccessFault (.cld d a r k) s u g pc m r [kMem, kTeam] 65 16 (groupAccs g m a (k.toNat * 16)) ∧ AccessFault (.cst d a r k) s u g pc m r [kMem, kTeam] 34 16 (groupAccs g m a (k.toNat * 16))) ∧
  (∀ s u g pc m d a r b,
    AccessFault (.aadd d a r b) s u g pc m r atomKinds 11 4 (laneAccs g m a 0) ∧ AccessFault (.acas d a r b) s u g pc m r atomKinds 11 4 (laneAccs g m a 0) ∧
    AccessFault (.saadd d a r b) s u g pc m r atomKinds 11 8 (groupAccs g m a 0) ∧ AccessFault (.sacas d a r b) s u g pc m r atomKinds 11 8 (groupAccs g m a 0)) ∧
  (∀ s u g pc m d a r k tm, Passes s u g pc m (.vldW d a r k) → g.mode ≠ 1 → Quiet s g.team → s.team? g.team = some tm →
    (g.regs.rc r.toNat).tag = true → (g.regs.rc r.toNat).kind = kTeam → (g.regs.rc r.toNat).has 1 = true →
    (∀ l, executes g m l = true → (g.regs.rv a.toNat l).toNat + k.toNat * 4 + 4 ≤ (g.regs.rc r.toNat).length ∧
      (g.regs.rc r.toNat).base + ((g.regs.rv a.toNat l).toNat + k.toNat * 4) + 4 ≤ tm.tmBytes ∧
      ((g.regs.rc r.toNat).base + ((g.regs.rv a.toNat l).toNat + k.toNat * 4)) % 4 = 0) →
    Completes (.vldW d a r k) s u g pc m (fun g' => VectorWritten g g' m d.toNat 1
      (fun _ l => BitVec.ofNat 32 (ofBytes ((List.range 4).map (fun n => Tab.get 0 tm.tmem ((g.regs.rc r.toNat).base + ((g.regs.rv a.toNat l).toNat + k.toNat * 4) + n))))))) ∧
  (∀ s u g pc m d a r k tm, Passes s u g pc m (.sstD d a r k) → g.mode ≠ 1 → s.heldMode g.launch = false → s.team? g.team = some tm →
    (g.regs.rc r.toNat).tag = true → (g.regs.rc r.toNat).kind = kTeam → (g.regs.rc r.toNat).has 2 = true →
    (g.regs.rs a.toNat).toNat + k.toNat * 8 + 8 ≤ (g.regs.rc r.toNat).length →
    (g.regs.rc r.toNat).base + ((g.regs.rs a.toNat).toNat + k.toNat * 8) + 8 ≤ tm.tmBytes →
    ((g.regs.rc r.toNat).base + ((g.regs.rs a.toNat).toNat + k.toNat * 8)) % 8 = 0 →
    ∃ t, exec (.sstD d a r k) s = .next t ∧ (∀ l, t.rawByte l =
      storeTo s.rawByte (.team g.team ((g.regs.rc r.toNat).base + ((g.regs.rs a.toNat).toNat + k.toNat * 8))) (toBytes 8 (g.regs.rs d.toNat).toNat) l) ∧
      ∀ v, v ≠ u → t.group? v = s.group? v)

/-! ### Synchronisation -/

/-- R209, R210: a lane that meets a barrier waits there until every group of the team, or of the level's unit, has arrived; the last arrival flips the phase and lets the lanes
go on. A level the launch does not have is ILLEGAL_OPERAND. R207, R208: the team barrier objects, in the team's own memory; an offset beyond it is CAP_BOUNDS and one that is no
multiple of 8 ALIGN. That a released lane has age 0 is the model's reading (log entry 110). -/
def Obligations.Barriers : Prop :=
  (∀ s u g pc m n tm v, Passes s u g pc m (.teambar n) → s.team? g.team = some tm → v ∈ s.teamGroups g.team → v ≠ u →
    ¬ HasArrived s (Tab.get Barrier.zero tm.bars n.toNat).arrived .waitBar n.toNat v →
    ∃ t tm', exec (.teambar n) s = .next t ∧ Moved s t u g m (fun _ x => { x with state := .waitBar, pc := pc, id := n.toNat }) ∧
      (∀ w, w ≠ u → t.group? w = s.group? w) ∧ t.unpub = s.unpub ∧
      t.team? g.team = some tm' ∧ (Tab.get Barrier.zero tm'.bars n.toNat).phase = (Tab.get Barrier.zero tm.bars n.toNat).phase) ∧
  (∀ s u g pc m n tm, Passes s u g pc m (.teambar n) → s.team? g.team = some tm → Arrives g m .waitBar n.toNat →
    (∀ v ∈ s.teamGroups g.team, v = u ∨ HasArrived s (Tab.get Barrier.zero tm.bars n.toNat).arrived .waitBar n.toNat v) →
    ∃ t tm', exec (.teambar n) s = .next t ∧
      Moved s t u g (BitVec.allOnes 64) (fun l x => if bit m l = true ∨ (x.state = .waitBar ∧ x.id = n.toNat) then
        { x with state := .run, pc := nextPc (if bit m l then pc else x.pc), age := 0, id := 0, park := .no } else x) ∧
      t.team? g.team = some tm' ∧ Tab.get Barrier.zero tm'.bars n.toNat = ⟨!(Tab.get Barrier.zero tm.bars n.toNat).phase, [], []⟩ ∧
      ∀ v h, v ≠ u → s.group? v = some h → v ∈ s.teamGroups g.team → ∃ h', t.group? v = some h' ∧ h'.regs = h.regs ∧
        h'.lanes = mapMask (BitVec.allOnes 64) (fun _ x =>
          if x.state = .waitBar ∧ x.id = n.toNat then { x with state := .run, pc := nextPc x.pc, age := 0, id := 0, park := .no } else x) 0 h.lanes) ∧
  (∀ s u g pc m n ln v, Passes s u g pc m (.lvlbar n) → s.launch? g.launch = some ln → n.toNat < ln.nlvl →
    v ∈ (s.unitGroups g.launch n.toNat (s.groupUnit u g n.toNat)).1 → v ≠ u →
    ¬ HasArrived s (Tab.get Barrier.zero ln.lvlBars (levelKey n.toNat (s.groupUnit u g n.toNat))).arrived .waitLvl n.toNat v →
    ∃ t, exec (.lvlbar n) s = .next t ∧ Moved s t u g m (fun _ x => { x with state := .waitLvl, pc := pc, id := n.toNat }) ∧
      (∀ w, w ≠ u → t.group? w = s.group? w) ∧ t.unpub = s.unpub) ∧
  (∀ s u g pc m n ln, Passes s u g pc m (.lvlbar n) → s.launch? g.launch = some ln → n.toNat < ln.nlvl → Arrives g m .waitLvl n.toNat →
    u ∈ (s.unitGroups g.launch n.toNat (s.groupUnit u g n.toNat)).1 → (s.unitGroups g.launch n.toNat (s.groupUnit u g n.toNat)).2 = true →
    ln.spansDevices n.toNat = false →
    (∀ v ∈ (s.unitGroups g.launch n.toNat (s.groupUnit u g n.toNat)).1, v = u ∨
      HasArrived s (Tab.get Barrier.zero ln.lvlBars (levelKey n.toNat (s.groupUnit u g n.toNat))).arrived .waitLvl n.toNat v) →
    ∃ t, exec (.lvlbar n) s = .next t ∧
      Moved s t u g (BitVec.allOnes 64) (fun l x => if bit m l = true ∨ (x.state = .waitLvl ∧ x.id = n.toNat) then
        { x with state := .run, pc := nextPc (if bit m l then pc else x.pc), age := 0, id := 0, park := .no } else x)) ∧
  (∀ s u g pc m n ln, Passes s u g pc m (.lvlbar n) → g.mode ≠ 1 → s.launch? g.launch = some ln → ln.nlvl ≤ n.toNat →
    exec (.lvlbar n) s = .next (s.takeFault u m (Hard.plain 0x02) false)) ∧
  (∀ s u g pc m a b tm, Passes s u g pc m (.tbinit a b) → s.team? g.team = some tm → (g.regs.rs a.toNat).toNat + 8 ≤ tm.tmBytes →
    (g.regs.rs a.toNat).toNat % 8 = 0 → g.regs.rs b.toNat ≠ 0 → (g.regs.rs b.toNat).toNat < 2 ^ 31 →
    StoresTeamWord (.tbinit a b) s u g pc m (g.regs.rs a.toNat).toNat (barrierObject (g.regs.rs b.toNat).toNat false (g.regs.rs b.toNat).toNat)
      (fun g' => g'.regs = g.regs ∧ g'.shadow = g.shadow)) ∧
  (∀ s u g pc m d a b tm e p, Passes s u g pc m (.tbarrive d a b) → s.team? g.team = some tm → Quiet s g.team → (g.regs.rs a.toNat).toNat + 8 ≤ tm.tmBytes →
    (g.regs.rs a.toNat).toNat % 8 = 0 → g.regs.rs b.toNat ≠ 0 → e < 2 ^ 31 → ∀ n, n < 2 ^ 31 → (g.regs.rs b.toNat).toNat ≤ n →
    teamWord s g.team (g.regs.rs a.toNat).toNat = BitVec.ofNat 64 (barrierObject e p n) →
    StoresTeamWord (.tbarrive d a b) s u g pc m (g.regs.rs a.toNat).toNat
      (if n = (g.regs.rs b.toNat).toNat then barrierObject e (!p) e else barrierObject e p (n - (g.regs.rs b.toNat).toNat))
      (fun g' => ScalarWritten g g' d.toNat (if p then 1 else 0))) ∧
  (∀ s u g pc m a b tm, Passes s u g pc m (.tbwait a b) → s.team? g.team = some tm → Quiet s g.team → (g.regs.rs a.toNat).toNat + 8 ≤ tm.tmBytes →
    (g.regs.rs a.toNat).toNat % 8 = 0 → ∃ t, exec (.tbwait a b) s = .next t ∧ (∀ w, w ≠ u → t.group? w = s.group? w) ∧ Moved s t u g m (fun _ x =>
      { x with state := .run, pc := if (teamWord s g.team (g.regs.rs a.toNat).toNat).getLsbD 31 = (g.regs.rs b.toNat).getLsbD 0 then pc else nextPc pc })) ∧
  (∀ s u g pc m d a b tm, Passes s u g pc m (.tbtest d a b) → s.team? g.team = some tm → Quiet s g.team → (g.regs.rs a.toNat).toNat + 8 ≤ tm.tmBytes →
    (g.regs.rs a.toNat).toNat % 8 = 0 → ∃ t g', exec (.tbtest d a b) s = .next t ∧ t.group? u = some g' ∧ ReadOnly s t u ∧ Retired g g' pc m (.tbtest d a b) ∧
      ScalarWritten g g' d.toNat (flag ((teamWord s g.team (g.regs.rs a.toNat).toNat).getLsbD 31 ≠ (g.regs.rs b.toNat).getLsbD 0))) ∧
  (∀ s u g pc m d a b tm, Passes s u g pc m (.tbarrive d a b) → g.mode ≠ 1 → s.team? g.team = some tm → Quiet s g.team →
    (g.regs.rs a.toNat).toNat + 8 ≤ tm.tmBytes → (g.regs.rs a.toNat).toNat % 8 = 0 →
    g.regs.rs b.toNat = 0 ∨ (teamWord s g.team (g.regs.rs a.toNat).toNat).toNat % 2 ^ 31 < (g.regs.rs b.toNat).toNat →
    ∃ s1, ReadOnly s s1 u ∧ s1.group? u = s.group? u ∧ exec (.tbarrive d a b) s = .next (s1.takeFault u m (Hard.plain 0x02) false)) ∧
  (∀ s u g pc m a b tm, Passes s u g pc m (.tbinit a b) → g.mode ≠ 1 → s.team? g.team = some tm → tm.tmBytes < (g.regs.rs a.toNat).toNat + 8 →
    exec (.tbinit a b) s = .next (s.takeFault u m ⟨0x10, lowestLane m, 0, (g.regs.rs a.toNat).toNat, 0⟩ false)) ∧
  (∀ s u g pc m a b tm, Passes s u g pc m (.tbinit a b) → g.mode ≠ 1 → s.team? g.team = some tm → (g.regs.rs a.toNat).toNat + 8 ≤ tm.tmBytes →
    (g.regs.rs a.toNat).toNat % 8 ≠ 0 → exec (.tbinit a b) s = .next (s.takeFault u m ⟨0x14, lowestLane m, 0, (g.regs.rs a.toNat).toNat, 0⟩ false))

/-- R134, R136, R137: the two publication points: `fpub` gives the made engine writes that the group's publication covers their place in T for its scope; `fsys` also brings the
group's posted writes to their targets, and waits while an access of the group is at the host or a running flow holds a store back. R78: `icinv` takes the lines of its scope
from the instruction caches; what a group has fetched stands. That `fsys` waits for a flow that holds a store back is the model's reading of R136 (log entry 118). -/
def Obligations.PublicationPoints : Prop :=
  (∀ s u g pc m n, Passes s u g pc m (.fpub n) → ∃ t g', exec (.fpub n) s = .next t ∧ t.group? u = some g' ∧ Retired g g' pc m (.fpub n) ∧
    g'.regs = g.regs ∧ g'.shadow = g.shadow ∧ (∀ v, v ≠ u → t.group? v = s.group? v) ∧ t.place = s.place + 1 ∧
    { t with groups := s.groups, unpub := s.unpub, place := s.place, icache := s.icache } = s ∧
    Published (fun op => decide (op ∈ g.tsumRead) || g.sealed.any (fun b => decide (b.1 ≤ g.waited) && decide (op ∈ b.2))) (n.toNat + 1) (s.place + 1) s.unpub t.unpub) ∧
  (∀ s u g pc m n, Passes s u g pc m (.fsys n) → g.host = none → s.stuck (s.fsysNeeds u) = false → ∃ t g', exec (.fsys n) s = .next t ∧ t.group? u = some g' ∧
    Retired g g' pc m (.fsys n) ∧ g'.regs = g.regs ∧ g'.shadow = g.shadow ∧ (∀ v, v ≠ u → t.group? v = s.group? v) ∧
    (∀ q ∈ t.posted, q ∈ s.posted ∧ s.fsysNeeds u q = false) ∧
    (s.posted = [] → t.place = s.place + 1 ∧
      Published (fun op => decide (op ∈ g.tsumRead) || g.sealed.any (fun b => decide (b.1 ≤ g.waited) && decide (op ∈ b.2))) (n.toNat + 1) (s.place + 1) s.unpub t.unpub) ∧
    (∀ q, s.posted = [q] → q.group = u → q.engine = false → Writable s (q.writes.map (fun w => (w.1, w.2.1))) →
      t.posted = [] ∧ BytesAt s t (q.writes.map (fun w => (w.1, w.2.1))) (q.writes.map (fun w => w.2.2)))) ∧
  (∀ s u g pc m n, Passes s u g pc m (.fsys n) → g.host.isSome = true ∨ s.stuck (s.fsysNeeds u) = true →
    exec (.fsys n) s = .next ((s.starvePosted (s.fsysNeeds u)).onGroup u (fun g => { g with memHold := some pc })) ∧
    (s.shortFor (dueFor (s.fsysNeeds u) s.posted) = false → Waits (.fsys n) s u pc)) ∧
  (∀ s u g pc m n, Passes s u g pc m (.icinv n) → ∃ t g' os, exec (.icinv n) s = .next t ∧ t.group? u = some g' ∧ Retired { g with octets := os } g' pc m (.icinv n) ∧
    g'.regs = g.regs ∧ g'.shadow = g.shadow ∧ (∀ v h, v ≠ u → s.group? v = some h → ∃ vs, t.group? v = some { h with octets := vs }) ∧
    { t with groups := s.groups, icache := s.icache, ocache := s.ocache, free := s.free } = s ∧
    (∀ x ∈ t.icache, x ∈ s.icache) ∧ (∀ x ∈ s.icache, n.toNat ≤ 1 → (x ∈ t.icache ↔ x.core ≠ g.core)) ∧
    (∀ x ∈ s.icache, n.toNat = 2 → (x ∈ t.icache ↔ x.core / 8 ≠ g.core / 8)))

/-- R124, R212: `send` fills a slot with the values of its executing lanes, 0 for the others, or parks at a full FIFO; `recv` takes the oldest slot, or parks at an empty one;
`qstat` reads the slots held and free; the slots of another device are free or full as that device has them; an undeclared channel, or one whose end is another team's, is ILLEGAL_OPERAND. The age 0 of the lanes that go on and the channels of another device's teams are the model's readings (log entries 110 and 79). -/
def Obligations.Channels : Prop :=
  (∀ s u g pc m d a ln ch, Passes s u g pc m (.send d a) → Channel s g d ln ch → ch.src = s.tidOf g → s.heldMode g.launch = false →
    s.teamGone g.launch ch.dst = false → s.teamAway g.launch ch.dst = false → ch.takers = [] → ch.fifo.length < ch.slots →
    ChannelWritten (.send d a) s u g pc m ln d
      { ch with fifo := ch.fifo ++ [(List.range 64).map (fun l => if executes g m l then g.regs.rv a.toNat l else 0)] } (fun g' => g'.regs = g.regs ∧ g'.shadow = g.shadow)) ∧
  (∀ s u g pc m d a ln ch, Passes s u g pc m (.send d a) → Channel s g d ln ch → ch.src = s.tidOf g → s.heldMode g.launch = false →
    s.teamGone g.launch ch.dst = false → s.teamAway g.launch ch.dst = false → ch.takers = [] → ch.slots ≤ ch.fifo.length →
    ∃ t g', exec (.send d a) s = .next t ∧ t.group? u = some g' ∧ (∀ l, t.rawByte l = s.rawByte l) ∧ Parks g g' pc m (.send (d.toNat - 64)) (s.watchOf g)) ∧
  (∀ s u g pc m d a ln ch, Passes s u g pc m (.send d a) → Channel s g d ln ch → ch.src = s.tidOf g → s.heldMode g.launch = false →
    s.teamGone g.launch ch.dst = true → Completes (.send d a) s u g pc m (fun g' => g'.regs = g.regs ∧ g'.shadow = g.shadow)) ∧
  (∀ s u g pc m d a ln ch w ws, Passes s u g pc m (.send d a) → Channel s g d ln ch → ch.src = s.tidOf g → s.heldMode g.launch = false →
    s.teamGone g.launch ch.dst = false → s.teamAway g.launch ch.dst = false → ch.takers = w :: ws → w.group ≠ u → ∀ h, s.group? w.group = some h →
    ∃ t h', exec (.send d a) s = .next t ∧ t.group? w.group = some h' ∧
      (∀ r l, l < 64 → Tab.get 0 h'.regs.v (vkey r l) = if r = w.vd ∧ executes h w.mask l = true then (if executes g m l then g.regs.rv a.toNat l else 0)
        else Tab.get 0 h.regs.v (vkey r l)) ∧
      h'.lanes = mapMask w.mask (fun _ x => if x.state = .park then x.resume else x) 0 h.lanes) ∧
  (∀ s u g pc m d a ln ch v vs tm, Passes s u g pc m (.recv d a) → Channel s g a ln ch → ch.dst = s.tidOf g → ch.fifo = v :: vs → ch.senders = [] →
    s.team? g.team = some tm → ChannelWritten (.recv d a) s u g pc m ln a { ch with fifo := vs } (fun g' => VectorWritten g g' m d.toNat 1 (fun _ l => v.getD l 0))) ∧
  (∀ s u g pc m d a ln ch tm, Passes s u g pc m (.recv d a) → Channel s g a ln ch → ch.dst = s.tidOf g → ch.fifo = [] → s.team? g.team = some tm →
    ∃ t g', exec (.recv d a) s = .next t ∧ t.group? u = some g' ∧ (∀ l, t.rawByte l = s.rawByte l) ∧ Parks g g' pc m (.recv (a.toNat - 64)) (s.watchOf g) ∧
      g'.pend = g.pend ++ [⟨.v (g.regs.wb + d.toNat), .reply, pc⟩]) ∧
  (∀ s u g pc m d a ln ch, Passes s u g pc m (.send d a) → Channel s g d ln ch → ch.src = s.tidOf g → s.heldMode g.launch = false →
    s.teamGone g.launch ch.dst = false → s.teamAway g.launch ch.dst = true →
    ∃ t g', exec (.send d a) s = .next t ∧ t.group? u = some g' ∧ (∀ v, v ≠ u → t.group? v = s.group? v) ∧ (∀ l, t.rawByte l = s.rawByte l) ∧ g'.regs = g.regs ∧
      (g'.lanes = mapMask m (fun _ x => { x with pc := nextPc pc }) 0 g.lanes ∨ Parks g g' pc m (.send (d.toNat - 64)) (s.watchOf g))) ∧
  (∀ s u g pc m d a ln ch, Passes s u g pc m (.qstat d a) → Channel s g a ln ch → s.teamAway g.launch ch.dst = true →
    ∃ t g' k, exec (.qstat d a) s = .next t ∧ t.group? u = some g' ∧ (∀ v, v ≠ u → t.group? v = s.group? v) ∧ (∀ l, t.rawByte l = s.rawByte l) ∧
      Retired g g' pc m (.qstat d a) ∧ k ≤ ch.slots ∧ ScalarWritten g g' d.toNat (BitVec.ofNat 64 (k + (ch.slots - k) * 2 ^ 16))) ∧
  (∀ s u g pc m d a ln ch, Passes s u g pc m (.qstat d a) → Channel s g a ln ch → s.teamAway g.launch ch.dst = false →
    Completes (.qstat d a) s u g pc m (fun g' => ScalarWritten g g' d.toNat (BitVec.ofNat 64 (ch.fifo.length + (ch.slots - ch.fifo.length) * 2 ^ 16)))) ∧
  (∀ s u g pc m d a ln, s.launch? g.launch = some ln → g.mode ≠ 1 →
    (Passes s u g pc m (.send d a) → (∀ ch, Tab.find ln.chans (d.toNat - 64) = some ch → ch.src ≠ s.tidOf g) →
      exec (.send d a) s = .next (s.takeFault u m (Hard.plain 0x02) false)) ∧
    (Passes s u g pc m (.recv d a) → (∀ ch, Tab.find ln.chans (a.toNat - 64) = some ch → ch.dst ≠ s.tidOf g) →
      exec (.recv d a) s = .next (s.takeFault u m (Hard.plain 0x02) false)) ∧
    (Passes s u g pc m (.qstat d a) → Tab.find ln.chans (a.toNat - 64) = none →
      exec (.qstat d a) s = .next (s.takeFault u m (Hard.plain 0x02) false)))

/-- R57, R125, R213: the words that park: `tmwait` until the timebase has reached its operand (at once if it has), `svc` until its reply. R57, R239: a handler's `rti` parks
until the next activation, any other group's is ILLEGAL_OPERAND; `hcall` parks with its number and s56 to s61 until H answers in s62 and s63, which wait for it. -/
def Obligations.ParkingWords : Prop :=
  (∀ s u g pc m a, Passes s u g pc m (.tmwait a) → (g.regs.rs a.toNat).toNat ≤ s.timebase.toNat →
    Completes (.tmwait a) s u g pc m (fun g' => g'.regs = g.regs ∧ g'.shadow = g.shadow)) ∧
  (∀ s u g pc m a, Passes s u g pc m (.tmwait a) → s.timebase.toNat < (g.regs.rs a.toNat).toNat →
    ∃ t g', exec (.tmwait a) s = .next t ∧ t.group? u = some g' ∧ OnlyGroup s t u ∧ Parks g g' pc m (.tmwait (g.regs.rs a.toNat)) (s.watchOf g)) ∧
  (∀ s u g pc m d a n, Passes s u g pc m (.svc d a n) → s.heldMode g.launch = false →
    ∃ t g', exec (.svc d a n) s = .next t ∧ t.group? u = some g' ∧ OnlyGroup s t u ∧ g'.pend = g.pend ++ [⟨.v (g.regs.wb + d.toNat), .reply, pc⟩] ∧
      Parks g g' pc m (.svc (g.regs.wb + d.toNat) n.toNat ((execList g m).map (fun l => g.regs.rv a.toNat l))) s.aclk) ∧
  (∀ s u g pc m, Passes s u g pc m .rti → s.handlerOf g.part = some u →
    ∃ t g', exec .rti s = .next t ∧ t.group? u = some g' ∧ OnlyGroup s t u ∧ Parks g g' pc m .rti s.aclk) ∧
  (∀ s u g pc m, Passes s u g pc m .rti → s.handlerOf g.part ≠ some u → exec .rti s = .next (s.takeFault u m (Hard.plain 0x02) false)) ∧
  (∀ s u g pc m n, Passes s u g pc m (.hcall n) →
    ∃ t g', exec (.hcall n) s = .next t ∧ t.group? u = some g' ∧ OnlyGroup s t u ∧ Parks g g' pc m
      (.hcall n.toNat [g.regs.rs 56, g.regs.rs 57, g.regs.rs 58, g.regs.rs 59, g.regs.rs 60, g.regs.rs 61]) s.aclk ∧
      g'.pend = g.pend ++ [⟨.s 62, .reply, pc⟩, ⟨.s 63, .reply, pc⟩])

/-! ### Claims, tensors and the matrix array -/

/-- R113 to R116, R214, R218: `bclaim` of two windows of the team's own stores, and in general of windows whose walk succeeds, makes a FREE claim register HELD, with the route
of R112; `brelease` frees a claim without flows, and waits for its flows otherwise; `bstat` reads it. -/
def Obligations.ClaimRegisters : Prop :=
  (∀ s u g pc m d a b tm, Passes s u g pc m (.bclaim d a b) → s.team? g.team = some tm → s.heldMode g.launch = false → (s.claim g.team d.toNat).state = 0 →
    (s.holders g.part).length < 64 → (g.regs.rc a.toNat).tag = true → (g.regs.rc a.toNat).kind = kTeam → (g.regs.rc a.toNat).has (16 + 1) = true →
    (g.regs.rc a.toNat).base + (g.regs.rc a.toNat).length ≤ tm.tmBytes → (g.regs.rc b.toNat).tag = true → (g.regs.rc b.toNat).has (16 + 2) = true →
    ((g.regs.rc b.toNat).kind = kTeam ∧ (g.regs.rc b.toNat).base + (g.regs.rc b.toNat).length ≤ tm.tmBytes ∨
      (g.regs.rc b.toNat).kind = kWbuf ∧ (g.regs.rc b.toNat).base + (g.regs.rc b.toNat).length ≤ tm.wbBytes) →
    ∃ t c, exec (.bclaim d a b) s = .next t ∧ Performed s t u g pc m (fun g' => g'.regs = g.regs) ∧ ClaimWritten s t g.team d.toNat c ∧
      c.state = 1 ∧ c.cause = 0 ∧ c.route = (if (g.regs.rc b.toNat).kind = kWbuf then 1 else 0) ∧ c.src = g.regs.rc a.toNat ∧ c.dst = g.regs.rc b.toNat ∧
      (∀ x, (g.regs.rc a.toNat).base ≤ x → x < (g.regs.rc a.toNat).base + (g.regs.rc a.toNat).length → placeIn x c.smap = some (.team g.team x, 0)) ∧
      (∀ x, (g.regs.rc b.toNat).base ≤ x → x < (g.regs.rc b.toNat).base + (g.regs.rc b.toNat).length →
        placeIn x c.dmap = some (if (g.regs.rc b.toNat).kind = kWbuf then .wbuf g.team x else .team g.team x, 0))) ∧
  (∀ s u g pc m d a b route w s1, Passes s u g pc m (.bclaim d a b) → s.heldMode g.launch = false → (s.claim g.team d.toNat).state = 0 → (s.team? g.team).isSome = true →
    (g.regs.rc a.toNat).tag = true → (g.regs.rc b.toNat).tag = true → (g.regs.rc a.toNat).kind ∈ claimSrc → (g.regs.rc b.toNat).kind ∈ claimDst →
    (g.regs.rc a.toNat).has (16 + 1) = true → (g.regs.rc b.toNat).has (16 + 2) = true →
    (∀ c, c = g.regs.rc a.toNat ∨ c = g.regs.rc b.toNat → (s.onPeer (s.actor u g) c c.base).2 = s ∧ ((s.onPeer (s.actor u g) c c.base).1 = true → c.has 128 = true) ∧
      (c.kind = kTeam → c.base + c.length ≤ (s.actor u g).tm) ∧ (c.kind = kWbuf → c.base + c.length ≤ (s.actor u g).wb)) →
    routeOf (g.regs.rc a.toNat).kind (g.regs.rc b.toNat).kind = some route →
    claimWalk s (s.actor u g) (lowestLane m) (g.regs.rc a.toNat) (g.regs.rc b.toNat) none = (.ok w, s1) →
    ∃ t, exec (.bclaim d a b) s = .next t ∧ Performed s t u g pc m (fun g' => g'.regs = g.regs) ∧
      ClaimWritten s t g.team d.toNat (w.claim route (g.regs.rc a.toNat) (g.regs.rc b.toNat))) ∧
  (∀ s u g pc m d a b, Passes s u g pc m (.bclaim d a b) → (s.claim g.team d.toNat).state ≠ 0 →
    exec (.bclaim d a b) s = .next (s.takeFault u m (Hard.plain 0x02) false)) ∧
  (∀ s u g pc m a, Passes s u g pc m (.brelease a) → (s.team? g.team).isSome = true → s.inflight g.team a.toNat = 0 →
    ∃ t, exec (.brelease a) s = .next t ∧ Performed s t u g pc m (fun g' => g'.regs = g.regs) ∧ ClaimWritten s t g.team a.toNat Claim.free) ∧
  (∀ s u g pc m a, Passes s u g pc m (.brelease a) → s.inflight g.team a.toNat ≠ 0 → Waits (.brelease a) s u pc) ∧
  (∀ s u g pc m d a, Passes s u g pc m (.bstat d a) → Completes (.bstat d a) s u g pc m (fun g' => ScalarWritten g g' d.toNat
    (BitVec.ofNat 64 ((s.claim g.team a.toNat).state + (s.claim g.team a.toNat).cause * 2 ^ 8 +
      (if (s.claim g.team a.toNat).state = 0 then 0 else (s.claim g.team a.toNat).route) * 2 ^ 16 + s.inflight g.team a.toNat % 2 ^ 16 * 2 ^ 32)))) ∧
  (∀ a b, routeOf a b = some 0 ↔ (a = 0 ∨ a = 2) ∧ (b = 0 ∨ b = 2)) ∧ (∀ a b, routeOf a b = some 1 ↔ (a = 0 ∨ a = 2) ∧ b = 3)

/-- R120, R121, R122, R216, R219: a flow on a HELD claim is accepted by the core's copy engine with the places of its rows, while fewer than two operations are; its token's
register waits; a contribution to a new collective round opens it. A specification outside R120 is FLOW_RANGE. R123, R217: `bseal` closes the group's open batch under the next
number; `bwait` waits until every operation of the batches has ended, and then orders their writes for the group. What counts the rounds of a COLL object is the model's reading (log entry 44). -/
def Obligations.FlowsAndRounds : Prop :=
  (∀ s u g pc m d a b, Passes s u g pc m (.bflow d a b) → s.heldMode g.launch = false → (s.claim g.team a.toNat).state = 1 → (s.claim g.team a.toNat).route ≠ 4 →
    FlowInRange g.regs b.toNat (s.claim g.team a.toNat).src.length (s.claim g.team a.toNat).dst.length → s.accepted g.core < 2 → s.engineRuns u g.core .copyEngine = true →
    (∀ q ∈ s.posted, q.group ≠ u) → ∃ t o, exec (.bflow d a b) s = .next t ∧ Performed s t u g pc m (fun g' => g'.regs = g.regs ∧ g'.openOps = g.openOps ++ [s.nextUid] ∧
        g'.pend = g.pend ++ [⟨.s d.toNat, .op s.nextUid, pc⟩]) ∧
      Tab.find t.copies s.nextUid = some o ∧ (∀ n, n ≠ s.nextUid → Tab.find t.copies n = Tab.find s.copies n) ∧ o.group = u ∧ o.sd = d.toNat ∧ o.claim = some a.toNat ∧
      o.srcs = (placesOf (s.claim g.team a.toNat).src.base (s.claim g.team a.toNat).smap (flowSources g.regs b.toNat)).map (·.1) ∧
      o.dsts = placesOf (s.claim g.team a.toNat).dst.base (s.claim g.team a.toNat).dmap (flowTargets g.regs b.toNat) ∧
      ReadsTrue s (placesOf (s.claim g.team a.toNat).src.base (s.claim g.team a.toNat).smap (flowSources g.regs b.toNat)) o.snap) ∧
  (∀ s u g pc m d a b, Passes s u g pc m (.bflow d a b) → s.heldMode g.launch = false → (s.claim g.team a.toNat).state = 1 → (s.claim g.team a.toNat).route ≠ 4 →
    FlowInRange g.regs b.toNat (s.claim g.team a.toNat).src.length (s.claim g.team a.toNat).dst.length →
    2 ≤ s.accepted g.core ∨ s.engineRuns u g.core .copyEngine = false → Waits (.bflow d a b) s u pc) ∧
  (∀ s u g pc m d a b, Passes s u g pc m (.bflow d a b) →
    ((s.claim g.team a.toNat).state = 0 → exec (.bflow d a b) s = .next (s.takeFault u m (Hard.plain 0x02) false)) ∧
    (3 ≤ (s.claim g.team a.toNat).state → exec (.bflow d a b) s = .next (s.takeFault u m (Hard.plain 0x20) false)) ∧
    ((s.claim g.team a.toNat).state = 1 → (s.claim g.team a.toNat).route = 4 → exec (.bflow d a b) s = .next (s.takeFault u m (Hard.plain 0x23) false)) ∧
    ((s.claim g.team a.toNat).state = 1 → (s.claim g.team a.toNat).route ≠ 4 →
      ¬ FlowInRange g.regs b.toNat (s.claim g.team a.toNat).src.length (s.claim g.team a.toNat).dst.length →
      exec (.bflow d a b) s = .next (s.takeFault u m (Hard.plain 0x22) false))) ∧
  (∀ s u g pc m d a b, Passes s u g pc m (.coll d a b) → s.heldMode g.launch = false → (s.claim g.team a.toNat).state = 1 → (s.claim g.team a.toNat).route = 4 →
    let h := (s.claim g.team a.toNat).header
    let n := (g.regs.rs (b.toNat + 2)).toNat
    let number := Tab.get 0 s.roundNo (roundCounter h (s.domOf g) (s.claim g.team a.toNat).dst.obj) + 1
    1 ≤ n → n % 8 = 0 → n ≤ 262144 → (g.regs.rs b.toNat).toNat % 32 = 0 → (g.regs.rs (b.toNat + 1)).toNat % 32 = 0 →
    (g.regs.rs b.toNat).toNat + 4 * n ≤ (s.claim g.team a.toNat).src.length → (g.regs.rs (b.toNat + 1)).toNat + 4 * n ≤ (hDest h).length →
    s.findRound (hNode h 0) (hCollid h) number = none → s.contribs = [] →
    ∃ t r c, exec (.coll d a b) s = .next t ∧ Performed s t u g pc m (fun g' => g'.regs = g.regs ∧ g'.pend = g.pend ++ [⟨.s d.toNat, .op s.nextUid, pc⟩]) ∧
      Tab.find t.rounds (s.nextUid + 1) = some r ∧ r.number = number ∧ r.header = h ∧
      r.start = (if g.regs.rs (b.toNat + 3) = 0 then s.timebase else g.regs.rs (b.toNat + 3)) ∧ t.contribs = [c] ∧ c.op = s.nextUid ∧ c.round = s.nextUid + 1 ∧
      c.index = hIndex h ∧ c.claim = a.toNat ∧ ReadsTrue s (placesOf (s.claim g.team a.toNat).src.base (s.claim g.team a.toNat).smap
        ((List.range (4 * n)).map ((g.regs.rs b.toNat).toNat + ·))) c.snap) ∧
  (∀ s u g pc m d, Passes s u g pc m (.bseal d) → ∃ t, exec (.bseal d) s = .next t ∧ OnlyGroup s t u ∧ Performed s t u g pc m (fun g' =>
    ScalarWritten g g' d.toNat (BitVec.ofNat 64 (g.batch + 1)) ∧ g'.batch = g.batch + 1 ∧ g'.sealed = g.sealed ++ [(g.batch + 1, g.openOps)] ∧ g'.openOps = [])) ∧
  (∀ s u g pc m a, Passes s u g pc m (.bwait a) → (g.regs.rs a.toNat).toNat ≤ g.batch →
    (∀ e ∈ g.sealed, e.1 ≤ (g.regs.rs a.toNat).toNat → ∀ op ∈ e.2, s.opRuns op = false) →
    ∃ t, exec (.bwait a) s = .next t ∧ Performed s t u g pc m (fun g' => g'.regs = g.regs ∧ g'.waited = max g.waited (g.regs.rs a.toNat).toNat) ∧
      Published (fun op => g.sealed.any (fun e => decide (e.1 ≤ (g.regs.rs a.toNat).toNat) && decide (op ∈ e.2))) 0 (s.place + 1) s.unpub t.unpub) ∧
  (∀ s u g pc m a e op, Passes s u g pc m (.bwait a) → (g.regs.rs a.toNat).toNat ≤ g.batch → e ∈ g.sealed → e.1 ≤ (g.regs.rs a.toNat).toNat → op ∈ e.2 →
    s.opRuns op = true → Waits (.bwait a) s u pc) ∧
  (∀ s u g pc m a, Passes s u g pc m (.bwait a) → g.mode ≠ 1 → g.batch < (g.regs.rs a.toNat).toNat →
    exec (.bwait a) s = .next (s.takeFault u m (Hard.plain 0x02) false))

/-- R71, R72, R221, R223, R220: the tensor table: `tset` loads the entry of a tid from its descriptor, with three tags; `tget` reads fields; `rprio` sets RESPRIO; `rdemote` and
`rpromote` queue a request of the residency manager; `rquery` reads the vault, the pending and the declined request, and RESPRIO. -/
def Obligations.TensorTable : Prop :=
  (∀ s u g pc m a b tm cx e, Passes s u g pc m (.tset a b) → s.team? g.team = some tm → s.context? g.part = some cx → Quiet s g.team →
    (g.regs.rs a.toNat).toNat < 2 ^ 12 → (g.regs.rs b.toNat).toNat + 128 ≤ tm.tmBytes → (g.regs.rs b.toNat).toNat % 16 = 0 →
    e = (⟨BitVec.ofNat 1024 (ofBytes (bytesAt s.rawByte (.team g.team (g.regs.rs b.toNat).toNat) 128)), s.tagAt (.team g.team (g.regs.rs b.toNat).toNat),
      s.tagAt (.team g.team ((g.regs.rs b.toNat).toNat + 16)), s.tagAt (.team g.team ((g.regs.rs b.toNat).toNat + 32))⟩ : TEntry) →
    (e.bad = false → ∃ t, exec (.tset a b) s = .next t ∧ Performed s t u g pc m (fun g' => g'.regs = g.regs) ∧
      TensorsWritten t g.part (fun n => if n = (g.regs.rs a.toNat).toNat then some e else s.tensor g.part n)) ∧
    (e.bad = true → ∃ s1, ReadOnly s s1 u ∧ exec (.tset a b) s = .next (s1.takeFault u m (Hard.plain 0x02) false))) ∧
  (∀ s u g pc m d a n, Passes s u g pc m (.tget d a n) → (g.regs.rs a.toNat).toNat < 2 ^ 12 →
    Completes (.tget d a n) s u g pc m (fun g' => ScalarWritten g g' d.toNat (match s.tensor g.part (g.regs.rs a.toNat).toNat with
      | none => 0
      | some e => if n.toNat ≤ 3 then (e.desc.extractLsb' (448 + 32 * n.toNat) 32).setWidth 64
        else if n.toNat ≤ 6 then e.desc.extractLsb' (576 + 64 * (n.toNat - 4)) 64
        else if n.toNat = 7 then e.desc.extractLsb' 384 64 else if n.toNat = 8 then (e.desc.extractLsb' 800 32).setWidth 64 else BitVec.allOnes 64))) ∧
  (∀ s u g pc m a b e, Passes s u g pc m (.rprio a b) → (g.regs.rs a.toNat).toNat < 2 ^ 12 → s.tensor g.part (g.regs.rs a.toNat).toNat = some e →
    (g.regs.rs b.toNat).toNat < 8 → ∃ t e', exec (.rprio a b) s = .next t ∧ Performed s t u g pc m (fun g' => g'.regs = g.regs) ∧
      TensorsWritten t g.part (fun n => if n = (g.regs.rs a.toNat).toNat then some e' else s.tensor g.part n) ∧
      e'.desc.extractLsb' 424 3 = (g.regs.rs b.toNat).setWidth 3 ∧ e'.desc.extractLsb' 0 424 = e.desc.extractLsb' 0 424 ∧
      e'.desc.extractLsb' 427 597 = e.desc.extractLsb' 427 597 ∧ e'.dtag = e.dtag ∧ e'.stag = e.stag ∧ e'.utag = e.utag) ∧
  (∀ s u g pc m a e x, Passes s u g pc m (.rdemote a) → (g.regs.rs a.toNat).toNat < 2 ^ 12 → s.tensor g.part (g.regs.rs a.toNat).toNat = some e →
    s.movable g.part e = true → s.part? g.part = some x → ∃ t x', exec (.rdemote a) s = .next t ∧ Performed s t u g pc m (fun g' => g'.regs = g.regs) ∧
      t.part? g.part = some x' ∧ x'.resid = x.resid ++ [⟨(g.regs.rs a.toNat).toNat, none, false, false, []⟩]) ∧
  (∀ s u g pc m a b e x, Passes s u g pc m (.rpromote a b) → (g.regs.rs a.toNat).toNat < 2 ^ 12 → s.tensor g.part (g.regs.rs a.toNat).toNat = some e →
    s.movable g.part e = true → s.part? g.part = some x → (g.regs.rs b.toNat = 0xFF ∨ (g.regs.rs b.toNat).toNat < 256 ∧ Part.hasVault g.part x (g.regs.rs b.toNat).toNat = true) →
    ∃ t x', exec (.rpromote a b) s = .next t ∧ Performed s t u g pc m (fun g' => g'.regs = g.regs) ∧ t.part? g.part = some x' ∧
      x'.resid = x.resid ++ [⟨(g.regs.rs a.toNat).toNat, some (if g.regs.rs b.toNat = 0xFF then g.core / 8 else (g.regs.rs b.toNat).toNat), false, false, []⟩]) ∧
  (∀ s u g pc m d a e x, Passes s u g pc m (.rquery d a) → (g.regs.rs a.toNat).toNat < 2 ^ 12 → s.tensor g.part (g.regs.rs a.toNat).toNat = some e →
    s.part? g.part = some x → e.data.kind = kMem → s.firstVault g.part e.data < 256 →
    ∃ v : W64, Completes (.rquery d a) s u g pc m (fun g' => ScalarWritten g g' d.toNat v) ∧ v.toNat % 256 = s.firstVault g.part e.data ∧
      v.getLsbD 8 = x.resid.any (fun r => decide (r.tid = (g.regs.rs a.toNat).toNat)) ∧ v.getLsbD 9 = decide ((g.regs.rs a.toNat).toNat ∈ x.declined) ∧
      v.toNat / 2 ^ 10 = (e.desc.extractLsb' 424 3).toNat) ∧
  (∀ s u g pc m a, g.mode ≠ 1 → 2 ^ 12 ≤ (g.regs.rs a.toNat).toNat ∨ s.tensor g.part (g.regs.rs a.toNat).toNat = none → ∀ b d,
    (Passes s u g pc m (.rprio a b) → exec (.rprio a b) s = .next (s.takeFault u m (Hard.plain 0x02) false)) ∧
    (Passes s u g pc m (.rdemote a) → exec (.rdemote a) s = .next (s.takeFault u m (Hard.plain 0x02) false)) ∧
    (Passes s u g pc m (.rpromote a b) → exec (.rpromote a b) s = .next (s.takeFault u m (Hard.plain 0x02) false)) ∧
    (Passes s u g pc m (.rquery d a) → exec (.rquery d a) s = .next (s.takeFault u m (Hard.plain 0x02) false)) ∧
    (Passes s u g pc m (.tsum d a) → exec (.tsum d a) s = .next (s.takeFault u m (Hard.plain 0x02) false)))

/-- R224, R231: gang registers take the values of R224 only; the accumulator words of a group without queued operations read, add to and clear the accumulators of its team's
band at row sa, column 64·sb + lane; a row or a block outside the band is CAP_BOUNDS. R226 to R228, R132, R233: a matrix word whose operands pass the checks of R227 parks its
lanes at the rendezvous latch with the entries that it read, its engine reading B, and for the first member of a row band A, from then on; a `tsum` of a tensor in team memory is accepted by the copy engine with the places of its plane. -/
def Obligations.GangsAndAccumulators : Prop :=
  (∀ s u g pc m d a, Passes s u g pc m (.gset d a) → GangValue (g.regs.rs a.toNat) →
    Completes (.gset d a) s u g pc m (fun g' => GangWritten g g' d.toNat (g.regs.rs a.toNat))) ∧
  (∀ s u g pc m d a, Passes s u g pc m (.gset d a) → ¬ GangValue (g.regs.rs a.toNat) → exec (.gset d a) s = .next (s.takeFault u m (Hard.plain 0x02) false)) ∧
  (∀ s u g pc m d a b tm, Passes s u g pc m (.accrd d a b) → g.mode ≠ 1 → ArrayIdle s → s.team? g.team = some tm → (g.regs.rs a.toNat).toNat < tm.accRows →
    (g.regs.rs b.toNat).toNat < 8 → (∀ l, executes g m l = true → accDefined tm (512 * (g.regs.rs a.toNat).toNat + (64 * (g.regs.rs b.toNat).toNat + l))) →
    Completes (.accrd d a b) s u g pc m (fun g' => VectorWritten g g' m d.toNat 1
      (fun _ l => toW g.rm (fp96.dec (Tab.get 0 tm.acc (512 * (g.regs.rs a.toNat).toNat + (64 * (g.regs.rs b.toNat).toNat + l))).toNat)))) ∧
  (∀ s u g pc m d a b tm, Passes s u g pc m (.accadd d a b) → ArrayIdle s → s.team? g.team = some tm → (g.regs.rs a.toNat).toNat < tm.accRows →
    (g.regs.rs b.toNat).toNat < 8 → (∀ l, executes g m l = true → accDefined tm (512 * (g.regs.rs a.toNat).toNat + (64 * (g.regs.rs b.toNat).toNat + l))) →
    ∃ t tm', exec (.accadd d a b) s = .next t ∧ Performed s t u g pc m (fun g' => g'.regs = g.regs) ∧ t.team? g.team = some tm' ∧ tm'.tmem = tm.tmem ∧
      ∀ k, Tab.get 0 tm'.acc k =
        if (execList g m).any (fun l => decide (k = 512 * (g.regs.rs a.toNat).toNat + (64 * (g.regs.rs b.toNat).toNat + l))) then
          BitVec.ofNat 96 (fp96.enc 0 (Fp.add 0 (fp96.dec (Tab.get 0 tm.acc k).toNat) (ofW (g.regs.rv d.toNat (k % 64)))))
        else Tab.get 0 tm.acc k) ∧
  (∀ s u g pc m a b tm, Passes s u g pc m (.accclr a b) → ArrayIdle s → s.team? g.team = some tm → 1 ≤ (g.regs.rs b.toNat).toNat →
    (g.regs.rs a.toNat).toNat + (g.regs.rs b.toNat).toNat ≤ tm.accRows →
    ∃ t tm', exec (.accclr a b) s = .next t ∧ Performed s t u g pc m (fun g' => g'.regs = g.regs) ∧ t.team? g.team = some tm' ∧
      ∀ k, Tab.get 0 tm'.acc k = if 512 * (g.regs.rs a.toNat).toNat ≤ k ∧ k < 512 * (g.regs.rs a.toNat).toNat + 512 * (g.regs.rs b.toNat).toNat then 0
        else Tab.get 0 tm.acc k) ∧
  (∀ s u g pc m d a b tm, Passes s u g pc m (.accrd d a b) → g.mode ≠ 1 → ArrayIdle s → s.team? g.team = some tm →
    tm.accRows ≤ (g.regs.rs a.toNat).toNat ∨ 8 ≤ (g.regs.rs b.toNat).toNat →
    exec (.accrd d a b) s = .next (s.takeFault u m { Hard.plain 0x10 with lane := lowestLane m } false)) ∧
  (∀ (zero : Bool) s u g pc m d a b, let i : Instr := if zero then .mmxz d a b else .mmx d a b
    let q := (List.range 4).map (fun i => g.regs.rs (b.toNat + i))
    let x := s.actor u g
    Passes s u g pc m i →
    ((s.tensor g.part (spA q) = none ∨ s.tensor g.part (spB q) = none) → exec i s = .next (s.takeFault u m { Hard.plain 0x02 with lane := lowestLane m } false)) ∧
    ∀ ea eb, s.tensor g.part (spA q) = some ea → s.tensor g.part (spB q) = some eb →
      (∀ cause, mmxFault s g (g.regs.rg a.toNat) q ea eb = some cause → exec i s = .next (s.takeFault u m { Hard.plain cause with lane := lowestLane m } false)) ∧
      (mmxFault s g (g.regs.rg a.toNat) q ea eb = none → ∀ bd bs s1, s.readOperand x eb = (bd, bs, s1) →
        (mmxOutside s x g q ea eb bd.snap = true → ReadOnly s s1 u ∧ exec i s = .next (s1.takeFault u m { Hard.plain 0x10 with lane := lowestLane m } false)) ∧
        (mmxOutside s x g q ea eb bd.snap = false → ∃ t g' ad as, exec i s = .next t ∧ t.group? u = some g' ∧ (∀ v, v ≠ u → t.group? v = s.group? v) ∧
          (∀ l, t.rawByte l = s.rawByte l) ∧ Parks g g' pc m .gang (s.watchOf g) ∧ g'.pend = g.pend ++ [⟨.s d.toNat, .reply, pc⟩] ∧
          t.latch = s.latch ++ [⟨g.core / 8, g.regs.rg a.toNat, u, zero, q, ea, eb, ad, as, bd, bs, d.toNat, m, pc, s.watchOf g⟩] ∧
          ReadsTrue s (ownPlaces x eb.data) bd.snap ∧ (s.holdsA g (g.regs.rg a.toNat) = false → ad = ReadSet.empty ∧ as = ReadSet.empty) ∧
          (s.holdsA g (g.regs.rg a.toNat) = true → ReadsTrue s (ownPlaces x ea.data) ad.snap)))) ∧
  (∀ s u g pc m d a e tm, Passes s u g pc m (.tsum d a) → s.heldMode g.launch = false → s.team? g.team = some tm → (g.regs.rs a.toNat).toNat < 2 ^ 12 →
    s.tensor g.part (g.regs.rs a.toNat).toNat = some e → e.utag = true → e.dtag = true → e.comp = 0 → e.data.length ≤ 2 ^ 24 →
    e.data.kind = kTeam → e.summary.kind = kTeam → e.data.has 1 = true → e.summary.has 2 = true → e.data.base + e.data.length ≤ tm.tmBytes →
    e.summary.base + e.summary.length ≤ tm.tmBytes → e.fits e.data.length = true → 8 * (e.dim 3 * e.dim 2 * e.dim 1 * (e.dim 0 / 64)) ≤ e.summary.length →
    s.accepted g.core < 2 → s.engineRuns u g.core .copyEngine = true → ∃ t o, exec (.tsum d a) s = .next t ∧
      Performed s t u g pc m (fun g' => g'.regs = g.regs ∧ g'.openOps = g.openOps ∧ g'.pend = g.pend ++ [⟨.s d.toNat, .op s.nextUid, pc⟩] ∧ (d.toNat, s.nextUid) ∈ g'.tokens) ∧
      Tab.find t.copies s.nextUid = some o ∧ o.entry = some e ∧ o.claim = none ∧ o.sd = d.toNat ∧
      o.srcs = (List.range e.data.length).map (fun i => .team g.team (e.data.base + i)) ∧
      o.dsts = (List.range (8 * (e.dim 3 * e.dim 2 * e.dim 1 * (e.dim 0 / 64)))).map (fun i => (.team g.team (e.summary.base + i), 0)))

/-- R61, R234, R235: `cderive` gives a tagged capability of the same object and kind with a narrower window and no more rights; the words that read a field, copy and clear one;
a wider one is CAP_WIDEN, one from an untagged capability CAP_TAG. -/
def Obligations.CapabilityWords : Prop :=
  (∀ s u g pc m d a b, Passes s u g pc m (.cderive d a b) → (g.regs.rc a.toNat).tag = true → (g.regs.rs (b.toNat + 2)).toNat < 256 →
    (g.regs.rs b.toNat).toNat + (g.regs.rs (b.toNat + 1)).toNat ≤ (g.regs.rc a.toNat).length → (g.regs.rc a.toNat).base + (g.regs.rc a.toNat).length < 2 ^ 40 →
    (g.regs.rs (b.toNat + 2)).setWidth 8 &&& ~~~(g.regs.rc a.toNat).rights = 0 →
    ∃ x, Completes (.cderive d a b) s u g pc m (fun g' => CapWritten g g' d.toNat x) ∧ x.tag = true ∧ x.obj = (g.regs.rc a.toNat).obj ∧ x.kind = (g.regs.rc a.toNat).kind ∧
      x.base = (g.regs.rc a.toNat).base + (g.regs.rs b.toNat).toNat ∧ x.length = (g.regs.rs (b.toNat + 1)).toNat ∧ x.rights = (g.regs.rs (b.toNat + 2)).setWidth 8) ∧
  (∀ s u g pc m d a b, Passes s u g pc m (.cderive d a b) → g.mode ≠ 1 →
    ((g.regs.rc a.toNat).tag = false →
      exec (.cderive d a b) s = .next (s.takeFault u m ⟨0x12, lowestLane m, (g.regs.rc a.toNat).obj, (g.regs.rc a.toNat).base, 0⟩ false)) ∧
    ((g.regs.rc a.toNat).tag = true → 256 ≤ (g.regs.rs (b.toNat + 2)).toNat → exec (.cderive d a b) s = .next (s.takeFault u m (Hard.plain 0x02) false)) ∧
    ((g.regs.rc a.toNat).tag = true → (g.regs.rs (b.toNat + 2)).toNat < 256 →
      (g.regs.rc a.toNat).length < (g.regs.rs b.toNat).toNat + (g.regs.rs (b.toNat + 1)).toNat ∨ (g.regs.rs (b.toNat + 2)).setWidth 8 &&& ~~~(g.regs.rc a.toNat).rights ≠ 0 →
      exec (.cderive d a b) s = .next (s.takeFault u m ⟨0x13, lowestLane m, (g.regs.rc a.toNat).obj, (g.regs.rc a.toNat).base, 0⟩ false))) ∧
  (∀ s u g pc m d a, Passes s u g pc m (.cmov d a) → Completes (.cmov d a) s u g pc m (fun g' => CapWritten g g' d.toNat (g.regs.rc a.toNat))) ∧
  (∀ s u g pc m d, Passes s u g pc m (.cclear d) → Completes (.cclear d) s u g pc m (fun g' => CapWritten g g' d.toNat ⟨0, false⟩)) ∧
  (∀ s u g pc m d a, Passes s u g pc m (.cbase d a) →
    Completes (.cbase d a) s u g pc m (fun g' => ScalarWritten g g' d.toNat (((g.regs.rc a.toNat).bits.extractLsb' 40 40).setWidth 64))) ∧
  (∀ s u g pc m d a, Passes s u g pc m (.clen d a) →
    Completes (.clen d a) s u g pc m (fun g' => ScalarWritten g g' d.toNat (((g.regs.rc a.toNat).bits.extractLsb' 0 40).setWidth 64))) ∧
  (∀ s u g pc m d a, Passes s u g pc m (.crights d a) →
    Completes (.crights d a) s u g pc m (fun g' => ScalarWritten g g' d.toNat (((g.regs.rc a.toNat).bits.extractLsb' 88 8).setWidth 64))) ∧
  (∀ s u g pc m d a, Passes s u g pc m (.ckind d a) →
    Completes (.ckind d a) s u g pc m (fun g' => ScalarWritten g g' d.toNat (((g.regs.rc a.toNat).bits.extractLsb' 84 4).setWidth 64))) ∧
  (∀ s u g pc m d a, Passes s u g pc m (.cvalid d a) →
    Completes (.cvalid d a) s u g pc m (fun g' => ScalarWritten g g' d.toNat (flag ((g.regs.rc a.toNat).tag = true))))

/-! ### The bounds pass -/

/-- R99, R104: the words of the bounds pass: outside bounds mode the four interval words copy `va`, `bsplit` and `babandon` do nothing; in bounds mode `bsplit` ends a tile
undecided, `babandon` abandoned, and `bfill` of a degenerate value records a fill; `bmode` parks the group for a pass. R73, R104: `tld` decodes the elements that its lanes
name; `tst` and a `bfill` of a settled or element dispatch encode and store them; in bounds mode `tst` only marks element work, and a `tld` of a tensor without a summary plane
at indices that are not degenerate gives TOP. What bounds-mode `tst` checks and which lanes' scalars `bmode` takes are the model's choices (log entries 113 and 114). -/
def Obligations.BoundsWords : Prop :=
  VectorOp1 .blo id ∧ VectorOp1 .bhi id ∧ VectorOp2 .bhull (fun x _ => x) ∧
  (∀ s u g pc m d a b, Passes s u g pc m (.bwiden d a b) → g.mode ≠ 1 →
    Completes (.bwiden d a b) s u g pc m (fun g' => VectorWritten g g' m d.toNat 1 (fun _ l => g.regs.rv a.toNat l))) ∧
  (∀ s u g pc m d a, Passes s u g pc m (.blo d a) → g.mode = 1 →
    BoundsResult (.blo d a) s u g pc m d.toNat (fun l => { laneIv g a.toNat l with hi := (laneIv g a.toNat l).lo })) ∧
  (∀ s u g pc m d a, Passes s u g pc m (.bhi d a) → g.mode = 1 →
    BoundsResult (.bhi d a) s u g pc m d.toNat (fun l => { laneIv g a.toNat l with lo := (laneIv g a.toNat l).hi })) ∧
  (∀ s u g pc m, Passes s u g pc m .bsplit → (g.mode ≠ 1 → Completes .bsplit s u g pc m (fun g' => g'.regs = g.regs ∧ g'.shadow = g.shadow)) ∧
    (g.mode = 1 → EndsTiles .bsplit s u g m .quarter)) ∧
  (∀ s u g pc m, Passes s u g pc m .babandon → (g.mode ≠ 1 → Completes .babandon s u g pc m (fun g' => g'.regs = g.regs ∧ g'.shadow = g.shadow)) ∧
    (g.mode = 1 → EndsTiles .babandon s u g m .abandoned)) ∧
  (∀ s u g pc m a b, Passes s u g pc m (.bmode a b) → g.mode = 0 → s.boundsRole g = true → (g.regs.rs a.toNat).toNat < 2 ^ 48 →
    (g.regs.rs a.toNat).toNat % 4 = 0 → (g.regs.rs a.toNat).toNat % 32 ≠ 0 → (∀ x ∈ g.lanes, x.state = .park → x.park = .bmode → x.pc = pc) →
    ∃ t g', exec (.bmode a b) s = .next t ∧ t.group? u = some g' ∧ OnlyGroup s t u ∧ Parks g g' pc m .bmode s.aclk ∧
      g'.bmode = some (g.regs.rs a.toNat, g.regs.rs b.toNat)) ∧
  (∀ s u g pc m a b, Passes s u g pc m (.bmode a b) → g.mode ≠ 0 ∨ s.boundsRole g = false → exec (.bmode a b) s = .next (s.takeFault u m (Hard.plain 0x01) false)) ∧
  (∀ s u g pc m a b, Passes s u g pc m (.bfill a b) → g.mode = 0 → exec (.bfill a b) s = .next (s.takeFault u m (Hard.plain 0x01) false)) ∧
  (∀ s u g pc m a b e i2 i3, Passes s u g pc m (.bfill a b) → g.mode = 1 → ElementTensor s g (g.regs.rs a.toNat) e i2 i3 →
    e.dtag = true → e.data.kind = kTeam → e.data.has 2 = true →
    (∀ l, bit m l = true → l < g.width ∧ (laneIv g b.toNat l).degen = true ∧ ∃ k, (g.lane l).tile = some k ∧ k.fills.length < 4 ∧
      e.holdsTile (s.vectorSr (issueCtx u g pc m (.bfill a b)) 4 l).toNat (s.vectorSr (issueCtx u g pc m (.bfill a b)) 5 l).toNat k i2 i3 = true) →
    Places (.bfill a b) s u g m (fun l x => { x with pc := nextPc pc, tile := x.tile.map (fun k =>
      { k with fills := k.fills ++ [⟨(g.regs.rs a.toNat).toNat % 2 ^ 12, i2, i3, BitVec.ofNat 32 (e.encode g.rm (laneIv g b.toNat l).lo)⟩] }) })) ∧
  (∀ s u g pc m d a b e i2 i3 ts s1, Passes s u g pc m (.tld d a b) → g.mode ≠ 1 → ElementTensor s g (g.regs.rs a.toNat) e i2 i3 → Quiet s g.team → Ordinary s e.elBytes ts →
    elemAccess s (s.actor u g) (lowestLane m) 1 .load e (laneElems g m b i2 i3) = (.ok ts, s1) →
    ∃ t g', exec (.tld d a b) s = .next t ∧ t.group? u = some g' ∧ ReadOnly s t u ∧ Retired g g' pc m (.tld d a b) ∧
      VectorWritten g g' m d.toNat 1 (fun _ l => (((laneElems g m b i2 i3).zip ts).find? (fun y => decide (y.1.lane = l))).elim 0
        (fun y => e.decode (e.code y.1.i3 y.1.i2 y.1.i1 y.1.i0 (bytesAt s.rawByte y.2.2.loc e.elBytes))))) ∧
  (∀ s u g pc m d a b e i2 i3 ts s1, Passes s u g pc m (.tst d a b) → g.mode ≠ 1 → ElementTensor s g (g.regs.rs a.toNat) e i2 i3 → Quiet s g.team → Ordinary s e.elBytes ts →
    s.heldMode g.launch = false → elemAccess s (s.actor u g) (lowestLane m) 2 .store e (laneElems g m b i2 i3) = (.ok ts, s1) →
    ElementsStored (.tst d a b) s u g pc m e (laneElems g m b i2 i3) ts (fun l => g.regs.rv d.toNat l)) ∧
  (∀ s u g pc m a b e i2 i3 ts s1, Passes s u g pc m (.bfill a b) → 2 ≤ g.mode → ElementTensor s g (g.regs.rs a.toNat) e i2 i3 → Quiet s g.team → Ordinary s e.elBytes ts →
    s.heldMode g.launch = false → elemAccess s (s.actor u g) (lowestLane m) 2 .store e (s.tileElems (issueCtx u g pc m (.bfill a b)) i2 i3) = (.ok ts, s1) →
    ElementsStored (.bfill a b) s u g pc m e (s.tileElems (issueCtx u g pc m (.bfill a b)) i2 i3) ts (fun l => g.regs.rv b.toNat l)) ∧
  (∀ s u g pc m d a b e i2 i3, Passes s u g pc m (.tst d a b) → g.mode = 1 → ElementTensor s g (g.regs.rs a.toNat) e i2 i3 →
    Places (.tst d a b) s u g m (fun _ x => { x with pc := nextPc pc, tile := x.tile.map (fun k => { k with work := true }) })) ∧
  (∀ s u g pc m d a b e i2 i3, Passes s u g pc m (.tld d a b) → g.mode = 1 → ElementTensor s g (g.regs.rs a.toNat) e i2 i3 →
    e.dtag = true → e.data.kind = kTeam → e.data.has 1 = true → e.utag = false →
    (∀ l, executes g m l = true → (laneIv g b.toNat l).degen = false ∨ (laneIv g (b.toNat + 1) l).degen = false) →
    BoundsResult (.tld d a b) s u g pc m d.toNat (fun _ => Iv.top (if e.eltype = 4 then .s else .f)))

/-- R101 to R103: the integer instructions of bounds mode are sound: their result intervals stand for every result of values that their operands stand for. `vmov` copies the
interval with its tag and its maybe-NaN flag (the model's reading, log entry 105). R104: `bhull` and `bwiden`. -/
def Obligations.IntegerIntervalsSound : Prop :=
  IntervalOp2 .vadd (fun _ x y => x + y) ∧ IntervalOp2 .vsub (fun _ x y => x - y) ∧ IntervalOp2 .vmul (fun _ x y => x * y) ∧
  IntervalOp2 .vmulhS (fun _ x y => BitVec.ofInt 32 (x.toInt * y.toInt / 2 ^ 32)) ∧ IntervalOp2 .vmulhZ (fun _ x y => BitVec.ofNat 32 (x.toNat * y.toNat / 2 ^ 32)) ∧
  IntervalOp3 .vmad (fun _ z x y => x * y + z) ∧
  IntervalOp2 .vminS (fun _ x y => if x.toInt ≤ y.toInt then x else y) ∧ IntervalOp2 .vminZ (fun _ x y => if x.toNat ≤ y.toNat then x else y) ∧
  IntervalOp2 .vmaxS (fun _ x y => if x.toInt ≤ y.toInt then y else x) ∧ IntervalOp2 .vmaxZ (fun _ x y => if x.toNat ≤ y.toNat then y else x) ∧
  IntervalOp2 .vaddsS (fun _ x y => clamp (-2 ^ 31) (2 ^ 31 - 1) (x.toInt + y.toInt)) ∧ IntervalOp2 .vaddsZ (fun _ x y => clamp 0 (2 ^ 32 - 1) (x.toNat + y.toNat)) ∧
  IntervalOp2 .vsubsS (fun _ x y => clamp (-2 ^ 31) (2 ^ 31 - 1) (x.toInt - y.toInt)) ∧ IntervalOp2 .vsubsZ (fun _ x y => clamp 0 (2 ^ 32 - 1) (x.toNat - y.toNat)) ∧
  IntervalOp2 .vdivS (fun _ => quotS) ∧ IntervalOp2 .vdivZ (fun _ => quotZ) ∧ IntervalOp2 .vremS (fun _ => remdS) ∧ IntervalOp2 .vremZ (fun _ => remdZ) ∧
  IntervalOp2 .vand (fun _ x y => x &&& y) ∧ IntervalOp2 .vor (fun _ x y => x ||| y) ∧ IntervalOp2 .vxor (fun _ x y => x ^^^ y) ∧
  IntervalOp2 .vandn (fun _ x y => x &&& ~~~y) ∧ IntervalOp3 .vsel (fun _ z x y => (z &&& x) ||| (~~~z &&& y)) ∧
  IntervalOp2 .vshl (fun _ x y => BitVec.ofNat 32 (x.toNat * 2 ^ y.toNat)) ∧ IntervalOp2 .vshrZ (fun _ x y => BitVec.ofNat 32 (x.toNat / 2 ^ y.toNat)) ∧
  IntervalOp2 .vshrS (fun _ x y => BitVec.ofInt 32 (x.toInt / 2 ^ y.toNat)) ∧ IntervalOp2 .vrotl (fun _ x y => x.rotateLeft (y.toNat % 32)) ∧
  IntervalOp1 .vpopc (fun _ x => BitVec.ofNat 32 (onesIn x)) ∧ IntervalOp1 .vclz (fun _ x => BitVec.ofNat 32 (leadingZeros x)) ∧ IntervalOp1 .vbrev (fun _ => BitVec.reverse) ∧
  IntervalOp2 .vbfxZ (fun _ x y => (x >>> fieldPos y) &&& fieldMask y) ∧
  IntervalOp2 .vbfxS (fun _ x y => if fieldLen y = 0 then 0 else ((x >>> fieldPos y).setWidth (fieldLen y)).signExtend 32) ∧
  IntervalOp3 .vbfi (fun _ z x y => (z &&& ~~~(fieldMask y <<< fieldPos y)) ||| ((x &&& fieldMask y) <<< fieldPos y)) ∧
  IntervalOp2 .vcmpEq (fun _ x y => flag (x = y)) ∧ IntervalOp2 .vcmpNe (fun _ x y => flag (x ≠ y)) ∧
  IntervalOp2 .vcmpLtS (fun _ x y => flag (x.toInt < y.toInt)) ∧ IntervalOp2 .vcmpLtZ (fun _ x y => flag (x.toNat < y.toNat)) ∧
  IntervalOp2 .vcmpLeS (fun _ x y => flag (x.toInt ≤ y.toInt)) ∧ IntervalOp2 .vcmpLeZ (fun _ x y => flag (x.toNat ≤ y.toNat)) ∧
  IntervalImm .vaddi (fun x k => BitVec.ofInt 32 (x.toInt + k.toInt)) ∧ IntervalImm .vmuli (fun x k => BitVec.ofInt 32 (x.toInt * k.toInt)) ∧
  IntervalImm .vandi (fun x k => x &&& k.signExtend 32) ∧ IntervalImm .vori (fun x k => x ||| k.signExtend 32) ∧ IntervalImm .vxori (fun x k => x ^^^ k.signExtend 32) ∧
  IntervalImm .vshli (fun x k => x <<< k.toNat) ∧ IntervalImm .vshriZ (fun x k => x >>> k.toNat) ∧ IntervalImm .vshriS (fun x k => x.sshiftRight k.toNat) ∧
  IntervalImm .vcmpiEq (fun x k => flag (x.toInt = k.toInt)) ∧ IntervalImm .vcmpiLtS (fun x k => flag (x.toInt < k.toInt)) ∧
  IntervalImm .vcmpiLtZ (fun x k => flag (x.toNat < (k.signExtend 32).toNat)) ∧
  IntervalImm .vminiS (fun x k => if x.toInt ≤ k.toInt then x else k.signExtend 32) ∧ IntervalImm .vmaxiS (fun x k => if x.toInt ≤ k.toInt then k.signExtend 32 else x) ∧
  (∀ s u g pc m d a, Passes s u g pc m (.vmov d a) → g.mode = 1 → BoundsResult (.vmov d a) s u g pc m d.toNat (laneIv g a.toNat)) ∧
  (∀ s u g pc m d a, Passes s u g pc m (.vbcast d a) → g.mode = 1 → BoundsResult (.vbcast d a) s u g pc m d.toNat (fun _ => Iv.point .s ((g.regs.rs a.toNat).setWidth 32))) ∧
  (∀ s u g pc m d k, Passes s u g pc m (.vmovi d k) → g.mode = 1 → BoundsResult (.vmovi d k) s u g pc m d.toNat (fun _ => Iv.point .s (BitVec.ofInt 32 k.toInt))) ∧
  (∀ s u g pc m d k, Passes s u g pc m (.vmovhi d k) → g.mode = 1 → ∃ r, BoundsResult (.vmovhi d k) s u g pc m d.toNat r ∧
    ∀ l x, Legit (laneIv g d.toNat l) → Stands (laneIv g d.toNat l) x → Legit (r l) ∧ Stands (r l) (BitVec.ofNat 32 (k.toNat * 2 ^ 13 + x.toNat % 2 ^ 13))) ∧
  (∀ s u g pc m d a b, Passes s u g pc m (.bhull d a b) → g.mode = 1 → ∃ r, BoundsResult (.bhull d a b) s u g pc m d.toNat r ∧
    ∀ l x, Legit (laneIv g a.toNat l) → Legit (laneIv g b.toNat l) → Stands (laneIv g a.toNat l) x ∨ Stands (laneIv g b.toNat l) x → Legit (r l) ∧ Stands (r l) x) ∧
  (∀ s u g pc m d a b, Passes s u g pc m (.bwiden d a b) → g.mode = 1 → ∃ r, BoundsResult (.bwiden d a b) s u g pc m d.toNat r ∧
    ∀ l, Legit (laneIv g a.toNat l) →
      ((laneIv g a.toNat l).tag = .s → 0 ≤ ((g.regs.rs b.toNat).setWidth 32).toInt →
        r l = ⟨clamp (-2 ^ 31) (2 ^ 31 - 1) ((laneIv g a.toNat l).lo.toInt - ((g.regs.rs b.toNat).setWidth 32).toInt),
          clamp (-2 ^ 31) (2 ^ 31 - 1) ((laneIv g a.toNat l).hi.toInt + ((g.regs.rs b.toNat).setWidth 32).toInt), .s, (laneIv g a.toNat l).nan⟩) ∧
      ((laneIv g a.toNat l).tag = .z →
        r l = ⟨clamp 0 (2 ^ 32 - 1) ((laneIv g a.toNat l).lo.toNat - ((g.regs.rs b.toNat).setWidth 32).toNat),
          clamp 0 (2 ^ 32 - 1) ((laneIv g a.toNat l).hi.toNat + ((g.regs.rs b.toNat).setWidth 32).toNat), .z, (laneIv g a.toNat l).nan⟩) ∧
      ((laneIv g a.toNat l).tag = .f → let x : W32 := (g.regs.rs b.toNat).setWidth 32
        (isNan x → r l = Iv.top .f) ∧
        (finite x → ¬ isNan (laneIv g a.toNat l).lo → ¬ isNan (laneIv g a.toNat l).hi →
          r l = ⟨f32sub 2 (laneIv g a.toNat l).lo x, f32add 3 (laneIv g a.toNat l).hi x, .f, (laneIv g a.toNat l).nan⟩)))

/-- R101 to R103: the floating-point instructions and conversions of bounds mode are sound in every rounding mode, the packed and the narrow ones among them, the transcendental ones
apart. -/
def Obligations.FloatIntervalsSound : Prop :=
  IntervalOp2 .fadd f32add ∧ IntervalOp2 .fsub f32sub ∧ IntervalOp2 .fmul f32mul ∧ IntervalOp3 .ffma f32fma ∧ IntervalOp2 .fdiv f32div ∧
  IntervalOp1 .fsqrt f32sqrt ∧ IntervalOp1 .frcp f32rcp ∧ IntervalOp2 .fscale f32scale ∧
  IntervalOp2 .fmin (fun _ => f32min) ∧ IntervalOp2 .fmax (fun _ => f32max) ∧ IntervalOp1 .fabs (fun _ => f32abs) ∧ IntervalOp1 .fneg (fun _ => f32neg) ∧
  IntervalOp1 .ffloor (fun _ => f32int 2) ∧ IntervalOp1 .fceil (fun _ => f32int 3) ∧ IntervalOp1 .ftrunc (fun _ => f32int 1) ∧ IntervalOp1 .frint f32int ∧
  IntervalOp2 .fcmpEq (fun _ x y => flag (equalF x y)) ∧ IntervalOp2 .fcmpLt (fun _ x y => flag (lessF x y)) ∧
  IntervalOp2 .fcmpLe (fun _ x y => flag (equalF x y ∨ lessF x y)) ∧ IntervalOp2 .fcmpUn (fun _ x y => flag (isNan x ∨ isNan y)) ∧
  IntervalOp1 .fclass (fun _ x =>
    if isNan x then (if x.getLsbD 22 then 0x200 else 0x100)
    else if x = 0xFF800000 then 0x001 else if x = 0x80000000 then 0x008
    else if x = 0x00000000 then 0x010 else if x = 0x7F800000 then 0x080
    else if x.toNat % 2 ^ 31 < 2 ^ 23 then (if x.msb then 0x004 else 0x020)
    else if x.msb then 0x002 else 0x040) ∧
  IntervalOp1 .cvtFS f32ofS ∧ IntervalOp1 .cvtFZ f32ofZ ∧ IntervalOp1 .cvtSF f32toS ∧ IntervalOp1 .cvtZF f32toZ ∧
  IntervalOp2 .faddB2 (fun rm => pair2 (hAdd bf16 rm)) ∧ IntervalOp2 .fmulB2 (fun rm => pair2 (hMul bf16 rm)) ∧ IntervalOp3 .ffmaB2 (fun rm => pair3 (hFma bf16 rm)) ∧
  IntervalOp2 .faddH2 (fun rm => pair2 (hAdd fp16 rm)) ∧ IntervalOp2 .fmulH2 (fun rm => pair2 (hMul fp16 rm)) ∧ IntervalOp3 .ffmaH2 (fun rm => pair3 (hFma fp16 rm)) ∧
  IntervalOp2 .fmaxB2 (fun _ => pair2 (maxCode bf16)) ∧ IntervalOp2 .fminB2 (fun _ => pair2 (minCode bf16)) ∧
  IntervalOp2 .cvtB2F (packPair bf16) ∧ IntervalOp2 .cvtH2F (packPair fp16) ∧
  (∀ n : F7, IntervalOp1 (fun d a => .cvtFB2 d a n) (fun _ => unpackPair bf16 n.toNat) ∧ IntervalOp1 (fun d a => .cvtFH2 d a n) (fun _ => unpackPair fp16 n.toNat) ∧
    IntervalOp1 (fun d a => .vunpk4 d a n) (fun _ x => if n.toNat ≤ 3 then (x >>> (8 * n.toNat)) &&& 0xFF else (x >>> (4 * (n.toNat - 8))) &&& 0xF)) ∧
  (∀ s u g pc m d a b, Passes s u g pc m (.cvtNF d a b) → g.mode = 1 → (narrowOf ((g.regs.rs b.toNat).setWidth 16)).valid = true →
    ∃ r, BoundsResult (.cvtNF d a b) s u g pc m d.toNat r ∧ ∀ l x, Legit (laneIv g a.toNat l) → Stands (laneIv g a.toNat l) x →
      Legit (r l) ∧ Stands (r l) (BitVec.ofNat 32 ((narrowOf ((g.regs.rs b.toNat).setWidth 16)).enc g.rm (ofW x)))) ∧
  (∀ s u g pc m d a b, Passes s u g pc m (.cvtFN d a b) → g.mode = 1 → (narrowOf ((g.regs.rs b.toNat).setWidth 16)).valid = true →
    ∃ r, BoundsResult (.cvtFN d a b) s u g pc m d.toNat r ∧ ∀ l x, Legit (laneIv g a.toNat l) → Stands (laneIv g a.toNat l) x →
      Legit (r l) ∧ Stands (r l) (toW 0 ((narrowOf ((g.regs.rs b.toNat).setWidth 16)).dec x.toNat))) ∧
  (∀ s u g pc m d a n, Passes s u g pc m (.vpack4 d a n) → g.mode = 1 → ∃ r, BoundsResult (.vpack4 d a n) s u g pc m d.toNat r ∧
    ∀ l z x, Legit (laneIv g d.toNat l) → Legit (laneIv g a.toNat l) → Stands (laneIv g d.toNat l) z → Stands (laneIv g a.toNat l) x → Legit (r l) ∧ Stands (r l)
      (if n.toNat ≤ 3 then (z &&& ~~~((0xFF : W32) <<< (8 * n.toNat))) ||| ((x &&& 0xFF) <<< (8 * n.toNat))
        else (z &&& ~~~((0xF : W32) <<< (4 * (n.toNat - 8)))) ||| ((x &&& 0xF) <<< (4 * (n.toNat - 8)))))

/-! ### System instructions -/

/-- R237, R240, R245: marks, system registers, frames and the words of the handler: the values that they read, write and leave. -/
def Obligations.SystemWords : Prop :=
  (∀ s u g pc m n c, Passes s u g pc m (.mark n) → g.mode ≠ 1 → g.level = .u → s.context? g.part = some c → c.state = .running → ∃ c',
    ContextWritten (.mark n) s u g pc m g.part c c' ∧ { c' with prog := c.prog } = c ∧
    ∀ k, Tab.get 0 c'.prog k = if k = n.toNat then Tab.get 0 c.prog k + 1 else Tab.get 0 c.prog k) ∧
  (∀ s u g pc m n, Passes s u g pc m (.mark n) → g.mode = 1 ∨ g.level ≠ .u →
    Completes (.mark n) s u g pc m (fun g' => g'.regs = g.regs ∧ g'.shadow = g.shadow)) ∧
  (∀ s u g pc m d n c, Passes s u g pc m (.mfsr d n) → s.context? g.part = some c → n.toNat ≤ 5 ∨ 8 ≤ n.toNat → n.toNat < 32 →
    Completes (.mfsr d n) s u g pc m (fun g' => ScalarWritten g g' d.toNat
      (if n = 0 then c.stallchk else if n = 1 then c.atommode else if n = 2 then c.stopmode else if n = 3 then c.cxlo else if n = 4 then c.cxhi
       else if n = 5 then c.cxdly else if n.toNat < 16 then Tab.get 0 c.pmsel (n.toNat - 8) else if n.toNat < 24 then Tab.get 0 c.pmc (n.toNat - 16)
       else Tab.get 0 c.prog (n.toNat - 24)))) ∧
  (∀ s u g pc m d n x, Passes s u g pc m (.mfsr d n) → 32 ≤ n.toNat → n.toNat < 48 → s.part? (n.toNat - 32) = some x → x.frames.length < 2 ^ 32 →
    Completes (.mfsr d n) s u g pc m (fun g' => ScalarWritten g g' d.toNat (BitVec.ofNat 64 x.frames.length))) ∧
  (∀ s u g pc m d n, Passes s u g pc m (.mfsr d n) → n.toNat = 6 ∨ n.toNat = 7 ∨ 48 ≤ n.toNat → exec (.mfsr d n) s = .next (s.takeFault u m (Hard.plain 0x02) false)) ∧
  (∀ s u g pc m n b c, Passes s u g pc m (.mtsr n b) → s.context? g.part = some c → c.state = .running → n.toNat ≤ 5 ∨ 8 ≤ n.toNat → n.toNat < 32 →
    g.regs.rs b.toNat &&& ~~~(sysMask n.toNat) = 0 → ∃ c', ContextWritten (.mtsr n b) s u g pc m g.part c c' ∧
      c'.sysreg n.toNat = some (g.regs.rs b.toNat) ∧ (∀ k, k ≠ n.toNat → c'.sysreg k = c.sysreg k) ∧ c'.state = c.state ∧ c'.streams = c.streams ∧ c'.tids = c.tids) ∧
  (∀ s u g pc m n b, Passes s u g pc m (.mtsr n b) → n.toNat = 6 ∨ n.toNat = 7 ∨ 32 ≤ n.toNat ∨ g.regs.rs b.toNat &&& ~~~(sysMask n.toNat) ≠ 0 →
    exec (.mtsr n b) s = .next (s.takeFault u m (Hard.plain 0x02) false)) ∧
  sysMask 0 = 1 ∧ sysMask 1 = 1 ∧ sysMask 2 = 1 ∧ sysMask 3 = 0x0000FFFFFFFFFFFF ∧ sysMask 5 = 0x8000000000000FFF ∧ sysMask 8 = 0xFF ∧
  (∀ s u g pc m, Passes s u g pc m .halt → ∃ t g', exec .halt s = .next t ∧ t.group? u = some g' ∧ OnlyGroup s t u ∧ g'.halted = true ∧ g'.lanes = g.lanes ∧
    g'.regs = g.regs) ∧
  (∀ s u g pc m a x, Passes s u g pc m (.frpush a) → s.part? ((g.regs.rs a.toNat).toNat % 16) = some x → (g.regs.rs a.toNat).toNat / 16 % 256 = 0 →
    (g.regs.rs a.toNat).toNat / 2 ^ 52 = 0 → Config.isDevice ((g.regs.rs a.toNat).toNat / 4096 * 4096) = true → x.resetting = false →
    (∀ e ∈ s.parts, (g.regs.rs a.toNat).toNat / 4096 * 4096 ∉ e.2.frames) → ∃ t x', exec (.frpush a) s = .next t ∧
      Performed s t u g pc m (fun g' => g'.regs = g.regs) ∧ t.part? ((g.regs.rs a.toNat).toNat % 16) = some x' ∧
      x'.frames = x.frames ++ [(g.regs.rs a.toNat).toNat / 4096 * 4096]) ∧
  (∀ s u g pc m a e, Passes s u g pc m (.frpush a) → e ∈ s.parts → (g.regs.rs a.toNat).toNat / 4096 * 4096 % 2 ^ 52 ∈ e.2.frames →
    exec (.frpush a) s = .next (s.takeFault u m (Hard.plain 0x02) false))

/-- R238, R241 to R244, R262, R292: the management instructions on a partition whose management unit is free. `otinv` of pages that no operation covers clears their PRESENT
bits and writes no other byte; `keyrev` revokes the slot; `ctxstop` begins a stop and retires when it is over; `ctxkill` ends a context without flows; `ctxresume` runs a
stopped one. That `otswap` of absent pages leaves memory unchanged is the model's reading (log entry 73). -/
def Obligations.ManagementWords : Prop :=
  (∀ s u g pc m a b e, Passes s u g pc m (.otinv a b) → Unmanaged s (opPart (g.regs.rs a.toNat)) u → (g.regs.rs a.toNat).toNat / 2 ^ 36 = 0 →
    (s.part? (opPart (g.regs.rs a.toNat))).isSome = true → s.objEntry (s.tbOf (opPart (g.regs.rs a.toNat))) (opObj (g.regs.rs a.toNat)) = .at e →
    e.rangeBad (opOff (g.regs.rs b.toNat)) (opCount (g.regs.rs b.toNat)) = false → s.copies = [] → s.contribs = [] → s.unpub = [] →
    s.snapShort ((s.pageRefs (s.tbOf (opPart (g.regs.rs a.toNat))) e (opOff (g.regs.rs b.toNat)) (opCount (g.regs.rs b.toNat))).flatMap (fun r => (List.range 8).map (fun i => Loc.dev (r.2.entry + i)))) = none →
    Managed (.otinv a b) s u g pc m (fun t => ∀ l, t.rawByte l =
      if (s.pageRefs (s.tbOf (opPart (g.regs.rs a.toNat))) e (opOff (g.regs.rs b.toNat)) (opCount (g.regs.rs b.toNat))).any (fun r => decide (l = .dev r.2.entry))
      then s.rawByte l &&& 0xFE else s.rawByte l)) ∧
  (∀ s u g pc m a b, Passes s u g pc m (.otinv a b) → s.hasOp (.group u) = false →
    (g.regs.rs a.toNat).toNat / 2 ^ 36 ≠ 0 ∨ s.part? (opPart (g.regs.rs a.toNat)) = none → exec (.otinv a b) s = .next (s.takeFault u m (Hard.plain 0x02) false)) ∧
  (∀ s u g pc m a b e, Passes s u g pc m (.otswap a b) → Unmanaged s (opPart (g.regs.rs a.toNat)) u → (g.regs.rs a.toNat).toNat / 2 ^ 36 = 0 →
    (s.part? (opPart (g.regs.rs a.toNat))).isSome = true → s.objEntry (s.tbOf (opPart (g.regs.rs a.toNat))) (opObj (g.regs.rs a.toNat)) = .at e →
    e.rangeBad (opOff (g.regs.rs b.toNat)) (opCount (g.regs.rs b.toNat)) = false → (g.regs.rs (b.toNat + 1)).toNat % e.pageBytes = 0 →
    (g.regs.rs (b.toNat + 1)).toNat + opCount (g.regs.rs b.toNat) * e.pageBytes ≤ 2 ^ 52 → s.copies = [] → s.contribs = [] →
    Managed (.otswap a b) s u g pc m (fun t =>
      ((s.pageRefs (s.tbOf (opPart (g.regs.rs a.toNat))) e (opOff (g.regs.rs b.toNat)) (opCount (g.regs.rs b.toNat))).all (fun r => !r.2.bits.getLsbD 0) = true →
        ∀ l, t.rawByte l = s.rawByte l) ∧
      (∀ r old, MemoryCanonical s → s.pageRefs (s.tbOf (opPart (g.regs.rs a.toNat))) e (opOff (g.regs.rs b.toNat)) (opCount (g.regs.rs b.toNat)) = [(0, r)] →
        r.frames = [(0, old)] → r.bits.getLsbD 0 = true → e.place ≠ plHost → (∀ i, i < 2 ^ 16 → s.readable e.keyslot (.dev (old + i)) = true) →
        let new := (g.regs.rs (b.toNat + 1)).toNat
        (new + 2 ^ 16 ≤ (s.tbOf (opPart (g.regs.rs a.toNat))).s2Base ∨ (s.tbOf (opPart (g.regs.rs a.toNat))).s2Base + 8 * 2 ^ 36 + 2 ^ 17 ≤ new) →
        ∀ i, i < 2 ^ 16 → t.rawByte (.dev (new + i)) = s.rawByte (.dev (old + i))))) ∧
  (∀ s u g pc m a, Passes s u g pc m (.keyrev a) → (g.regs.rs a.toNat).toNat < 64 → Unmanaged s (s.keyPart (g.regs.rs a.toNat).toNat) u → s.copies = [] → s.contribs = [] →
    Managed (.keyrev a) s u g pc m (fun t => (t.keySlot (g.regs.rs a.toNat).toNat).revoked = true ∧
      (∀ k, k ≠ (g.regs.rs a.toNat).toNat → t.keySlot k = s.keySlot k))) ∧
  (∀ s u g pc m a, Passes s u g pc m (.keyrev a) → 64 ≤ (g.regs.rs a.toNat).toNat → exec (.keyrev a) s = .next (s.takeFault u m (Hard.plain 0x02) false)) ∧
  (∀ s u g pc m a c, Passes s u g pc m (.ctxstop a) → (g.regs.rs a.toNat).toNat < 16 → Unmanaged s (g.regs.rs a.toNat).toNat u →
    (s.part? (g.regs.rs a.toNat).toNat).isSome = true → s.context? (g.regs.rs a.toNat).toNat = some c →
    (c.state ≠ .running → c.state ≠ .stopping → Managed (.ctxstop a) s u g pc m (fun t => (t.context? (g.regs.rs a.toNat).toNat).map (·.state) = some c.state)) ∧
    (c.state = .running → ∃ t g', exec (.ctxstop a) s = .next t ∧ t.group? u = some g' ∧ g'.lanes = g.lanes ∧ g'.memHold = some pc ∧
      (t.context? (g.regs.rs a.toNat).toNat).map (·.state) = some .stopping ∧ t.hasOp (.group u) = true)) ∧
  (∀ s u g pc m a c, Passes s u g pc m (.ctxkill a) → (g.regs.rs a.toNat).toNat < 16 → Unmanaged s (g.regs.rs a.toNat).toNat u →
    (s.part? (g.regs.rs a.toNat).toNat).isSome = true → s.context? (g.regs.rs a.toNat).toNat = some c → s.copies = [] → s.contribs = [] → s.launches = [] →
    c.ready = [] → (∀ e ∈ c.streams, e.2.due = []) → Managed (.ctxkill a) s u g pc m (fun t => t.ctxOf (g.regs.rs a.toNat).toNat = none)) ∧
  (∀ s u g pc m a c, Passes s u g pc m (.ctxresume a) → (g.regs.rs a.toNat).toNat < 16 → (g.level = .h ∨ (g.regs.rs a.toNat).toNat = g.part) →
    Unmanaged s (g.regs.rs a.toNat).toNat u → (s.part? (g.regs.rs a.toNat).toNat).isSome = true → s.context? (g.regs.rs a.toNat).toNat = some c →
    (c.state = .stopped ∨ c.state = .halted) → s.secure (g.regs.rs a.toNat).toNat = true →
    s.saved = [] → s.launches = [] → g.fault = none → (∀ e ∈ s.groups, e.1 = u → e.2 = g) →
    ∃ t, exec (.ctxresume a) s = .next t ∧ (t.context? (g.regs.rs a.toNat).toNat).map (·.state) = some .running ∧
      ((∃ e ∈ s.teams, e.2.part = (g.regs.rs a.toNat).toNat ∧ e.2.level = .s) ∨ Tab.get [] s.seeds (g.regs.rs a.toNat).toNat = [] ∨ u < s.nextUid →
        ∃ g', t.group? u = some g' ∧ g'.lanes = mapMask m (fun _ x => { x with pc := nextPc pc }) 0 g.lanes)) ∧
  (∀ s u g pc m a, Passes s u g pc m (.ctxresume a) → g.level = .s → (g.regs.rs a.toNat).toNat % 16 ≠ g.part →
    exec (.ctxresume a) s = .next (s.takeFault u m (Hard.plain 0x06) false))

/-! ### Steps without an encoding -/

/-- R38, R141, R213, R125, R239: results and replies: a variable-latency result ends the wait of its register; a replay performs the word at the head of a retrying log with the
values it recorded; `tmwait`, `svc` and `hcall` lanes go on when their time or reply comes, and the reply is written. R57, R58, R211, R229: what no wait outlives: a group whose
live lanes all wait in rejoin sets is ORPHANED_SET; a barrier phase or a channel wait longer than the watchdog is BARRIER_TIMEOUT or WATCHDOG; a gang that a listed group can no
longer join, or that waits longer than the watchdog, is GANG_ORPHANED in every waiting member. The age 0 of the lanes that go on and the lanes and masks in the records of waits are the model's readings (log entries 110 and 52). -/
def Obligations.WaitsEnd : Prop :=
  (∀ s u g k p, s.group? u = some g → g.pend[k]? = some p → p.why = .result →
    GroupBecomes (.variableLatencyResult u k) s u (fun g' => g' = { g with pend := g.pend.eraseIdx k })) ∧
  (∀ s u g e es, s.group? u = some g → g.log = e :: es → g.retry = true → s.mayRun g = true → s.pf.current ≤ 1 → g.fault = none → g.host = none →
    g.halted = false → exec (.operandLogReplay u) s = .next { s with cur := some ⟨u, e.pc, e.mask, e.word, some (e.regs, e.rm)⟩ }) ∧
  (∀ s u g, s.group? u = some g → Live s g → GroupBecomes (.tmwaitExpiry u) s u (fun g' => { g' with lanes := g.lanes } = g ∧
    ∀ l, l < g.width → l < 64 →
      (∀ d, (g.lane l).state = .park → (g.lane l).park = .tmwait d → d.toNat ≤ s.timebase.toNat → g'.lane l = released (g.lane l)) ∧
      ((∀ d, (g.lane l).state = .park → (g.lane l).park = .tmwait d → s.timebase.toNat < d.toNat) → g'.lane l = g.lane l))) ∧
  (∀ s u g m vd n since vals, s.group? u = some g → Live s g → g.lanes.length = g.width → g.width ≤ 64 → (∃ l, l < g.width ∧ bit m l = true) →
    (∀ l, l < g.width → if bit m l then (g.lane l).state = .park ∧ (∃ xs, (g.lane l).park = .svc vd n xs) ∧ (g.lane l).since = since
      else ¬ ((g.lane l).state = .park ∧ ∃ r k xs, (g.lane l).park = .svc r k xs)) →
    GroupBecomes (.svcReply u vals) s u (fun g' => g'.regs.s = g.regs.s ∧
      (∀ r l, l < 64 → Tab.get 0 g'.regs.v (vkey r l) = if r = vd ∧ l < g.width ∧ bit m l = true then vals.getD l 0 else Tab.get 0 g.regs.v (vkey r l)) ∧
      ∀ l, l < g.width → g'.lane l = if bit m l then released (g.lane l) else g.lane l)) ∧
  (∀ s u g m since a b, s.group? u = some g → g.lanes.length = g.width → g.width ≤ 64 → (∃ l, l < g.width ∧ bit m l = true) →
    (∀ l, l < g.width → if bit m l then (g.lane l).state = .park ∧ (∃ n xs, (g.lane l).park = .hcall n xs) ∧ (g.lane l).since = since
      else ¬ ((g.lane l).state = .park ∧ ∃ n xs, (g.lane l).park = .hcall n xs)) →
    GroupBecomes (.hcallReply u a b) s u (fun g' => g'.regs.v = g.regs.v ∧
      (∀ n, g'.regs.rs n = if n = 63 then b else if n = 62 then a else g.regs.rs n) ∧
      ∀ l, l < g.width → g'.lane l = if bit m l then released (g.lane l) else g.lane l)) ∧
  (∀ s u g, s.group? u = some g → g.log = [] → g.width ≤ 64 → (∃ l, l < g.width ∧ (g.lane l).state = .waitSet) →
    (∀ l, l < g.width → (g.lane l).state = .waitSet ∨ (g.lane l).state = .exit) → g.fault = none → Live s g →
    exec (.orphanedSet u) s = .next (s.takeFault u 0 { Hard.plain 0x28 with lane := some 0xFFFF, extra := g.waitedSets } false)) ∧
  (∀ s n id tm l u us g c, s.team? n = some tm → s.launch? tm.launch = some l → (Tab.get Barrier.zero tm.bars id).arrived = u :: us → s.group? u = some g →
    s.context? g.part = some c → c.state = .running → g.fault = none → l.watchdog ≠ 0 → (Tab.get Barrier.zero tm.bars id).first + l.watchdog ≤ s.watchOf g →
    exec (.barrierTimeout (.team n id)) s =
      .next (s.takeFault u 0 { Hard.plain 0x2A with extra := barExtra id false (us.length + 1) l.groupsPerTeam } true)) ∧
  (∀ s n k unit l u us g c, s.launch? n = some l → (Tab.get Barrier.zero l.lvlBars (levelKey k unit)).arrived = u :: us → s.group? u = some g →
    s.context? g.part = some c → c.state = .running → g.fault = none → l.watchdog ≠ 0 →
    (Tab.get Barrier.zero l.lvlBars (levelKey k unit)).first + l.watchdog ≤ s.watchOf g →
    exec (.barrierTimeout (.level n k unit)) s =
      .next (s.takeFault u 0 { Hard.plain 0x2A with extra := barExtra k true (us.length + 1) (l.groupsIn k) } true)) ∧
  (∀ s u g l c k x q, s.group? u = some g → s.launch? g.launch = some l → s.context? g.part = some c → c.state = .running → g.fault = none → l.watchdog ≠ 0 →
    g.lanes[k]? = some x → x.state = .park → (x.park = .send q ∨ x.park = .recv q) → x.since + l.watchdog ≤ s.watchOf g →
    (∀ j, j < k → (g.lane j).state ≠ .park) →
    exec (.watchdog u) s = .next (s.takeFault u 0 { Hard.plain 0x42 with extra := BitVec.ofNat 64 q } true)) ∧
  (∀ s u g w ws l b, s.latch = w :: ws → w.group = u → s.group? u = some g → s.spanOf u = some (l, b) → g.fault = none →
    (∃ m ∈ gangMembers w.gang, s.memberGroup l b m = none ∨ ∃ v x, s.memberGroup l b m = some (v, x) ∧ x.retired = true) →
    exec (.gangOrphaned u) s =
      .next (s.orphanGang (issuedMask 0 (s.gangWaiters w.cluster w.gang l b)) (present (s.gangWaiters w.cluster w.gang l b))))

/-- R99, R100, R106, R108, R109, R246: the sequencer of the bounds pass: a pass begins once every group of the role stands at the same `bmode`; an evaluation takes the oldest
tiles not evaluated, of one depth; a tile's lane that has issued 4096 words is abandoned; a settled or an element dispatch takes the next block of a tile; a dispatch that is
over leaves its group as before; each fill of a retired tile is performed, and with the last the tile's outcome is 1. -/
def Obligations.BoundsSequencer : Prop :=
  (∀ s u g l b, s.group? u = some g → s.launch? g.launch = some l → s.pass? g.team = none → (s.team? g.team).isSome = true → Startable s g → g.ready99 = true →
    s.roleGroups g.team = [(u, g)] → g.bmode = some b → l.totCap = 0 →
    ∃ t p, exec (.boundsEvaluation u) s = .next t ∧ t.pass? g.team = some p ∧ t.group? u = some g ∧ p.queue = l.tiles ∧ p.next = 0 ∧ p.batch = [] ∧
      p.groups = [u] ∧ p.entry.toNat = b.1.toNat % 2 ^ 48 ∧ p.rowOrg.toNat = b.2.toNat % 2 ^ 32 ∧ p.colOrg.toNat = b.2.toNat / 2 ^ 32) ∧
  (∀ s u g l p, s.group? u = some g → s.launch? g.launch = some l → s.pass? g.team = some p → u ∈ p.groups → Startable s g → p.batch = [] →
    p.next < p.queue.length →
    ∃ t g', exec (.boundsEvaluation u) s = .next t ∧ t.group? u = some g' ∧ (∀ v, v ≠ u → t.group? v = s.group? v) ∧ (∀ a, t.rawByte a = s.rawByte a) ∧
      Dispatched g g' 1 p.entry (fun k => ((p.nextTiles g.width)[k]?).map (fun x => x.lane (p.next + k))) ∧
      t.pass? g.team = some { p with next := p.next + (p.nextTiles g.width).length,
                                     batch := (List.range (p.nextTiles g.width).length).map (p.next + ·) }) ∧
  (∀ s u g d, s.group? u = some g → g.dispatch = some d → d.mode = 1 → 4096 ≤ d.issues → GroupBecomes (.tileIssueLimit u) s u (fun g' =>
    { g' with lanes := g.lanes } = g ∧ ∀ l, l < g.width → l < 64 → if (g.lane l).state = .exit then g'.lane l = g.lane l
      else g'.lane l = { g.lane l with state := .exit, tile := (g.lane l).tile.map (fun t => { t with ended := some .abandoned }) })) ∧
  (∀ s u g p k (x : Tile), s.group? u = some g → s.pass? g.team = some p → u ∈ p.groups → Startable s g →
    (p.queue[k]? = some x ∧ x.outcome = 2 ∧ x.done < x.w / 8 * (x.h / (g.width / 8)) ∧
      (∀ j (y : Tile), j < k → p.queue[j]? = some y → y.outcome = 2 → y.w / 8 * (y.h / (g.width / 8)) ≤ y.done)) →
    ∃ t g', exec (.settledDispatch u) s = .next t ∧ t.group? u = some g' ∧ (∀ v, v ≠ u → t.group? v = s.group? v) ∧ (∀ a, t.rawByte a = s.rawByte a) ∧
      Dispatched g g' 2 p.entry (fun l => some (x.element k x.done g.width l))) ∧
  (∀ s u g p k (x : Tile), s.group? u = some g → s.pass? g.team = some p → u ∈ p.groups → Startable s g →
    (p.queue[k]? = some x ∧ (x.outcome = 4 ∨ x.outcome = 5) ∧ x.done < x.w / 8 * (x.h / (g.width / 8)) ∧
      (∀ j (y : Tile), j < k → p.queue[j]? = some y → (y.outcome = 4 ∨ y.outcome = 5) → y.w / 8 * (y.h / (g.width / 8)) ≤ y.done)) →
    ∃ t g', exec (.elementDispatch u) s = .next t ∧ t.group? u = some g' ∧ (∀ v, v ≠ u → t.group? v = s.group? v) ∧ (∀ a, t.rawByte a = s.rawByte a) ∧
      Dispatched g g' 3 p.entry (fun l => some (x.element k x.done g.width l))) ∧
  (∀ i k width l (x : Tile), (Tile.element i k width l x).row = x.row + k / (x.w / 8) * (width / 8) + l / 8 ∧
    (Tile.element i k width l x).col = x.col + k % (x.w / 8) * 8 + l % 8) ∧
  (∀ s u g p d, s.group? u = some g → s.pass? g.team = some p → u ∈ p.groups → g.dispatch = some d → g.live = 0 → g.log = [] → Live s g →
    (d.mode = 2 → GroupBecomes (.settledDispatch u) s u (fun g' => Restored g g' d)) ∧
    (d.mode = 3 → GroupBecomes (.elementDispatch u) s u (fun g' => Restored g g' d))) ∧
  (∀ s u g l p k ks x f s1 s2, s.group? u = some g → s.launch? g.launch = some l → s.pass? g.team = some p → u ∈ p.groups → Startable s g → p.batch = k :: ks →
    p.queue[k]? = some x → x.fills[x.done]? = some f → (∀ v ∈ p.groups, ∀ h, s.group? v = some h → h.mode ≠ 1) →
    performFill s (s.actor u g) (x.region p f) f = (.ok s1, s2) →
    (x.done + 1 < x.fills.length → exec (.fill u) s = .next (s1.onTile g.team k (fun y => { y with done := y.done + 1 }))) ∧
    (x.done + 1 = x.fills.length → exec (.fill u) s = .next (s1.fillsOver g.team l k 1)))

/-- R120, R122, R132, R74, R233: a flow, the oldest on its claim, and a `tsum` end: their bytes, as they stood at acceptance where nothing has written them since, are written at
their destinations, published to nobody (those of a flow on a connection go out on it, R136), and the token tells the bytes moved, or the plane's entries. R133: an observer to whom
such a write is published reads its byte; one to whom it is not reads that byte or the byte before. R126, R127, R128, R92: a round begins at its start tick; once it has begun and
every contribution is in, its one result, reduced element by element by index, is written at the destination here, with the token; a round that lacks a contribution when its time
is over, or that another device's contribution breaks (the event names such a one by an INDEX that is taken or is none of the header's: the model's own form, log entry 120), is
withdrawn, with token status 3 and no byte moved. The place in order of a flow on a connection is the model's reading of R136 (log entry 118). -/
def Obligations.EngineSteps : Prop :=
  (∀ s op c g, Tab.find s.copies op = some c → c.claim.isSome = true → (∀ e ∈ s.copies, e.1 < op → e.2.team = c.team → e.2.claim ≠ c.claim) → Writable s c.dsts →
    Unmade s op → (∀ q ∈ s.posted, q.op ≠ op) →
    c.seen = [] → c.snap.length = c.dsts.length → (∀ d ∈ c.dsts, d.1 ∉ c.srcs) → s.group? c.group = some g → (∃ p ∈ g.pend, p.why = .op op) →
    ∃ t, exec (.flowEnd op) s = .next t ∧ WritesMade s t op c.dsts c.snap ∧ Token t c.group op c.sd (1 + 256 * c.dsts.length) ∧ Tab.find t.copies op = none) ∧
  (∀ s op c g q, Tab.find s.copies op = some c → c.claim.isSome = true → (∀ e ∈ s.copies, e.1 < op → e.2.team = c.team → e.2.claim ≠ c.claim) → Writable s c.dsts →
    s.posted = [q] → q.op = op →
    c.seen = [] → c.snap.length = c.dsts.length → (∀ d ∈ c.dsts, d.1 ∉ c.srcs) → s.group? c.group = some g → (∃ p ∈ g.pend, p.why = .op op) →
    ∃ t, exec (.flowEnd op) s = .next t ∧ t.posted = [{ q with writes := (c.dsts.zip c.snap).map (fun e => (e.1.1, e.1.2, e.2)) }] ∧
      (∀ l, t.rawByte l = s.rawByte l) ∧ Token t c.group op c.sd (1 + 256 * c.dsts.length) ∧ Tab.find t.copies op = none) ∧
  (∀ s op c e g, Tab.find s.copies op = some c → c.entry = some e → Writable s c.dsts → Unmade s op → c.seen = [] → c.dsts.length = e.planeBytes →
    s.group? c.group = some g → (∃ p ∈ g.pend, p.why = .op op) →
    ∃ t, exec (.tsumEnd op) s = .next t ∧ WritesMade s t op c.dsts ((e.summarise c.snap).flatMap (toBytes 8)) ∧
      Token t c.group op c.sd (1 + 256 * (e.dim 3 * e.dim 2 * e.dim 1 * (e.dim 0 / 64))) ∧ Tab.find t.copies op = none) ∧
  (∀ (s : State) o k l e b, s.unpubAt l = [e] → s.readable k l = true → e.dead = none → e.met = none → e.last = 0 → e.bytes = [b] →
    (∀ n, 0 < n → e.found o = some n → (s.readByte o k l).1 = b) ∧
    (e.found o = none → (s.readByte o k l).1 = s.rawByte l ∨ (s.readByte o k l).1 = b)) ∧
  (∀ (e : Unpub) o, e.found o = if e.conn then e.shown else e.since o) ∧
  (∀ s n r, Tab.find s.rounds n = some r →
    (r.ended = false → r.start.toNat ≤ s.timebase.toNat →
      exec (.roundStart n) s = .next ({ s with rounds := Tab.put s.rounds n { r with begun := true } }.sendContribs n)) ∧
    (s.timebase.toNat < r.start.toNat → exec (.roundStart n) s = .next s)) ∧
  (∀ s n r c g (v : Nat → List W32) remote len, Tab.find s.rounds n = some r → r.ended = false → r.begun = true → s.contribs = [c] → c.round = n → c.sent = true →
    c.index < hNcontrib r.header → (∀ x, s.team? c.team = some x → x.stopped = false) → (remote.map (·.1)).Nodup →
    remote.length + 1 = hNcontrib r.header → (∀ e ∈ remote, e.2 = v e.1 ∧ e.1 ≠ c.index ∧ e.1 < hNcontrib r.header) →
    v c.index = wordsIn len c.snap → c.snap.length = 4 * len → c.dsts.length = 4 * len → (∀ i, i < hNcontrib r.header → (v i).length = len) → c.seen = [] →
    Writable s c.dsts → Unmade s c.op → s.group? c.group = some g → (∃ p ∈ g.pend, p.why = .op c.op) →
    ∃ t, exec (.roundDone n remote) s = .next t ∧ t.contribs = [] ∧ Token t c.group c.op c.sd (1 + 256 * (4 * len)) ∧ Tab.find t.rounds n = none ∧
      WritesMade s t c.op c.dsts ((List.range len).flatMap (fun k =>
        toBytes 4 (reduceWord (hOp r.header) ((List.range (hNcontrib r.header)).map (fun i => (v i).getD k 0))).toNat))) ∧
  (∀ s n r c g remote, Tab.find s.rounds n = some r → r.ended = false → s.contribs = [c] → c.round = n →
    (∃ e ∈ remote, e.1 = c.index ∨ hNcontrib r.header ≤ e.1) → s.group? c.group = some g → (∃ p ∈ g.pend, p.why = .op c.op) →
    ∃ t, exec (.roundDone n remote) s = .next t ∧ t.contribs = [] ∧ Token t c.group c.op c.sd 3 ∧ ∀ l, t.rawByte l = s.rawByte l) ∧
  (∀ x xs, (reduceWord 0 (x :: xs)).toNat = ((x :: xs).map BitVec.toNat).sum % 2 ^ 32) ∧
  (∀ x xs, reduceWord 2 (x :: xs) ∈ x :: xs ∧ ∀ y ∈ x :: xs, y.toInt ≤ (reduceWord 2 (x :: xs)).toInt) ∧
  (∀ s n r c g, Tab.find s.rounds n = some r → r.ended = false → r.begun = true → r.start.toNat + hTimeout r.header ≤ s.timebase.toNat → s.contribs = [c] →
    c.round = n → 1 < hNcontrib r.header → s.group? c.group = some g → (∃ p ∈ g.pend, p.why = .op c.op) →
    ∃ t, exec (.timeout n) s = .next t ∧ t.contribs = [] ∧ Token t c.group c.op c.sd 3 ∧ (Tab.find t.rounds n).map (·.ended) = some true ∧
      ∀ l, t.rawByte l = s.rawByte l)

/-- R226 to R231, R91: a gang of one group is complete with its own `mmx`: its operation is queued with its operands as its word has read them, and the lanes stay parked; a gang
whose members disagree is refused in every member. The oldest operation of a core ends with every accumulator of its block rounded from its k-blocks, the token 1 + 256 * K/32, and
the lanes going on; R96, R230: an operation whose tree root fails its check writes no accumulator and no token, and its group takes SHADOW_MISMATCH. The failing check is State.upset, and the failure of a tree root and the age 0 of the lanes that go on are the model's choices (log entries 17, 120 and 110). -/
def Obligations.MatrixOperations : Prop :=
  (∀ s cl gang w m l b g, s.latch = [w] → w.cluster = cl → w.gang = gang → gangMembers gang = [m] → s.spanOf w.group = some (l, b) →
    s.memberGroup l b m = some (w.group, g) → s.group? w.group = some g → Live s g →
    ∃ t o, exec (.rendezvous cl gang) s = .next t ∧ t.latch = [] ∧ t.groups = s.groups ∧ (∀ x, t.rawByte x = s.rawByte x) ∧
      (∀ n, Tab.find t.mats n = if n = s.nextUid then some o else Tab.find s.mats n) ∧
      o.group = w.group ∧ o.core = g.core ∧ o.zero = w.zero ∧ o.spec = w.spec ∧ o.sd = w.sd ∧ o.mask = w.mask ∧ o.pc = w.pc ∧
      o.aEnt = w.aEnt ∧ o.bEnt = w.bEnt ∧ o.aData = w.aData ∧ o.aScale = w.aScale ∧ o.bData = w.bData ∧ o.bScale = w.bScale) ∧
  (∀ s cl gang ws, s.completeGang cl gang = some ws → (∀ w ∈ ws, ∃ g, s.group? w.group = some g ∧ Live s g) → gangAgrees gang ws = false →
    exec (.rendezvous cl gang) s = .next ((s.dropWaiters ws).refuseGang ws)) ∧
  (∀ s op m g tm, Tab.find s.mats op = some m → (∀ e ∈ s.mats, e.2.core = m.core → op ≤ e.1) → s.group? m.group = some g → Live s g → s.team? m.team = some tm → s.matUpset m = none →
    m.aData.seen = [] → m.aScale.seen = [] → m.bData.seen = [] → m.bScale.seen = [] → m.spoil = [] → spCol0 m.spec + spN m.spec ≤ 512 →
    ∃ t tm' g', exec (.matrixOperationEnd op) s = .next t ∧ t.team? m.team = some tm' ∧ t.group? m.group = some g' ∧ Tab.find t.mats op = none ∧
      (∀ i j, i < spM m.spec → j < spN m.spec → Tab.get 0 tm'.acc (accKey (spRow0 m.spec + i) (spCol0 m.spec + j)) =
        mmxAcc m.zero (Tab.get 0 tm.acc (accKey (spRow0 m.spec + i) (spCol0 m.spec + j)))
          (m.aEnt.rowValues m.aData.snap m.aScale.snap (spARow m.spec + i) (spK0 m.spec) (spK m.spec))
          (m.bEnt.rowValues m.bData.snap m.bScale.snap (spBCol m.spec + j) (spK0 m.spec) (spK m.spec))) ∧
      (∀ k, (∀ i j, i < spM m.spec → j < spN m.spec → k ≠ accKey (spRow0 m.spec + i) (spCol0 m.spec + j)) → Tab.get 0 tm'.acc k = Tab.get 0 tm.acc k) ∧
      g'.regs.rs m.sd = BitVec.ofNat 64 (1 + 256 * (spK m.spec / 32)) ∧ g'.regs.v = g.regs.v ∧
      ∀ l, l < 64 → g'.lane l = if bit m.mask l = true ∧ (g.lane l).state = .park ∧ (g.lane l).pc = m.pc then released (g.lane l) else g.lane l) ∧
  (∀ s op m g tm, Tab.find s.mats op = some m → (∀ e ∈ s.mats, e.2.core = m.core → op ≤ e.1) → s.group? m.group = some g → Live s g → g.fault = none →
    s.team? m.team = some tm → s.upset = [(m.core, 64)] →
    ∃ t tm' g', exec (.matrixOperationEnd op) s = .next t ∧ t.team? m.team = some tm' ∧ t.group? m.group = some g' ∧ Tab.find t.mats op = none ∧ tm'.acc = tm.acc ∧
      g'.regs = g.regs ∧ g'.fault.map (·.cause) = some 0x30 ∧ g'.fault.map (·.fmask) = some m.mask)

/-- R257, R258, R299: a write to a register of a VF, which reaches it when the device is out of reset and the secure state has not ended, or of the PF: an aligned quadword, or
an aligned half of one; any other access is none. A read finds a quadword or an aligned half: 0 where no table lists a register or its fields are of access W, bit 1 in each of
VCAP0 to VCAP4, the counters 0 without a context. R278, R279: the doorbell writes TAIL, ENABLE is set and cleared, and a 1 written to ERROR clears it; nothing else of the
descriptor changes. Reads are State.regRead, which no step performs: the model's choice (log entry 125). -/
def Obligations.RegisterWrites : Prop :=
  (∀ s p x v, s.part? p = some x → x.cut = false → s.pf.ready = true →
    exec (.registerWrite (.vf p) 0x1038 .b8 v) s = .next (s.onPart p (fun x => { x with trCons := v })) ∧
    exec (.registerWrite (.vf p) 0x1018 .b8 v) s = .next (s.onPart p (fun x => { x with dbgLanes := v })) ∧
    exec (.registerWrite (.vf p) 0x1000 .b8 v) s = .next (s.onPart p (fun x => { x with wintab := v &&& 0x00FFFFFFFFFFFFFF })) ∧
    (∀ hi : Bool, ∃ t x', exec (.registerWrite (.vf p) (if hi then 0x103C else 0x1038) .b4 v) s = .next t ∧ t.part? p = some x' ∧
      x'.trCons.toNat = if hi then v.toNat % 2 ^ 32 * 2 ^ 32 + x.trCons.toNat % 2 ^ 32 else x.trCons.toNat / 2 ^ 32 * 2 ^ 32 + v.toNat % 2 ^ 32)) ∧
  (∀ s p x v, s.part? p = some x → x.cut = false → s.pf.ready = true → s.anyEnabled p = false →
    v.toNat % 2 ^ 16 = Config.version → v.toNat / 2 ^ 16 % 2 ^ 16 = Config.version → ∃ t x', exec (.registerWrite (.vf p) 0x1048 .b8 v) s = .next t ∧
      t.part? p = some x' ∧ x'.lrver.toNat = Config.version ∧ x'.pktver.toNat = Config.version) ∧
  (∀ s p x o v, s.part? p = some x → x.cut = true → exec (.registerWrite (.vf p) o .b8 v) s = .next s) ∧
  (∀ s w o v z, z = .b1 ∨ z = .b2 ∨ (z = .b4 ∧ o.toNat % 4 ≠ 0) ∨ (z = .b8 ∧ o.toNat % 8 ≠ 0) → exec (.registerWrite w o z v) s = .next s) ∧
  (∀ s v, s.pf.ready = true → s.pf.mgmt.enable = false → v.toNat / 2 ^ 16 % 2 ^ 16 = Config.version →
    ∃ t, exec (.registerWrite .pf 0x68 .b8 v) s = .next t ∧ t.pf.pktver.toNat = Config.version) ∧
  (∀ (s : State) p x, s.part? p = some x → x.cut = false →
    s.regRead (.vf p) 0x1000 .b8 = some x.wintab ∧ s.regRead (.vf p) 0x1010 .b8 = some (BitVec.ofNat 64 (4 * (x.dbgStat % 4))) ∧
    s.regRead (.vf p) 0x1030 .b8 = some x.trProd ∧ s.regRead (.vf p) 0x1038 .b8 = some x.trCons ∧
    (∀ k, k < 5 → s.regRead (.vf p) (0x1140 + 8 * k) .b8 = some 2) ∧ (∀ o, 0x1168 ≤ o → o % 8 = 0 → s.regRead (.vf p) o .b8 = some 0) ∧
    (∀ i, i < 24 → s.context? p = none → s.regRead (.vf p) ([0x1080, 0x10C0, 0x1100].getD (i / 8) 0 + 8 * (i % 8)) .b8 = some 0)) ∧
  (∀ s : State, (∀ k, k < 5 → s.regRead .pf (0x40 + 8 * k) .b8 = some 2) ∧ s.regRead .pf 0x30 .b8 = some s.pf.mcProd ∧ s.regRead .pf 0x38 .b8 = some s.pf.mcCons ∧
    s.regRead .pf 0x10 .b8 = some (if s.pf.tblock then 1 else 0) ∧ ∀ o, 0xC0 ≤ o → o % 8 = 0 → s.regRead .pf o .b8 = some 0) ∧
  (∀ (s : State) w o v, o % 4 = 0 → s.regRead w (o / 8 * 8) .b8 = some v → ∃ y, s.regRead w o .b4 = some y ∧ y.toNat = v.toNat / 2 ^ (8 * (o % 8)) % 2 ^ 32) ∧
  (∀ s v, s.pf.ready = true → exec (.registerWrite .pf 0x38 .b8 v) s = .next { s with pf := { s.pf with mcCons := v } } ∧
    exec (.registerWrite .pf 0x20 .b8 v) s = .next { s with pf := { s.pf with mcBase := v.setWidth 52 } } ∧
    exec (.registerWrite .pf 0x28 .b8 v) s = .next { s with pf := { s.pf with mcLog2 := v.setWidth 5 } }) ∧
  (∀ s r d v, StreamAt s r d → StreamWritten (.doorbell r v) s r { d with tail := v }) ∧
  (∀ s r d, StreamAt s r d → StreamWritten (.enableSet r) s r { d with enable := true }) ∧
  (∀ s r d, StreamAt s r d → StreamWritten (.enableClear r) s r { d with enable := false }) ∧
  (∀ s r d, StreamAt s r d → StreamWritten (.errorClear r) s r { d with error := false })

/-- R278, R279, R281, R282, R350: a bad header or version rejects the packet; SEMWAIT becomes current, and ends at a load of at least its value; SEMSIGNAL stores; FLUSH
completes the posted writes of the stream's earlier teams and publishes at SYSTEM; CAPWRITE writes 16 bytes and their tag. A packet that ends is passed by HEAD. FLUSH waiting for a flow that holds a posted write back is the model's reading (log entry 118). -/
def Obligations.StreamPackets : Prop :=
  (∀ s p n x d h r adv, s.part? p = some x → s.stream (.user p n) = some d → d.due = [] → s.sfeOpen p d = true → s.sfeStart p x.pktver d = .bad h r adv →
    ∀ i ∈ [Instr.launch p n, .tlaunch p n, .semwait p n, .semsignal p n, .flush p n, .capwrite p n], exec i s = .next (s.packetEnd p n h adv 2 r 0)) ∧
  (∀ s p n x d h ws, PacketAt s p n x d h ws → hType h = 3 → (bodyWord ws 1).toNat < 2 ^ 32 → (bodyWord ws 2).toNat < 2 ^ 40 → (bodyWord ws 2).toNat % 8 = 0 →
    ∃ t, exec (.semwait p n) s = .next t ∧ t.stream (.user p n) = some { d with step := 3, busy := true } ∧ ∀ l, t.rawByte l = s.rawByte l) ∧
  (∀ s p n d h ws tr s1, PacketOn s p n 3 d h ws →
    s.sfeWalk p ((bodyWord ws 1).toNat % 2 ^ 32) ((bodyWord ws 2).toNat % 2 ^ 40) 8 .load = (.ok tr, s1) → s1.unpub = [] → s1.posted = [] →
    (∀ k, k < 8 → s1.readable tr.slot (tr.loc.add k) = true) →
    (ofBytes (bytesAt s1.rawByte tr.loc 8) < (bodyWord ws 3).toNat → exec (.semwaitLoad p n) s = .next s1) ∧
    ((bodyWord ws 3).toNat ≤ ofBytes (bytesAt s1.rawByte tr.loc 8) → exec (.semwaitLoad p n) s = .next (s1.packetEnd p n h (hLen h) 1 0 0))) ∧
  (∀ s p n x d h ws tr s1, PacketAt s p n x d h ws → hType h = 4 → hComplete h = false → (bodyWord ws 1).toNat < 2 ^ 32 → (bodyWord ws 2).toNat < 2 ^ 40 →
    (bodyWord ws 2).toNat % 8 = 0 → s.sfeWalk p (bodyWord ws 1).toNat (bodyWord ws 2).toNat 8 .store = (.ok tr, s1) →
    s1.stream (.user p n) = some d → Ordinary s1 8 [(⟨0, 0⟩, tr)] →
    ∃ t, exec (.semsignal p n) s = .next t ∧ PacketOver t p n d h ∧
      ∀ l, t.rawByte l = storeTo s1.rawByte tr.loc (toBytes 8 (bodyWord ws 3).toNat) l) ∧
  (∀ s p n x d h ws, PacketAt s p n x d h ws → hType h = 5 → hComplete h = false → s.posted = [] →
    ∃ t, exec (.flush p n) s = .next t ∧ PacketOver t p n d h ∧ (∀ l, t.rawByte l = s.rawByte l) ∧
      Published (fun op => s.unpub.any (fun e => decide (e.team ∈ d.past ∧ e.op = op))) 7 (s.place + 1) s.unpub t.unpub) ∧
  (∀ s p n x d h ws, PacketAt s p n x d h ws → hType h = 5 → hComplete h = false →
    (s.stuck (fun q => d.past.contains q.team) = false → ∃ t, exec (.flush p n) s = .next t ∧ PacketOver t p n d h ∧ ∀ q ∈ t.posted, q.team ∉ d.past) ∧
    (s.stuck (fun q => d.past.contains q.team) = true → exec (.flush p n) s = .next (s.starvePosted (fun q => d.past.contains q.team)) ∧
      (s.shortFor (dueFor (fun q => d.past.contains q.team) s.posted) = false → exec (.flush p n) s = .next s))) ∧
  (∀ s p n x d h ws tr s1 e, PacketAt s p n x d h ws → hType h = 6 → hComplete h = false → (bodyWord ws 1).toNat < 2 ^ 32 → (bodyWord ws 2).toNat < 2 ^ 40 →
    (bodyWord ws 2).toNat % 16 = 0 → s.capValid p ⟨bodyWord ws 4 ++ bodyWord ws 3, true⟩ = .ok → s.objEntry (s.tbOf p) (bodyWord ws 1).toNat = .at e →
    s.keepsTags e = true → s.sfeWalk p (bodyWord ws 1).toNat (bodyWord ws 2).toNat 16 .cst = (.ok tr, s1) →
    s1.stream (.user p n) = some d → Ordinary s1 16 [(⟨0, 0⟩, tr)] → (∃ a, tr.loc = .dev a) ∨ (∃ v i o, tr.loc = .peer v i o) →
    ∃ t, exec (.capwrite p n) s = .next t ∧ PacketOver t p n d h ∧ t.tagAt tr.loc = true ∧
      ∀ l, t.rawByte l = storeTo s1.rawByte tr.loc (toBytes 8 (bodyWord ws 3).toNat ++ toBytes 8 (bodyWord ws 4).toNat) l)

/-- R282, R286 to R288, R290, R27, R30, R65, R43: a launch whose record passes every check of R288 becomes ready, a TLAUNCH waits for its tick; the next launch is placed with
its teams, groups, lanes and registers at their starting values; a launch whose teams have retired retires, with its packet. -/
def Obligations.Launches : Prop :=
  (∀ s p n x d h ws c k, PacketAt s p n x d h ws → hType h = 1 → s.context? p = some c → firstCheck (s.launchChecks p x (Launch.ofRecord (recordOf ws))) = (k, .ok) →
    ∃ t c' r, exec (.launch p n) s = .next t ∧ t.context? p = some c' ∧ c'.ready = c.ready ++ [r] ∧ r.record = recordOf ws ∧ r.stream = n ∧
      r.tag.toNat = h.toNat / 2 ^ 48 ∧ t.stream (.user p n) = some { d with step := 1, busy := true } ∧ ∀ l, t.rawByte l = s.rawByte l) ∧
  (∀ s p n x d h ws c k, PacketAt s p n x d h ws → hType h = 2 → s.context? p = some c →
    firstCheck (s.launchChecks p x (Launch.ofRecord (recordOf ws.tail))) = (k, .ok) →
    ∃ t c' r, exec (.tlaunch p n) s = .next t ∧ t.context? p = some c' ∧ c'.ready = c.ready ++ [r] ∧ r.record = recordOf ws.tail ∧ r.stream = n ∧
      r.tick = ws.headD 0 ∧ t.stream (.user p n) = some { d with step := 2, busy := true } ∧ ∀ l, t.rawByte l = s.rawByte l) ∧
  (∀ s p n x d h ws r a, PacketAt s p n x d h ws → hType h = 1 → firstCheck (s.launchChecks p x (Launch.ofRecord (recordOf ws))) = (r, .fail) → a = hLen h →
    exec (.launch p n) s = .next (s.packetEnd p n h a 2 r 0)) ∧
  (∀ s p n d c r, s.stream (.user p n) = some d → s.context? p = some c → c.state = .running → s.pf.current ≤ 1 → d.step = 2 → r ∈ c.ready → r.stream = n →
    r.tick.toNat ≤ s.timebase.toNat →
    ∃ t, exec (.tlaunchTick p n) s = .next t ∧ t.stream (.user p n) = some { d with step := 1, busy := true } ∧ ∀ l, t.rawByte l = s.rawByte l) ∧
  (∀ s p cores x a c r ps, s.part? p = some x → s.ctxOf p = some a → s.context? p = some c → c.state = .running → s.pf.current ≤ 1 → s.nextLaunch a c = some r →
    s.snapClash a (Launch.ofRecord r.record) = false → s.seatOn p x (Launch.ofRecord r.record) cores = some ps →
    ∃ t n l, exec (.placement p cores) s = .next t ∧ t.launch? n = some l ∧ l.record = r.record ∧ l.part = p ∧ l.ctx = a ∧ l.stream = r.stream ∧
      (∀ y ∈ c.ready, y.age ≠ r.age → ∃ c', t.context? p = some c' ∧ y ∈ c'.ready) ∧ (∀ b, t.rawByte b = s.rawByte b ∨ ∃ m o, b = .team m o ∨ b = .wbuf m o) ∧
      ∀ q ∈ ps, ∃ m tm, t.team? m = some tm ∧ tm.tid = q.tid ∧ tm.core = q.core ∧ tm.launch = n ∧ tm.tmBytes = 1024 * l.tmKib ∧ tm.wbBytes = 65536 * l.wbuf64 ∧
        tm.tmem = [] ∧ tm.claims = [] ∧ tm.bars = [] ∧
        ∀ k o, l.groupSpecs[k]? = some o → ∃ v g, t.group? v = some g ∧ g.team = m ∧ g.gid = k ∧ g.level = .u ∧ g.width = o.width ∧ g.role = o.role ∧ g.core = q.core ∧
          (∀ i, i < o.width → (g.lane i).state = .run ∧ (g.lane i).pc.toNat = l.entryPc ∧ (g.lane i).prio = l.entryPrio ∧ (g.lane i).stack = []) ∧
          (∀ i, g.regs.rs i = 0 ∧ g.regs.rg i = 0) ∧ (∀ i j, g.regs.rv i j = 0) ∧ g.regs.rc 27 = ⟨l.argCap.bits, true⟩ ∧
          g.regs.rc 29 = ⟨capBits l.codeCap.obj (rR + rX) kCode l.codeCap.base l.codeCap.length, true⟩ ∧
          g.regs.rc 31 = ⟨capBits l.stackCap.obj (rR + rW + rS + rL) kMem (l.stackCap.base + (q.tid * l.groupSpecs.length + k) * l.stackz) l.stackz, true⟩) ∧
  (∀ s n l c d, s.launch? n = some l → s.ctxOf l.part = some l.ctx → s.context? l.part = some c → c.state = .running → s.stream (.user l.part l.stream) = some d →
    (∀ e ∈ s.copies, e.2.launch ≠ n) → (∀ e ∈ s.contribs, e.launch ≠ n) → (∀ e ∈ s.mats, e.2.launch ≠ n) → (∀ e ∈ s.teams, e.2.launch = n → e.2.retired = true) →
    ∃ t, exec (.launchRetirement n) s = .next t ∧ t.launch? n = none ∧ (∀ e ∈ t.teams, e.2.launch ≠ n) ∧ (∀ e ∈ t.groups, e.2.launch ≠ n) ∧
      PacketOver t l.part l.stream d l.header ∧
      (l.complete = false → Published (fun op => s.unpub.any (fun e => decide (e.op = op) && s.teams.any (fun q => decide (q.2.launch = n ∧ q.1 = e.team)))) 5
        (s.place + 1) s.unpub t.unpub))

/-- R238, R241 to R245, R262, R280, R283, R284, R322, R350: the packets of the management stream; a bad header rejects any of them, and before READY a packet is refused (R343). REFUSED before READY for a good packet and the absent pages of OTSWAP are the model's readings (log entries 80 and 73). -/
def Obligations.ManagementPackets : Prop :=
  (∀ s m, s.pf.mgmt.enable = true → s.pf.mgmt.due = [] → s.pf.mgmt.room = true → s.mgmtRing = [m] → s.pf.pkts = [] → s.pf.ready = false →
    m.bad = true ∨ hType (m.words.headD 0) = 0x81 → exec .ctxstopPacket s = .next (s.pktEnd m 5 0)) ∧
  (∀ s m, s.pf.mgmt.enable = true → s.pf.current ≤ 1 → s.pf.ready = true → s.pf.mgmt.due = [] → s.pf.mgmt.room = true → s.mgmtRing = [m] → s.pf.pkts = [] →
    m.bad = true → ∀ i ∈ [Instr.ctxstopPacket, .ctxresumePacket, .ctxkillPacket, .otinvPacket, .otswapPacket, .keyrevPacket, .frames, .create, .destroy, .keyload, .keyfree],
      exec i s = .next (s.pktEnd m 2 14)) ∧
  (∀ s m c, MgmtPacket s 0x81 m → (m.q 1).toNat < 16 → Idle s (m.q 1).toNat m → s.context? (m.q 1).toNat = some c → c.state = .running →
    ∃ t, exec .ctxstopPacket s = .next t ∧ (t.context? (m.q 1).toNat).map (·.state) = some .stopping) ∧
  (∀ s m c, MgmtPacket s 0x82 m → (m.q 1).toNat < 16 → Idle s (m.q 1).toNat m → s.context? (m.q 1).toNat = some c → (c.state = .stopped ∨ c.state = .halted) →
    s.secure (m.q 1).toNat = true → s.saved = [] → s.launches = [] →
    ∃ t, exec .ctxresumePacket s = .next t ∧ (t.context? (m.q 1).toNat).map (·.state) = some .running) ∧
  (∀ s m c, MgmtPacket s 0x83 m → (m.q 1).toNat < 16 → Idle s (m.q 1).toNat m → s.context? (m.q 1).toNat = some c → s.copies = [] → s.contribs = [] → s.launches = [] →
    c.ready = [] → (∀ e ∈ c.streams, e.2.due = []) → ∃ t, exec .ctxkillPacket s = .next t ∧ t.ctxOf (m.q 1).toNat = none) ∧
  (∀ s m e, MgmtPacket s 0x84 m → silent m → (m.q 1).toNat < 2 ^ 36 → Idle s (opPart (m.q 1)) m → s.objEntry (s.tbOf (opPart (m.q 1))) (opObj (m.q 1)) = .at e →
    e.rangeBad (opOff (m.q 2)) (opCount (m.q 2)) = false → s.copies = [] → s.contribs = [] → s.unpub = [] →
    s.snapShort ((s.pageRefs (s.tbOf (opPart (m.q 1))) e (opOff (m.q 2)) (opCount (m.q 2))).flatMap (fun r => (List.range 8).map (fun i => Loc.dev (r.2.entry + i)))) = none →
    ∃ t, exec .otinvPacket s = .next t ∧ ∀ l, t.rawByte l =
      if (s.pageRefs (s.tbOf (opPart (m.q 1))) e (opOff (m.q 2)) (opCount (m.q 2))).any (fun r => decide (l = .dev r.2.entry)) then s.rawByte l &&& 0xFE
      else s.rawByte l) ∧
  (∀ s m e, MgmtPacket s 0x85 m → silent m → (m.q 1).toNat < 2 ^ 36 → Idle s (opPart (m.q 1)) m → s.objEntry (s.tbOf (opPart (m.q 1))) (opObj (m.q 1)) = .at e →
    e.rangeBad (opOff (m.q 2)) (opCount (m.q 2)) = false → (m.q 3).toNat % e.pageBytes = 0 → (m.q 3).toNat + opCount (m.q 2) * e.pageBytes ≤ 2 ^ 52 →
    s.copies = [] → s.contribs = [] → ∃ t, exec .otswapPacket s = .next t ∧
      ((s.pageRefs (s.tbOf (opPart (m.q 1))) e (opOff (m.q 2)) (opCount (m.q 2))).all (fun r => !r.2.bits.getLsbD 0) = true → ∀ l, t.rawByte l = s.rawByte l) ∧
      (∀ r old, MemoryCanonical s → s.pageRefs (s.tbOf (opPart (m.q 1))) e (opOff (m.q 2)) (opCount (m.q 2)) = [(0, r)] → r.frames = [(0, old)] →
        r.bits.getLsbD 0 = true → e.place ≠ plHost → (∀ i, i < 2 ^ 16 → s.readable e.keyslot (.dev (old + i)) = true) →
        ((m.q 3).toNat + 2 ^ 16 ≤ (s.tbOf (opPart (m.q 1))).s2Base ∨ (s.tbOf (opPart (m.q 1))).s2Base + 8 * 2 ^ 36 + 2 ^ 17 ≤ (m.q 3).toNat) →
        ∀ i, i < 2 ^ 16 → t.rawByte (.dev ((m.q 3).toNat + i)) = s.rawByte (.dev (old + i)))) ∧
  (∀ s m, MgmtPacket s 0x86 m → (m.q 1).toNat < 64 → s.opBusy (s.keyPart (m.q 1).toNat) = false → s.hasOp (.packet m.pos) = false → s.copies = [] → s.contribs = [] →
    ∃ t, exec .keyrevPacket s = .next t ∧ (t.keySlot (m.q 1).toNat).revoked = true ∧ ∀ k, k ≠ (m.q 1).toNat → t.keySlot k = s.keySlot k) ∧
  (∀ s m p x, MgmtPacket s 0x87 m → 1 ≤ (m.q 1).toNat → (m.q 1).toNat ≤ 62 → s.part? p = some x →
    (∀ f ∈ m.words.drop 2, s.frameBad f = false ∧ operPart f = p) → ((m.words.drop 2).map frameAddr).Nodup →
    ∃ t x', exec .frames s = .next t ∧ t.part? p = some x' ∧ x'.frames = x.frames ++ (m.words.drop 2).map frameAddr) ∧
  (∀ s m, MgmtPacket s 0x88 m → cfgOp (m.q 1) = 0 → (m.q 1).toNat / 2 ^ 22 % 2 ^ 10 = 0 → (m.q 1).toNat / 2 ^ 50 = 0 → (m.q 2).toNat / 2 ^ 17 = 0 → cfgLog2n (m.q 1) ≤ 4 →
    cfgPart (m.q 1) % cfgUnits (m.q 1) = 0 → s.cfgMeets (m.q 1) = [] → s.strictSum + (m.q 2).toNat % 2 ^ 16 ≤ 65536 → (∀ e ∈ s.parts, e.2.hpart = false) →
    ∃ t x, exec .create s = .next t ∧ t.part? (cfgPart (m.q 1)) = some x ∧ x.units = 2 ^ cfgLog2n (m.q 1) ∧ x.hpart = cfgHpart (m.q 1) ∧ x.ports = cfgPorts (m.q 1) ∧
      x.ctx = none ∧ x.frames = [] ∧ x.tdi = .configUnlocked ∧ x.spdm = false) ∧
  (∀ s m x, MgmtPacket s 0x88 m → cfgOp (m.q 1) = 1 → (m.q 1).toNat / 2 ^ 22 % 2 ^ 10 = 0 → (m.q 1).toNat / 2 ^ 50 = 0 → (m.q 2).toNat / 2 ^ 17 = 0 →
    s.part? (cfgPart (m.q 1)) = some x → x.ctx = none → s.copies = [] → s.mgmtOps = [⟨cfgPart (m.q 1), mkReset, 0, 1, 0, .packet m.pos, []⟩] →
    ∃ t, exec .destroy s = .next t ∧ t.part? (cfgPart (m.q 1)) = none) ∧
  (∀ s m, MgmtPacket s 0x88 m → cfgOp (m.q 1) = 2 → (m.q 1).toNat / 2 ^ 22 % 2 ^ 10 = 0 → (m.q 1).toNat / 2 ^ 50 = 0 → (m.q 2).toNat / 2 ^ 17 = 0 →
    (s.part? (cfgPart (m.q 1))).isSome = true → (s.keySlot (cfgSlot (m.q 1))).part = none → (s.keySlot (cfgSlot (m.q 1))).gen < 1023 →
    ∃ t, exec .keyload s = .next t ∧ t.keySlot (cfgSlot (m.q 1)) = ⟨some (cfgPart (m.q 1)), (s.keySlot (cfgSlot (m.q 1))).gen + 1, false, m.key⟩ ∧
      (∀ k, k ≠ cfgSlot (m.q 1) → t.keySlot k = s.keySlot k)) ∧
  (∀ s m, MgmtPacket s 0x88 m → cfgOp (m.q 1) = 3 → (m.q 1).toNat / 2 ^ 22 % 2 ^ 10 = 0 → (m.q 1).toNat / 2 ^ 50 = 0 → (m.q 2).toNat / 2 ^ 17 = 0 →
    s.slotUsed (cfgSlot (m.q 1)) = false → ∃ t, exec .keyfree s = .next t ∧ (t.keySlot (cfgSlot (m.q 1))).part = none ∧ (t.keySlot (cfgSlot (m.q 1))).key = 0 ∧
      (t.keySlot (cfgSlot (m.q 1))).gen = (s.keySlot (cfgSlot (m.q 1))).gen)

/-- R270 to R272, R276, R277, R76, R220: the service queue takes a soft-fault record or a hotness record and its PRODUCER rises; a record
whose queue is full does not hold back one whose queue has room; RESOLVE clears the posted pages, and every
deferred group retries; HOTCLR restarts the counter of a token; the residency manager declines a demotion for which it finds no space, and starts one for which it does. The extents that the residency manager finds stand in the event, and the order of its requests and what RESOLVE clears are the model's choices (log entries 27, 28 and 87). -/
def Obligations.ServiceQueue : Prop :=
  (∀ s p x r rs, s.part? p = some x → x.softQ = r :: rs → r.q0.getLsbD 8 = false → s.svcRoom p = true → s.svcShort p = false → r.q0.toNat / 2 ^ 16 % 2 ^ 16 = 0 →
    let a := (s.tbOf p).sqBase + 64 + 32 * ((s.svcProd p).toNat % (s.tbOf p).sqSize)
    ∃ t x', exec (.softfault p) s = .next t ∧ t.part? p = some x' ∧ x'.softQ = rs ∧ x'.softOut = x.softOut ∧ t.svcProd p = s.svcProd p + 1 ∧
      t.dev64 a = BitVec.ofNat 64 (r.q0.toNat + s.deferred p r.page * 2 ^ 16) ∧ t.dev64 (a + 8) = r.q1 ∧ t.dev64 (a + 16) = r.q2 ∧ t.dev64 (a + 24) = s.timebase) ∧
  (∀ s p x r r' rs, s.part? p = some x → x.softQ = r :: r' :: rs → s.svcOpen p r = false → s.svcOpen p r' = true → (∀ q, s.svcShort q = false) →
    ∃ t x', exec (.softfault p) s = .next t ∧ t.part? p = some x' ∧ x'.softQ = (r :: r' :: rs).erase r') ∧
  (∀ s p x, s.part? p = some x → ∃ t x', exec (.resolve p) s = .next t ∧ t.part? p = some x' ∧ x'.softOut = x.softQ.map SvcRec.page ∧
    (∀ u g, s.group? u = some g → ∃ g', t.group? u = some g' ∧ g' = if g.part = p then { g with retry := g.retry || !g.log.isEmpty, fetchHeld := false } else g) ∧
    ∀ l, t.rawByte l = s.rawByte l) ∧
  (∀ s p x r rs o off, s.part? p = some x → x.hotQ = r :: rs → s.svcRoom p = true → s.svcShort p = false → s.blockNames p r.q1.toNat = [(o, off)] →
    let a := (s.tbOf p).sqBase + 64 + 32 * ((s.svcProd p).toNat % (s.tbOf p).sqSize)
    ∃ t x', exec (.hotness p) s = .next t ∧ t.part? p = some x' ∧ x'.hotQ = rs ∧ t.svcProd p = s.svcProd p + 1 ∧
      t.dev64 a = BitVec.ofNat 64 (2 + o * 2 ^ 32) ∧ t.dev64 (a + 8) = BitVec.ofNat 64 off ∧ t.dev64 (a + 16) = r.q2) ∧
  (∀ s p x k, s.part? p = some x → ∃ t x', exec (.hotclr p k) s = .next t ∧ t.part? p = some x' ∧
    ∀ n c, Tab.find x.hot n = some c → ∃ c', Tab.find x'.hot n = some c' ∧
      (if n % 8192 = k.toNat % 8192 ∧ c.gen = k.toNat / 8192 then c'.count = 0 ∧ c'.sat = false ∧ c'.gen = c.gen else c' = c)) ∧
  (∀ s p x r rs as, s.part? p = some x → x.resid = r :: rs → r.started = false → r.own = false →
    (s.tensor p r.tid = none ∨ (∃ e, s.tensor p r.tid = some e ∧ s.movable p e = false) ∨ (as = [] ∧ r.vault = none) ∨
      (∃ v, as = [] ∧ r.vault = some v ∧ ∀ k ∈ s.inVault p v x, k ≠ r.tid → k ∉ r.tried → s.priority p r.tid ≤ s.priority p k)) →
    ∃ t x', exec (.residencyMove p as) s = .next t ∧ t.part? p = some x' ∧ x'.resid = rs ∧ r.tid ∈ x'.declined) ∧
  (∀ s p x r rs e v k, s.part? p = some x → x.resid = r :: rs → r.started = false → r.vault = some v → s.tensor p r.tid = some e → s.movable p e = true →
    k ∈ s.inVault p v x → k ≠ r.tid → k ∉ r.tried → s.priority p k < s.priority p r.tid →
    ∃ t x' q, exec (.residencyMove p []) s = .next t ∧ t.part? p = some x' ∧ x'.resid = q :: r :: rs ∧ q.vault = none ∧ q.started = false ∧ q.own = true ∧
      q.tid ∈ s.inVault p v x ∧ q.tid ≠ r.tid ∧ q.tid ∉ r.tried ∧ s.priority p q.tid < s.priority p r.tid ∧
      ∀ j ∈ s.inVault p v x, j ≠ r.tid → j ∉ r.tried → s.priority p q.tid ≤ s.priority p j) ∧
  (∀ s p x r rs e as, s.part? p = some x → x.resid = r :: rs → r.started = false → s.tensor p r.tid = some e → s.movable p e = true → as ≠ [] →
    s.opBusy p = false → extentsFit p x r.vault (s.unitPages p e) as = true →
    ∃ t x', exec (.residencyMove p as) s = .next t ∧ t.part? p = some x' ∧ x'.resid = { r with started := true } :: rs ∧
      (∀ m ∈ t.mgmtOps, m.part = p → m.owner = .resid r.tid ∧ m.kind = mkSwap) ∧ ∀ l, t.rawByte l = s.rawByte l)

/-- R293, R302, R306, R307, R310, R314: an engine of a stopping context that may stop saves and acknowledges, and with the last the context is STOPPED or HALTED; the handler's
activation writes the event's bytes to its team's memory, and their code and number to s0 and s1; a failed SNAPSHOT launch has its pages restored and waits again. The age 0 of the lanes that go on is the model's reading (log entry 110). -/
def Obligations.StopsAndRecovery : Prop :=
  (∀ s p c e k s2 s3, s.context? p = some c → c.state = .stopping → (e, k) ∈ s.stopNeeds p → (e, k) ∉ c.acks → s.mayAck p (e, k) = true →
    (s.ackEffect p c (e, k)).save p (engineNo (e, k)) ((s.ackEffect p c (e, k)).engineRecords p c (e, k)) = (some s2, s3) →
    exec (.engineStop p e k) s = .next ((s2.onContext p (fun c => { c with acks := c.acks ++ [(e, k)] })).checkStop p)) ∧
  (∀ (s : State) p a c, s.ctxOf p = some a → s.context? p = some c → c.state = .stopping → (∀ e ∈ s.stopNeeds p, e ∈ c.acks) → (∀ e ∈ s.ctxLaunches p, e.2.restarts = false) →
    ((s.checkStop p).context? p).map (·.state) = some (if c.halting then .halted else .stopped)) ∧
  (∀ s p x u e es g tm, s.part? p = some x → s.handlerOf p = some u → x.events = e :: es → s.handlerFree u = true → s.group? u = some g → s.team? g.team = some tm →
    g.width ≤ 64 → g.lanes.length = g.width →
    ∃ t x' g', exec (.activation p) s = .next t ∧ t.part? p = some x' ∧ x'.events = es ∧ t.group? u = some g' ∧ g'.regs.rs 0 = e.code.setWidth 64 ∧
      g'.regs.rs 1 = BitVec.ofNat 64 (min tm.tmBytes e.bytes.length) ∧ (∀ l, l < g.width → g'.lane l = if (g.lane l).state = .park then released (g.lane l) else g.lane l) ∧
      ∀ l, t.rawByte l = storeTo s.rawByte (.team g.team 0) (e.bytes.take tm.tmBytes) l) ∧
  (∀ s n l c pg, s.launch? n = some l → s.context? l.part = some c → s.ctxOf l.part = some l.ctx → c.state = .halted → l.failing ≠ 0 → l.recovery = rcSnapshot →
    s.secure l.part = false → l.snaps = [pg] → pg.host = false → pg.frames ≠ [] → Tab.wf 0 pg.cells = true →
    ∃ t c' r, exec (.snapshotRollback n) s = .next t ∧ t.launch? n = none ∧ (∀ e ∈ t.groups, e.2.launch ≠ n) ∧ t.context? l.part = some c' ∧
      r ∈ c'.ready ∧ r.record = l.record ∧ r.replays = l.replays + 1 ∧
      ∀ a, pg.base ≤ a → a < pg.base + pg.size → (∀ e ∈ pg.cells, pg.base ≤ e.1 ∧ e.1 < pg.base + pg.size) → t.rawByte (.dev a) = Tab.get 0 pg.cells a) ∧
  (∀ s n l c, s.launch? n = some l → s.context? l.part = some c → s.ctxOf l.part = some l.ctx → c.state = .halted → l.failing ≠ 0 → l.recovery = rcSnapshot →
    s.secure l.part = true → (∀ f, c.first = some f → s.deviceFirst l.part f = true) → (∀ e ∈ s.launches, e.1 ≠ n → e.2.failing = 0) → (s.launches.map (·.1)).Nodup →
    ∃ t c' r, exec (.snapshotRollback n) s = .next t ∧ (∀ e ∈ t.groups, e.2.launch ≠ n) ∧ t.context? l.part = some c' ∧ c'.state = .running ∧ c'.first = none ∧
      r ∈ c'.ready ∧ r.record = l.record ∧ r.replays = l.replays + 1)

/-- R319 to R322, R16, R260, R324 to R327, R332, R333, R277: what comes from outside: a read, a write or an atomic of the host or of a peer of the coherence domain on the
partition's memory, zeros where no slot of the partition's decrypts it; a write of the host to its own; a read or write of a window's holder in what the window names; the host's
answers to an atomic; the end of the secure state halts the partition with HOSTIF_SECURITY; a window is
closed. The machine map of the vaults, the stamp of writes from outside, the moment of a HOSTIO atomic, the end of the service teams at a reset, the saturation of GEN, the reset of a PF and the TDI's moves are the model's choices (log entries 3, 30, 43, 77, 95, 100 and 101). -/
def Obligations.OutsideAccesses : Prop :=
  (∀ s p a w d, s.takesRequests = true → p ≠ 16 → s.hostCut p = false → s.inPart p a.toNat (sizeBytes w) = true → OutsideOpen s a.toNat (sizeBytes w) →
    ∃ t, exec (.hostAccess p .write a w d) s = .next t ∧ ∀ l, t.rawByte l = storeTo s.rawByte (.dev a.toNat) (toBytes (sizeBytes w) d.toNat) l) ∧
  (∀ s p a w d, s.takesRequests = true → p ≠ 16 → s.hostCut p = false → s.inPart p a.toNat (sizeBytes w) = true → s.unpub = [] →
    ∃ t, exec (.hostAccess p .read a w d) s = .next t ∧ (∀ l, t.rawByte l = s.rawByte l) ∧
      ((∀ k, k < sizeBytes w → Config.isGddr (a.toNat + k) = false) → t.answer = some (BitVec.ofNat 64 (ofBytes (bytesAt s.rawByte (.dev a.toNat) (sizeBytes w))))) ∧
      ((∀ k, k < sizeBytes w → s.outsideSlot p (a.toNat + k) = none) → t.answer = some 0)) ∧
  (∀ s p k a w d, s.takesRequests = true → p ≠ 16 → s.hostCut p = false → s.inPart p a.toNat (sizeBytes w) = true → OutsideOpen s a.toNat (sizeBytes w) →
    hostMay (.atomic k) w = true → s.unpub = [] → (∀ k, k < sizeBytes w → Config.isGddr (a.toNat + k) = false) →
    let old := ofBytes (bytesAt s.rawByte (.dev a.toNat) (sizeBytes w))
    ∃ t, exec (.hostAccess p (.atomic k) a w d) s = .next t ∧ t.answer = some (BitVec.ofNat 64 old) ∧
      ∀ l, t.rawByte l = storeTo s.rawByte (.dev a.toNat) (toBytes (sizeBytes w) (atomApply k (sizeBytes w) old d.toNat)) l) ∧
  (∀ s p op a w d, s.takesRequests = true → p ≠ 16 → s.hostCut p = true ∨ s.inPart p a.toNat (sizeBytes w) = false → exec (.hostAccess p op a w d) s = .next s) ∧
  (∀ s a w d, s.takesRequests = true → Config.isDevice a.toNat = true → Config.isDevice (a.toNat + sizeBytes w - 1) = true → OutsideOpen s a.toNat (sizeBytes w) →
    (∀ k, k < sizeBytes w → Config.isGddr (a.toNat + k) = true → (s.sector (a.toNat + k)).slot = none) →
    (∃ t, exec (.hostAccess 16 .write a w d) s = .next t ∧ ∀ l, t.rawByte l = storeTo s.rawByte (.dev a.toNat) (toBytes (sizeBytes w) d.toNat) l) ∧
    (s.unpub = [] → ∃ t, exec (.hostAccess 16 .read a w d) s = .next t ∧ (∀ l, t.rawByte l = s.rawByte l) ∧
      t.answer = some (BitVec.ofNat 64 (ofBytes (bytesAt s.rawByte (.dev a.toNat) (sizeBytes w)))))) ∧
  (∀ s a w d, s.takesRequests = true → Config.isDevice a.toNat = true → Config.isDevice (a.toNat + sizeBytes w - 1) = true →
    (∀ k, k < sizeBytes w → Config.isGddr (a.toNat + k) = true ∧ (s.sector (a.toNat + k)).slot.isSome = true) →
    ∃ t, exec (.hostAccess 16 .read a w d) s = .next t ∧ (∀ l, t.rawByte l = s.rawByte l) ∧ t.answer = some 0) ∧
  (∀ s op a w d, s.takesRequests = true → Config.isDevice a.toNat = false ∨ Config.isDevice (a.toNat + sizeBytes w - 1) = false →
    exec (.hostAccess 16 op a w d) s = .next s) ∧
  (∀ s a d, s.takesRequests = true → ∃ t, exec (.hostSnoop a true d) s = .next t ∧ ∀ l, t.rawByte l = storeTo s.rawByte (.host a.toNat) (toBytes 8 d.toNat) l) ∧
  (∀ s v p a w d, s.takesRequests = true → v ∈ s.domain → s.linkUp p v.toNat = true → s.inPart p a.toNat (sizeBytes w) = true → OutsideOpen s a.toNat (sizeBytes w) →
    ∃ t, exec (.peerAccess v p .write a ⟨w, d⟩) s = .next t ∧ Tab.find t.owned (a.toNat / 128) = some v ∧
      ∀ l, t.rawByte l = storeTo s.rawByte (.dev a.toNat) (toBytes (sizeBytes w) d.toNat) l) ∧
  (∀ s v p k a w d, s.takesRequests = true → v ∈ s.domain → s.linkUp p v.toNat = true → s.inPart p a.toNat (sizeBytes w) = true → OutsideOpen s a.toNat (sizeBytes w) →
    peerMay (.atomic k) w = true → s.unpub = [] → (∀ k, k < sizeBytes w → Config.isGddr (a.toNat + k) = false) →
    let old := ofBytes (bytesAt s.rawByte (.dev a.toNat) (sizeBytes w))
    ∃ t, exec (.peerAccess v p (.atomic k) a ⟨w, d⟩) s = .next t ∧ t.answer = some (BitVec.ofNat 64 old) ∧
      ∀ l, t.rawByte l = storeTo s.rawByte (.dev a.toNat) (toBytes (sizeBytes w) (atomApply k (sizeBytes w) old d.toNat)) l) ∧
  (∀ s v p op a w d, s.takesRequests = true → v ∉ s.domain ∨ s.linkUp p v.toNat = false ∨ s.inPart p a.toNat (sizeBytes w) = false →
    exec (.peerAccess v p op a ⟨w, d⟩) s = .next s) ∧
  (∀ n m x, atomApply .add n m x = (m + x) % 256 ^ n) ∧ (∀ n m x (v : W64), atomApply (.cas v) n m x = if m = v.toNat then x else m) ∧
  (∀ n m x, atomApply .swap n m x = x) ∧
  (∀ s p x i gen v off op w d a tr, s.part? p = some x → s.takesRequests = true → s.linkUp p v.toNat = true → (x.winStat = 1 → x.winIdx ≠ i.toNat) →
    s.windowEntry p x i.toNat = some (.at a) →
    let e : BitVec 256 := BitVec.ofNat 256 (s.devNat a 32)
    let n := windowBytes w op
    (windowMay w op = false ∨ windowPasses e gen v off.toNat n op = false → exec (.windowRequest p i gen v off op w d) s = .next s) ∧
    (windowMay w op = true → windowPasses e gen v off.toNat n op = true → s.walk p (s.tbOf p) 0 (weObject e) (weBase e + off.toNat) n = .at tr →
      s.keyBad p tr.slot = false → s.keyHeld p tr.slot = false → Ordinary s n [(⟨0, 0⟩, tr)] → s.snapShort ((List.range n).map (tr.loc.add ·)) = none →
      (op = .write → ∃ t, exec (.windowRequest p i gen v off op w d) s = .next t ∧ ∀ l, t.rawByte l = storeTo s.rawByte tr.loc (toBytes n d.value.toNat) l) ∧
      (op = .cstore → ∃ t, exec (.windowRequest p i gen v off op w d) s = .next t ∧ (∀ l, t.rawByte l = storeTo s.rawByte tr.loc (toBytes n d.value.toNat) l) ∧
        ((∃ y, tr.loc = .dev y) → t.tagAt tr.loc = d.tag)) ∧
      (s.unpub = [] → s.marked tr.loc n = false → let old := ofBytes (bytesAt s.rawByte tr.loc n)
        (op = .read → ∃ t, exec (.windowRequest p i gen v off op w d) s = .next t ∧ (∀ l, t.rawByte l = s.rawByte l) ∧ t.answer = some (BitVec.ofNat 64 old)) ∧
        (op = .cload → ∃ t, exec (.windowRequest p i gen v off op w d) s = .next t ∧ (∀ l, t.rawByte l = s.rawByte l) ∧
          t.capAnswer = some ⟨BitVec.ofNat 128 old, s.tagAt tr.loc⟩) ∧
        (∀ k, op = .atomic k → ∃ t, exec (.windowRequest p i gen v off op w d) s = .next t ∧ t.answer = some (BitVec.ofNat 64 old) ∧
          ∀ l, t.rawByte l = storeTo s.rawByte tr.loc (toBytes n (atomApply k n old d.value.toNat)) l)) ∧
      (windowReads op = true → s.marked tr.loc n = true →
        ∃ t, exec (.windowRequest p i gen v off op w d) s = .next t ∧ (∀ l, t.rawByte l = s.rawByte l) ∧ t.answer = none ∧ t.capAnswer = none))) ∧
  (∀ (e : BitVec 256) gen v off n op, windowPasses e gen v off n op = true ↔ weOpen e = true ∧ weGen e = gen.toNat ∧ weGen e ≠ 2 ^ 32 - 1 ∧
    (weReqdev e = v.toNat ∨ weReqdev e = 0xFFFF) ∧ (op ≠ .read → op ≠ .cload → weW e = true) ∧ (op ≠ .write → op ≠ .cstore → weR e = true) ∧ off + n ≤ weLength e) ∧
  (∀ s u g r d a c b l y, s.group? u = some g → s.hostCut g.part = false → g.host = some r → r.word = .aadd d a c b → r.service = false → r.replay = false →
    r.refused = 0 → r.left g.atomDone = [l] → r.accs = [(l, .host y)] → s.unpub = [] → s.posted = [] → l < 64 →
    let old : Nat := ofBytes (bytesAt s.rawByte (.host y) 4)
    ∃ t g', exec (.atomicopCompletion u true) s = .next t ∧ t.group? u = some g' ∧ g'.host = none ∧ g'.atomDone = (g.atomDone ||| oneBit l) &&& ~~~r.mask ∧
      Tab.get 0 g'.regs.v (vkey (r.regs.wb + d.toNat) l) = BitVec.ofNat 32 old ∧ g'.lanes = mapMask r.mask (fun _ x => { x with pc := nextPc r.pc }) 0 g.lanes ∧
      ∀ x, t.rawByte x = storeTo s.rawByte (.host y) (toBytes 4 (BitVec.ofNat 32 old + r.regs.rv b.toNat l).toNat) x) ∧
  (∀ s u g r d a c b l y k, s.group? u = some g → g.host = some r → r.word = .aadd d a c b → r.service = true → r.replay = false → s.context? g.part = some k →
    k.state = .running → r.left g.atomDone = [l] → r.accs = [(l, .host y)] → s.unpub = [] → s.posted = [] → l < 64 →
    let old : Nat := ofBytes (bytesAt s.rawByte (.host y) 4)
    ∃ t g', exec (.serviceReply u) s = .next t ∧ t.group? u = some g' ∧ g'.host = none ∧ g'.atomDone = (g.atomDone ||| oneBit l) &&& ~~~r.mask ∧
      Tab.get 0 g'.regs.v (vkey (r.regs.wb + d.toNat) l) = BitVec.ofNat 32 old ∧
      g'.lanes = mapMask r.mask (fun _ x => { x with state := .run, park := .no, pc := nextPc r.pc }) 0 g.lanes ∧
      ∀ x, t.rawByte x = storeTo s.rawByte (.host y) (toBytes 4 (BitVec.ofNat 32 old + r.regs.rv b.toNat l).toNat) x) ∧
  (∀ s u g ok, s.group? u = some g → s.hostCut g.part = true → exec (.atomicopCompletion u ok) s = .next s) ∧
  (∀ s p q, s.posted = [q] → q.part = p → q.dev = none → q.engine = false → s.pf.mcLog2.toNat < 4 → ∃ t, exec (.hostWriteRejected p) s = .next t ∧ t.posted = [] ∧
    (∀ l, t.rawByte l = s.rawByte l) ∧
    t.pf.mcLost = (if s.pf.mcLost = BitVec.allOnes 32 then s.pf.mcLost else s.pf.mcLost + 1)) ∧
  (∀ s p x c er, s.part? p = some x → x.tdi = .run → s.context? p = some c → c.state = .running → c.first = none →
    ∃ t x' c' f, exec (.tdiLeavesRun p er) s = .next t ∧ t.part? p = some x' ∧ x'.tdi = (if er then .error else .configUnlocked) ∧ x'.cut = true ∧
      t.context? p = some c' ∧ c'.state = .stopping ∧ c'.halting = true ∧ c'.first = some f ∧ f.cause = 0x39) ∧
  (∀ s p x c, s.part? p = some x → x.spdm = true → s.context? p = some c → c.state = .running → c.first = none → ∀ i ∈ [Instr.spdmSessionEnd p, .heartbeatTimeout p],
    ∃ t x' c' f, exec i s = .next t ∧ t.part? p = some x' ∧ x'.spdm = false ∧ x'.cut = true ∧
      t.context? p = some c' ∧ c'.state = .stopping ∧ c'.halting = true ∧ c'.first = some f ∧ f.cause = 0x39) ∧
  (∀ s p x, s.part? p = some x → x.tdi = .configUnlocked → ∃ t, exec (.tdispRequest p .configLocked) s = .next t ∧ t.part? p = some { x with tdi := .configLocked }) ∧
  (∀ s p x, s.part? p = some x → x.tdi = .configLocked → ∃ t, exec (.tdispRequest p .run) s = .next t ∧
    t.part? p = some { x with tdi := .run, cut := x.cut && !x.spdm }) ∧
  (∀ s p x, s.part? p = some x → ∃ t, exec (.spdmRequest p true) s = .next t ∧ t.part? p = some { x with spdm := true, cut := x.cut && !decide (x.tdi = .run) }) ∧
  (∀ s, ∃ t, exec .hostLinkRetraining s = .next t ∧ ∀ p x, s.part? p = some x → t.part? p = some { x with atomrec := [] }) ∧
  (∀ s p x, s.part? p = some x → p ≠ 16 → s.takesRequests = true → s.mgmtOps = [] → x.resetting = false → ∃ t x', exec (.flr p) s = .next t ∧ t.part? p = some x' ∧ x'.resetting = true) ∧
  (∀ s p x, s.parts = [(p, x)] → s.takesRequests = true → s.mgmtOps = [] → x.resetting = false →
    ∃ t x', exec (.flr 16) s = .next t ∧ t.part? p = some x' ∧ x'.resetting = true) ∧
  (∀ s p x, s.part? p = some x → p ≠ 16 → s.takesRequests = true → x.ctx = none → s.copies = [] → s.mgmtOps = [⟨p, mkReset, 0, 1, 0, .host, []⟩] →
    ∃ t x', exec (.flr p) s = .next t ∧ t.part? p = some x' ∧ x'.resetting = false ∧ x'.wintab = 0 ∧ x'.events = [] ∧ t.mgmtOps = [] ∧
      (∀ i k, i < 2 * x.units → k < Config.vaultBytes → t.rawByte (.dev (Config.vaultBase (2 * p + i) + k)) = 0) ∧
      (∀ e ∈ t.groups, e.2.part ≠ p) ∧ ∀ k, (s.keySlot k).part = some p → (t.keySlot k).part = none) ∧
  (∀ s p i x, s.part? p = some x → s.hostCut p = false → x.winStat ≠ 1 → ∃ t, exec (.winctl p i none) s = .next t ∧
    t.part? p = some { x with winStat := 1, winIdx := i.toNat }) ∧
  (∀ s p x a, s.part? p = some x → x.winStat = 1 → s.windowEntry p x x.winIdx = some (.at a) → s.shortAt a 32 = false →
    let gen := (s.dev64 (a + 24)).toNat / 2 ^ 16 % 2 ^ 32
    ∃ t, exec (.windowRevocationDone p) s = .next t ∧ t.part? p = some { x with winStat := 2 } ∧ (t.dev64 a).getLsbD 0 = false ∧
      (t.dev64 (a + 24)).toNat / 2 ^ 16 % 2 ^ 32 = min (gen + 1) (2 ^ 32 - 1))

/-- R117, R118, R313, R323, R327, R328, R330: a port comes up with an authenticated partner of its version; a good flit clears its failures, the eighth bad one in a row takes
it down; a connection that is lost takes its ports down; a peer's window revocation revokes the claims over it; the timebase follows the lowest root, slewing forward, until
the port towards it goes down, and is unlocked after 1 ms. A lock at a flit within 4 ns, a slew of one count and the root that is left without a port are the model's choices (log entry 96). -/
def Obligations.Links : Prop :=
  (∀ s n v vs, n < 18 → vs.getLsbD Config.version = true → ∃ t q, exec (.portTraining n v vs true) s = .next t ∧ Tab.find t.ports n = some q ∧ q.up = true ∧ q.dev = v ∧
    q.ver = Config.version ∧ q.fails = 0 ∧ ∀ k, k ≠ n → Tab.find t.ports k = Tab.find s.ports k) ∧
  (∀ s n v vs, n < 18 → ∃ t q, exec (.portTraining n v vs false) s = .next t ∧ Tab.find t.ports n = some q ∧ q.up = false ∧
    ∀ old, Tab.find s.ports n = some old → old.ver ≠ 0 → q.dev = old.dev ∧ q.ver = old.ver) ∧
  (∀ s n q, Tab.find s.ports n = some q → q.up = true → ∃ t q', exec (.flit n true) s = .next t ∧ Tab.find t.ports n = some q' ∧ q'.up = true ∧ q'.fails = 0) ∧
  (∀ s n q, Tab.find s.ports n = some q → q.up = true → q.fails < 7 →
    exec (.flit n false) s = .next { s with ports := Tab.put s.ports n { q with fails := q.fails + 1 } }) ∧
  (∀ s n q, Tab.find s.ports n = some q → q.up = true → 7 ≤ q.fails → ∃ t q', exec (.flit n false) s = .next t ∧ Tab.find t.ports n = some q' ∧ q'.up = false) ∧
  (∀ s n q, Tab.find s.ports n = some q → ∃ t q', exec (.portDown n) s = .next t ∧ Tab.find t.ports n = some q' ∧ q'.up = false) ∧
  (∀ s p v, ∃ t, exec (.linkLoss p v) s = .next t ∧ t.linkUp p v.toNat = false ∧
    ∀ n tm k c, s.copies = [] → s.contribs = [] → s.team? n = some tm → tm.part = p → Tab.find tm.claims k = some c → c.state = 1 ∨ c.state = 2 →
      (∃ i, (v.toNat, i) ∈ c.wins) → (t.claim n k).state = 4 ∧ (t.claim n k).cause = 1) ∧
  (∀ s p i v, ∃ t, exec (.winctl p i (some v)) s = .next t ∧ (∀ l, t.rawByte l = s.rawByte l) ∧
    ∀ n tm k c, s.team? n = some tm → tm.part = p → Tab.find tm.claims k = some c → c.state = 1 ∨ c.state = 2 → (v.toNat, i.toNat) ∈ c.wins →
      (t.claim n k).state = 3 ∧ (t.claim n k).cause = 5) ∧
  (∀ s n q r h e lk, Tab.find s.ports n = some q → q.up = true → r.toNat < s.pf.tbRoot.toNat → r.toNat ≤ Config.deviceId.toNat → (e - s.timebase).toNat < 2 ^ 63 →
    (e - s.timebase).toNat ≤ 4 → ∃ t, exec (.timebaseFlit n r h e lk) s = .next t ∧ t.pf.tbRoot = r ∧ t.pf.tbHops = h + 1 ∧ t.pf.tbPort = some n ∧ t.pf.tblock = true ∧
      t.timebase = (if e = s.timebase then s.timebase else s.timebase + 1)) ∧
  (∀ s n q, Tab.find s.ports n = some q → q.up = true → s.pf.tbPort = some n → ∃ t, exec (.portDown n) s = .next t ∧ t.pf.tbPort = none ∧ t.pf.tbRoot = Config.deviceId) ∧
  (∀ s, s.pf.tblock = true → s.pf.tbLast + 1000000 ≤ s.timebase.toNat → ∃ t, exec .timebaseUnlocked s = .next t ∧ t.pf.tblock = false ∧ t.pf.tbRoot = Config.deviceId ∧
    t.pf.tbPort = none ∧ t.timebase = s.timebase)

/-- R336, R337, R338, R342, R313: RELEASE and STEP let the named lanes in BRK go on, for one word under STEP; a lane that stopped after its word
goes on behind it, one that stopped before it at it (log entry 89); in context-stop mode, where LANESTOP is 0, they are refused. SAMPCTL seeds the LFSR
and starts an interval; a sample moves both on, the LFSR first (log entry 90), and of a stopped context it writes no record. A machine-check record goes to its ring while there is room. -/
def Obligations.Debugging : Prop :=
  (∀ s p c u g team group m, s.hostCut p = false → s.context? p = some c → c.stopmode.getLsbD 0 = true → c.state = .running → s.namedGroups p team group = [u] →
    s.group? u = some g → g.width ≤ 64 → (s.part? p).isSome = true →
    (∃ t x g', exec (.release p team group m) s = .next t ∧ t.part? p = some x ∧ x.dbgStat = 1 ∧ t.group? u = some g' ∧ g'.regs = g.regs ∧ ∀ l, l < g.width →
      if bit m l = true ∧ (g.lane l).state = .brk then (g'.lane l).state = .run ∧ (g'.lane l).pc = (if (g.lane l).stepped then (g.lane l).pc else nextPc (g.lane l).pc) ∧
        (g'.lane l).stepping = false else g'.lane l = g.lane l) ∧
    (∃ t x g', exec (.step p team group m) s = .next t ∧ t.part? p = some x ∧ x.dbgStat = 1 ∧ t.group? u = some g' ∧ g'.regs = g.regs ∧ ∀ l, l < g.width →
      if bit m l = true ∧ (g.lane l).state = .brk then (g'.lane l).state = .run ∧ (g'.lane l).pc = (if (g.lane l).stepped then (g.lane l).pc else nextPc (g.lane l).pc) ∧
        (g'.lane l).stepping = true else g'.lane l = g.lane l)) ∧
  (∀ s p x c team group m, s.part? p = some x → x.cut = false → s.context? p = some c → c.stopmode.getLsbD 0 = false → ∀ i ∈ [Instr.release p team group m, .step p team group m],
    ∃ t, exec i s = .next t ∧ t.part? p = some { x with dbgStat := 2 } ∧ t.groups = s.groups) ∧
  (∀ s p x v, s.part? p = some x → x.cut = false → v.getLsbD 63 = true → ∃ t x', exec (.sampctl p v) s = .next t ∧ t.part? p = some x' ∧ x'.lfsr = 0xACE1 ∧
    x'.sampctl = v &&& 0x80000000FFFFFFFF ∧ x'.sampNext = s.aclk + max 64 (v.toNat % 2 ^ 32) / 2 + 0xACE1 % max 64 (v.toNat % 2 ^ 32)) ∧
  (∀ s p x, s.part? p = some x → x.sampctl.getLsbD 63 = true → s.pf.current ≤ 1 → x.sampNext ≤ s.aclk → ∃ t x', exec (.sample p) s = .next t ∧ t.part? p = some x' ∧
    x'.lfsr = lfsrNext x.lfsr ∧ x'.sampNext = s.aclk + max 64 (x.sampctl.toNat % 2 ^ 32) / 2 + (lfsrNext x.lfsr).toNat % max 64 (x.sampctl.toNat % 2 ^ 32)) ∧
  (∀ s p c, s.context? p = some c → c.state = .stopped ∨ c.state = .halted → ∃ t, exec (.sample p) s = .next t ∧ ∀ l, t.rawByte l = s.rawByte l) ∧
  (∀ l, (lfsrNext l).toNat = l.toNat / 2 + (if (l.getLsbD 0 ^^ l.getLsbD 2 ^^ l.getLsbD 3 ^^ l.getLsbD 5) = true then 2 ^ 15 else 0)) ∧
  (∀ (s : State) a b c, (s.pf.mcProd - s.pf.mcCons).toNat < 2 ^ s.pf.mcLog2.toNat → 4 ≤ s.pf.mcLog2.toNat →
    let n := s.pf.mcBase.toNat + 32 * (s.pf.mcProd.toNat % 2 ^ s.pf.mcLog2.toNat)
    s.shortAt n 32 = false →
    (s.machineCheck a b c).pf.mcProd = s.pf.mcProd + 1 ∧ (s.machineCheck a b c).dev64 n = a ∧ (s.machineCheck a b c).dev64 (n + 8) = b ∧
      (s.machineCheck a b c).dev64 (n + 16) = s.timebase ∧ (s.machineCheck a b c).dev64 (n + 24) = c)

/-- R312, R313, R343 to R348: power-on runs the sequence to READY, with three measurements (log entry 126) and the timebase at 0 (log entry 117), both the model's choice, or stops
at the failed step; TARGET asks for a power state from Q0 to Q3, which the end of the change makes CURRENT; a change that R347 refuses is REFUSED, one while BUSY changes nothing; entering Q3 keeps
memory and contexts, not the caches nor a guest's service teams; host and peer requests that arrive in Q2 or Q3 (the model's list of them, log entries 26 and 99) are held and come next, in their order, after the exit to Q0 or Q1; engines pause there (log entry 97); the thermal trip; the pinning
of a sector with an uncorrectable error; an error of a core's memory, of either kind, only makes its record (SCRUB finds it, log entry 128); without power all but the repair store is lost. -/
def Obligations.Power : Prop :=
  (∀ s, ∃ t, exec (.powerOn none) s = .next t ∧ t.pf.ready = true ∧ t.pf.failed = false ∧ t.pf.bootStep = 6 ∧ t.pf.current = 0 ∧ t.parts = [] ∧ t.mem = [] ∧
    t.timebase = 0 ∧ t.pins.map (·.1) = s.pins.map (·.1) ∧ t.hostMem = s.hostMem) ∧
  (∀ s k u, k.val ≠ 0 → k.val ≠ 3 → ∃ t, exec (.powerOn (some (k, u))) s = .next t ∧ t.pf.measured.length = (if k.val = 1 then 0 else 3) ∧ t.pf.ready = false ∧ t.pf.failed = true ∧ t.pf.failStep = k.val ∧ t.mem = []) ∧
  (∀ s, s.pf.ready = true → s.pf.pwrStatus ≠ 1 → s.pf.current ≤ 1 →
    (s.pf.thermtrip = false → exec .targetQ0 s = .next { s with pf := { s.pf with target := 0, pwrStatus := 1 } } ∧
      exec .targetQ1 s = .next { s with pf := { s.pf with target := 1, pwrStatus := 1 } }) ∧
    exec .targetQ2 s = .next { s with pf := { s.pf with target := 2, pwrStatus := 1 } } ∧
    (s.quiet = true → exec .targetQ3 s = .next { s with pf := { s.pf with target := 3, pwrStatus := 1 } } ∧
      exec .targetQ4 s = .next { s with pf := { s.pf with target := 4, pwrStatus := 1 } }) ∧
    (s.quiet = false → ∀ i ∈ [Instr.targetQ3, .targetQ4], exec i s = .next { s with pf := { s.pf with pwrStatus := 2 } }) ∧
    (s.pf.thermtrip = true → ∀ i ∈ [Instr.targetQ0, .targetQ1], exec i s = .next { s with pf := { s.pf with pwrStatus := 2 } })) ∧
  (∀ s, s.pf.ready = true → s.pf.pwrStatus ≠ 1 → s.pf.current = 2 ∨ s.pf.current = 3 →
    (s.pf.thermtrip = false → exec .targetQ0 s = .next { s with pf := { s.pf with target := 0, pwrStatus := 1 } } ∧
      exec .targetQ1 s = .next { s with pf := { s.pf with target := 1, pwrStatus := 1 } }) ∧
    (s.pf.thermtrip = true → ∀ i ∈ [Instr.targetQ0, .targetQ1], exec i s = .next { s with pf := { s.pf with pwrStatus := 2 } }) ∧
    exec .targetQ4 s = .next { s with pf := { s.pf with pwrStatus := 2 } } ∧
    (s.pf.current = 2 → exec .targetQ3 s = .next { s with pf := { s.pf with pwrStatus := 2 } }) ∧
    (s.pf.current = 3 → exec .targetQ2 s = .next { s with pf := { s.pf with pwrStatus := 2 } })) ∧
  (∀ s, s.pf.pwrStatus = 1 → ∀ i ∈ [Instr.targetQ0, .targetQ1, .targetQ2, .targetQ3, .targetQ4], exec i s = .next s) ∧
  (∀ s, s.pf.pwrStatus = 1 → s.pf.target ≤ 2 → exec .powerStateChangeDone s = .next (if s.pf.target ≤ 1
    then { s with pf := { s.pf with current := s.pf.target, pwrStatus := 0 }, agenda := s.waiting.map Turn.event ++ s.agenda, waiting := [] }
    else { s with pf := { s.pf with current := s.pf.target, pwrStatus := 0 } })) ∧
  (∀ s, s.pf.pwrStatus = 1 → s.pf.target = 3 → s.quiet = true → s.copies = [] → ∃ t, exec .powerStateChangeDone s = .next t ∧
    t.pf = { s.pf with current := 3, pwrStatus := 0 } ∧ t.mem = s.mem ∧ t.hostMem = s.hostMem ∧ t.ctxs = s.ctxs ∧ t.pins = s.pins ∧ t.icache = [] ∧ t.ocache = [] ∧
    ((∀ e ∈ s.parts, e.2.hpart = false) → (∀ e ∈ t.groups, e.2.level = .u) ∧ ∀ e ∈ t.teams, e.2.level = .u)) ∧
  (∀ (s : State) p op a z d wr v i gen o r w off st h off2 val q k c m ct rs y, s.pf.current = 2 ∨ s.pf.current = 3 →
    ∀ j ∈ [Instr.hostAccess p op a z d, .hostSnoop a wr d, .peerAccess v p o a y, .windowRequest p i gen v q w k r, .flr p, .doorbell st h, .enableSet st, .enableClear st, .errorClear st,
      .registerWrite (.vf p) off2 c val, .winctl p i rs, .sampctl p h, .release p ct off m, .step p ct off m],
      s.take (.event j) = .next { s with waiting := s.waiting ++ [j] }) ∧
  (∀ (s : State) off c val, s.pf.current = 2 ∨ s.pf.current = 3 → off.toNat / 8 ≠ 1 →
    s.take (.event (.registerWrite .pf off c val)) = .next { s with waiting := s.waiting ++ [.registerWrite .pf off c val] }) ∧
  (∀ (s : State) n bs cl gn, s.pf.current = 2 ∨ s.pf.current = 3 → ∀ j ∈ [Instr.flowEnd n, .tsumEnd n, .matrixOperationEnd n, .rendezvous cl gn, .roundDone n bs, .tmwaitExpiry n],
    s.take (.event j) = .next s) ∧
  (∀ s, s.pf.pwrStatus = 1 → s.pf.target = 4 → s.quiet = true →
    ∃ t, exec .powerStateChangeDone s = .next t ∧ t.pf.current = 4 ∧ t.mem = [] ∧ t.ctxs = [] ∧ t.groups = [] ∧ t.pins.map (·.1) = s.pins.map (·.1)) ∧
  (∀ s v, 105 ≤ v.toNat → s.pf.current ≠ 4 → ∃ t, exec (.thermalTrip v) s = .next t ∧ t.pf.thermtrip = true ∧ t.pf.current = 2 ∧ t.pf.temp = v ∧ t.groups = s.groups) ∧
  (∀ s v, s.pf.current ≠ 4 → v.toNat ≤ 95 → exec (.thermtripClear v) s = .next { s with pf := { s.pf with temp := v, thermtrip := false } }) ∧
  (∀ s v, s.pf.current ≠ 4 → 95 < v.toNat → v.toNat < 105 ∨ 105 ≤ s.pf.temp.toNat → exec (.thermtripClear v) s = .next { s with pf := { s.pf with temp := v } }) ∧
  (∀ s v, s.pf.current ≠ 4 → 105 ≤ v.toNat → s.pf.temp.toNat < 105 → exec (.thermtripClear v) s = exec (.thermalTrip v) s) ∧
  (∀ s a u, s.takesRequests = true → s.unitOf a.toNat = some u → Config.isGddr a.toNat = true → (∀ e ∈ s.pins, e.1 / 4 ≠ a.toNat / 32 / 4) → s.pins.length < 2 →
    ∃ t, exec (.scrub (.sector a) true) s = .next t ∧ (Tab.get Sector.clean t.sectors (a.toNat / 32)).unc = true ∧ t.pins = s.pins ++ [(a.toNat / 32, true)]) ∧
  (∀ s a u, s.takesRequests = true → s.unitOf a.toNat = some u → Config.isGddr a.toNat = true → (∀ e ∈ s.pins, e.1 / 4 ≠ a.toNat / 32 / 4) →
    (Tab.get Sector.clean s.sectors (a.toNat / 32)).errs < 2 → ∃ t, exec (.scrub (.sector a) false) s = .next t ∧ t.pins = s.pins ∧
      (Tab.get Sector.clean t.sectors (a.toNat / 32)).errs = (Tab.get Sector.clean s.sectors (a.toNat / 32)).errs + 1 ∧
      (Tab.get Sector.clean t.sectors (a.toNat / 32)).unc = (Tab.get Sector.clean s.sectors (a.toNat / 32)).unc) ∧
  (∀ s c m u, s.takesRequests = true → s.pf.mcLog2.toNat < 4 → ∃ t, exec (.scrub (.core c m) u) s = .next t ∧ t.pins = s.pins ∧ t.sectors = s.sectors ∧ (∀ l, t.rawByte l = s.rawByte l) ∧
    t.pf.mcLost = (if s.pf.mcLost = BitVec.allOnes 32 then s.pf.mcLost else s.pf.mcLost + 1)) ∧
  (∀ s, ∃ t, exec .powerRemoval s = .next t ∧ t.pf.current = 4 ∧ t.pf.ready = false ∧ t.mem = [] ∧ t.groups = [] ∧ t.ctxs = [] ∧ t.pins.map (·.1) = s.pins.map (·.1))
end

