-- ==== Sys2Proof/Laws/Tab.lean ====
section
/-! SUPPORT. Tables: a read after a write, and the canonical form. -/

namespace Sys2Proof.Machine

variable {α : Type}

/-! ### Reading -/

@[simp] theorem Tab.get_nil (d : α) (j : Nat) : Tab.get d [] j = d := rfl
@[simp] theorem Tab.find_nil (j : Nat) : Tab.find ([] : Tab α) j = none := rfl

theorem Tab.get_del_self (d : α) (t : Tab α) (j : Nat) : Tab.get d (t.del j) j = d := by
  induction t with
  | nil => rfl
  | cons e t ih =>
    obtain ⟨k, v⟩ := e
    by_cases h : k = j <;> simp [Tab.del, Tab.get, h, ih]

theorem Tab.get_del_ne (d : α) (t : Tab α) {j n : Nat} (h : n ≠ j) : Tab.get d (t.del j) n = Tab.get d t n := by
  induction t with
  | nil => rfl
  | cons e t ih =>
    obtain ⟨k, v⟩ := e
    by_cases hk : k = j
    · have : k ≠ n := fun c => h (c ▸ hk)
      simp [Tab.del, Tab.get, hk, ih, Ne.symm h]
    · simp [Tab.del, Tab.get, hk, ih]

theorem Tab.get_put_self (d : α) (t : Tab α) (j : Nat) (x : α) : Tab.get d (t.put j x) j = x := by
  induction t with
  | nil => simp [Tab.put, Tab.get]
  | cons e t ih =>
    obtain ⟨k, v⟩ := e
    by_cases hk : k = j
    · simp [Tab.put, Tab.get, hk]
    · by_cases hl : j < k <;> simp [Tab.put, Tab.get, hk, hl, ih]

theorem Tab.get_put_ne (d : α) (t : Tab α) {j n : Nat} (x : α) (h : n ≠ j) : Tab.get d (t.put j x) n = Tab.get d t n := by
  induction t with
  | nil => simp [Tab.put, Tab.get, Ne.symm h]
  | cons e t ih =>
    obtain ⟨k, v⟩ := e
    by_cases hk : k = j
    · subst hk
      simp [Tab.put, Tab.get, Ne.symm h]
    · by_cases hl : j < k <;> simp [Tab.put, Tab.get, hk, hl, ih, Ne.symm h]

/-- The value written, and the others as before. -/
theorem Tab.get_set [DecidableEq α] (d : α) (t : Tab α) (j : Nat) (x : α) (n : Nat) :
    Tab.get d (Tab.set d t j x) n = if n = j then x else Tab.get d t n := by
  unfold Tab.set
  by_cases hx : x = d <;> by_cases hn : n = j <;>
    simp [hx, hn, Tab.get_del_self, Tab.get_del_ne, Tab.get_put_self, Tab.get_put_ne]

theorem Tab.find_put_self (t : Tab α) (j : Nat) (x : α) : (t.put j x).find j = some x := by
  induction t with
  | nil => simp [Tab.put, Tab.find]
  | cons e t ih =>
    obtain ⟨k, v⟩ := e
    by_cases hk : k = j
    · simp [Tab.put, Tab.find, hk]
    · by_cases hl : j < k <;> simp [Tab.put, Tab.find, hk, hl, ih]

theorem Tab.find_put_ne (t : Tab α) {j n : Nat} (x : α) (h : n ≠ j) : (t.put j x).find n = t.find n := by
  induction t with
  | nil => simp [Tab.put, Tab.find, Ne.symm h]
  | cons e t ih =>
    obtain ⟨k, v⟩ := e
    by_cases hk : k = j
    · subst hk
      simp [Tab.put, Tab.find, Ne.symm h]
    · by_cases hl : j < k <;> simp [Tab.put, Tab.find, hk, hl, ih, Ne.symm h]

theorem Tab.find_modify_self (t : Tab α) (j : Nat) (f : α → α) : (t.modify j f).find j = (t.find j).map f := by
  induction t with
  | nil => rfl
  | cons e t ih =>
    obtain ⟨k, v⟩ := e
    by_cases hk : k = j <;> simp [Tab.modify, Tab.find, hk, ih]

theorem Tab.find_modify_ne (t : Tab α) {j n : Nat} (f : α → α) (h : n ≠ j) : (t.modify j f).find n = t.find n := by
  induction t with
  | nil => rfl
  | cons e t ih =>
    obtain ⟨k, v⟩ := e
    by_cases hk : k = j
    · subst hk
      simp [Tab.modify, Tab.find, Ne.symm h]
    · simp [Tab.modify, Tab.find, hk, ih]

/-- Two changes of one entry are one. -/
theorem Tab.modify_modify (t : Tab α) (j : Nat) (f g : α → α) : (t.modify j f).modify j g = t.modify j (fun x => g (f x)) := by
  induction t with
  | nil => rfl
  | cons e t ih =>
    obtain ⟨k, v⟩ := e
    by_cases hk : k = j <;> simp [Tab.modify, hk, ih]

/-! ### The canonical form -/

/-- Keys above a lower bound are above it. -/
theorem Tab.above_of_le {m n : Nat} (h : m ≤ n) : ∀ t : Tab α, Tab.above n t = true → Tab.above m t = true
  | [], _ => rfl
  | (k, _) :: t, ht => by
    simp only [Tab.above, Bool.and_eq_true, decide_eq_true_eq] at ht ⊢
    exact ⟨Nat.lt_of_le_of_lt h ht.1, ht.2⟩

theorem Tab.above_del {n : Nat} (j : Nat) : ∀ t : Tab α, Tab.above n t = true → Tab.above n (t.del j) = true
  | [], _ => rfl
  | (k, v) :: t, ht => by
    simp only [Tab.above, Bool.and_eq_true, decide_eq_true_eq] at ht
    by_cases hk : k = j
    · simp only [Tab.del, hk, if_true]
      exact Tab.above_of_le (Nat.le_of_lt ht.1) _ (Tab.above_del j t ht.2)
    · simp only [Tab.del, hk, if_false, Tab.above, Bool.and_eq_true, decide_eq_true_eq]
      exact ⟨ht.1, Tab.above_del j t ht.2⟩

theorem Tab.above_put {n : Nat} (j : Nat) (x : α) (hn : n < j) : ∀ t : Tab α, Tab.above n t = true → Tab.above n (t.put j x) = true
  | [], _ => by simp [Tab.put, Tab.above, hn]
  | (k, v) :: t, ht => by
    simp only [Tab.above, Bool.and_eq_true, decide_eq_true_eq] at ht
    by_cases hk : k = j
    · subst hk
      simp [Tab.put, Tab.above, hn, ht.2]
    · by_cases hl : j < k
      · simp [Tab.put, Tab.above, hk, hl, hn, ht.2]
      · have : k < j := by omega
        simp only [Tab.put, hk, hl, if_false, Tab.above, Bool.and_eq_true, decide_eq_true_eq]
        exact ⟨ht.1, Tab.above_put j x this t ht.2⟩

theorem Tab.sorted_of_above {n : Nat} : ∀ t : Tab α, Tab.above n t = true → Tab.sorted t = true
  | [], _ => rfl
  | (k, _) :: t, ht => by
    simp only [Tab.above, Bool.and_eq_true] at ht
    exact ht.2

theorem Tab.sorted_del (j : Nat) : ∀ t : Tab α, t.sorted = true → (t.del j).sorted = true
  | [], _ => rfl
  | (k, v) :: t, ht => by
    by_cases hk : k = j
    · simp only [Tab.del, hk, if_true]
      exact Tab.sorted_of_above _ (Tab.above_del (n := k) j t ht)
    · simp only [Tab.del, hk, if_false]
      exact Tab.above_del j t ht

theorem Tab.sorted_put (j : Nat) (x : α) : ∀ t : Tab α, t.sorted = true → (t.put j x).sorted = true
  | [], _ => rfl
  | (k, v) :: t, ht => by
    by_cases hk : k = j
    · subst hk
      simpa [Tab.put, Tab.sorted] using ht
    · by_cases hl : j < k
      · simp only [Tab.put, hk, hl, if_true, if_false, Tab.sorted, Tab.above, Bool.and_eq_true, decide_eq_true_eq]
        exact ⟨trivial, ht⟩
      · have : k < j := by omega
        simp only [Tab.put, hk, hl, if_false, Tab.sorted]
        exact Tab.above_put j x this t ht

theorem Tab.all_del (p : Nat × α → Bool) (j : Nat) : ∀ t : Tab α, t.all p = true → (t.del j).all p = true
  | [], _ => rfl
  | (k, v) :: t, ht => by
    simp only [List.all_cons, Bool.and_eq_true] at ht
    by_cases hk : k = j
    · simp only [Tab.del, hk, if_true]
      exact Tab.all_del p j t ht.2
    · simp only [Tab.del, hk, if_false, List.all_cons, Bool.and_eq_true]
      exact ⟨ht.1, Tab.all_del p j t ht.2⟩

theorem Tab.all_put (p : Nat × α → Bool) (j : Nat) (x : α) (hp : p (j, x) = true) : ∀ t : Tab α, t.all p = true → (t.put j x).all p = true
  | [], _ => by simp [Tab.put, hp]
  | (k, v) :: t, ht => by
    simp only [List.all_cons, Bool.and_eq_true] at ht
    by_cases hk : k = j
    · simp [Tab.put, hk, hp, ht.2]
    · by_cases hl : j < k
      · simp [Tab.put, hk, hl, hp, ht.1, ht.2]
      · simp only [Tab.put, hk, hl, if_false, List.all_cons, Bool.and_eq_true]
        exact ⟨ht.1, Tab.all_put p j x hp t ht.2⟩

/-- A write keeps the canonical form. -/
theorem Tab.wf_set [DecidableEq α] (d : α) (t : Tab α) (j : Nat) (x : α) (h : Tab.wf d t = true) : Tab.wf d (Tab.set d t j x) = true := by
  simp only [Tab.wf, Bool.and_eq_true] at h ⊢
  unfold Tab.set
  by_cases hx : x = d
  · simp only [hx, if_true]
    exact ⟨Tab.sorted_del j t h.1, Tab.all_del _ j t h.2⟩
  · simp only [hx, if_false]
    exact ⟨Tab.sorted_put j x t h.1, Tab.all_put _ j x (by simpa using hx) t h.2⟩

theorem Tab.above_filter (p : Nat × α → Bool) {n : Nat} : ∀ t : Tab α, Tab.above n t = true → Tab.above n (t.filter p) = true
  | [], _ => rfl
  | (k, v) :: t, ht => by
    simp only [Tab.above, Bool.and_eq_true, decide_eq_true_eq] at ht
    by_cases hp : p (k, v) = true
    · simp only [List.filter_cons, hp, if_true, Tab.above, Bool.and_eq_true, decide_eq_true_eq]
      exact ⟨ht.1, Tab.above_filter p t ht.2⟩
    · simp only [List.filter_cons, hp]
      exact Tab.above_of_le (Nat.le_of_lt ht.1) _ (Tab.above_filter p t ht.2)

theorem Tab.sorted_filter (p : Nat × α → Bool) : ∀ t : Tab α, t.sorted = true → Tab.sorted (t.filter p) = true
  | [], _ => rfl
  | (k, v) :: t, ht => by
    by_cases hp : p (k, v) = true
    · simp only [List.filter_cons, hp, if_true, Tab.sorted]
      exact Tab.above_filter p t ht
    · simp only [List.filter_cons, hp]
      exact Tab.sorted_of_above _ (Tab.above_filter (n := k) p t ht)

/-- A part of a canonical table is canonical. -/
theorem Tab.wf_filter [DecidableEq α] (d : α) (t : Tab α) (p : Nat × α → Bool) (h : Tab.wf d t = true) : Tab.wf d (t.filter p) = true := by
  simp only [Tab.wf, Bool.and_eq_true] at h ⊢
  refine ⟨Tab.sorted_filter p t h.1, ?_⟩
  rw [List.all_eq_true] at h ⊢
  intro e he
  exact h.2 e (List.mem_filter.mp he).1

theorem Tab.wf_clear [DecidableEq α] (d : α) (t : Tab α) (lo n : Nat) (h : Tab.wf d t = true) : Tab.wf d (t.clear lo n) = true :=
  Tab.wf_filter d t _ h

theorem Tab.wf_slice [DecidableEq α] (d : α) (t : Tab α) (lo n : Nat) (h : Tab.wf d t = true) : Tab.wf d (t.slice lo n) = true :=
  Tab.wf_filter d t _ h

theorem Tab.wf_blit [DecidableEq α] (d : α) (base lo : Nat) : ∀ (es : List (Nat × α)) (t : Tab α), Tab.wf d t = true → Tab.wf d (Tab.blit d base lo es t) = true
  | [], _, h => h
  | (k, v) :: es, t, h => Tab.wf_blit d base lo es _ (Tab.wf_set d t (k - base + lo) v h)

end Sys2Proof.Machine
end

