-- ==== Sys2Proof/Laws/State.lean ====
section
/-! SUPPORT. The fields of the state after each named update, so that no proof unfolds a record update. -/

namespace Sys2Proof.Machine


/-! ### `onGroup` changes `groups` alone -/

@[simp] theorem State.onGroup_mem (s : State) (u : Nat) (f : Group → Group) : (s.onGroup u f).mem = s.mem := rfl
@[simp] theorem State.onGroup_mtags (s : State) (u : Nat) (f : Group → Group) : (s.onGroup u f).mtags = s.mtags := rfl
@[simp] theorem State.onGroup_hostMem (s : State) (u : Nat) (f : Group → Group) : (s.onGroup u f).hostMem = s.hostMem := rfl
@[simp] theorem State.onGroup_peerMem (s : State) (u : Nat) (f : Group → Group) : (s.onGroup u f).peerMem = s.peerMem := rfl
@[simp] theorem State.onGroup_peerTags (s : State) (u : Nat) (f : Group → Group) : (s.onGroup u f).peerTags = s.peerTags := rfl
@[simp] theorem State.onGroup_sectors (s : State) (u : Nat) (f : Group → Group) : (s.onGroup u f).sectors = s.sectors := rfl
@[simp] theorem State.onGroup_pins (s : State) (u : Nat) (f : Group → Group) : (s.onGroup u f).pins = s.pins := rfl
@[simp] theorem State.onGroup_keys (s : State) (u : Nat) (f : Group → Group) : (s.onGroup u f).keys = s.keys := rfl
@[simp] theorem State.onGroup_ports (s : State) (u : Nat) (f : Group → Group) : (s.onGroup u f).ports = s.ports := rfl
@[simp] theorem State.onGroup_domain (s : State) (u : Nat) (f : Group → Group) : (s.onGroup u f).domain = s.domain := rfl
@[simp] theorem State.onGroup_pf (s : State) (u : Nat) (f : Group → Group) : (s.onGroup u f).pf = s.pf := rfl
@[simp] theorem State.onGroup_timebase (s : State) (u : Nat) (f : Group → Group) : (s.onGroup u f).timebase = s.timebase := rfl
@[simp] theorem State.onGroup_aclk (s : State) (u : Nat) (f : Group → Group) : (s.onGroup u f).aclk = s.aclk := rfl
@[simp] theorem State.onGroup_frac (s : State) (u : Nat) (f : Group → Group) : (s.onGroup u f).frac = s.frac := rfl
@[simp] theorem State.onGroup_parts (s : State) (u : Nat) (f : Group → Group) : (s.onGroup u f).parts = s.parts := rfl
@[simp] theorem State.onGroup_ctxs (s : State) (u : Nat) (f : Group → Group) : (s.onGroup u f).ctxs = s.ctxs := rfl
@[simp] theorem State.onGroup_launches (s : State) (u : Nat) (f : Group → Group) : (s.onGroup u f).launches = s.launches := rfl
@[simp] theorem State.onGroup_teams (s : State) (u : Nat) (f : Group → Group) : (s.onGroup u f).teams = s.teams := rfl
@[simp] theorem State.onGroup_saved (s : State) (u : Nat) (f : Group → Group) : (s.onGroup u f).saved = s.saved := rfl
@[simp] theorem State.onGroup_owned (s : State) (u : Nat) (f : Group → Group) : (s.onGroup u f).owned = s.owned := rfl
@[simp] theorem State.onGroup_copies (s : State) (u : Nat) (f : Group → Group) : (s.onGroup u f).copies = s.copies := rfl
@[simp] theorem State.onGroup_mats (s : State) (u : Nat) (f : Group → Group) : (s.onGroup u f).mats = s.mats := rfl
@[simp] theorem State.onGroup_latch (s : State) (u : Nat) (f : Group → Group) : (s.onGroup u f).latch = s.latch := rfl
@[simp] theorem State.onGroup_rounds (s : State) (u : Nat) (f : Group → Group) : (s.onGroup u f).rounds = s.rounds := rfl
@[simp] theorem State.onGroup_contribs (s : State) (u : Nat) (f : Group → Group) : (s.onGroup u f).contribs = s.contribs := rfl
@[simp] theorem State.onGroup_roundNo (s : State) (u : Nat) (f : Group → Group) : (s.onGroup u f).roundNo = s.roundNo := rfl
@[simp] theorem State.onGroup_unpub (s : State) (u : Nat) (f : Group → Group) : (s.onGroup u f).unpub = s.unpub := rfl
@[simp] theorem State.onGroup_posted (s : State) (u : Nat) (f : Group → Group) : (s.onGroup u f).posted = s.posted := rfl
@[simp] theorem State.onGroup_place (s : State) (u : Nat) (f : Group → Group) : (s.onGroup u f).place = s.place := rfl
@[simp] theorem State.onGroup_mgmtOps (s : State) (u : Nat) (f : Group → Group) : (s.onGroup u f).mgmtOps = s.mgmtOps := rfl
@[simp] theorem State.onGroup_icache (s : State) (u : Nat) (f : Group → Group) : (s.onGroup u f).icache = s.icache := rfl
@[simp] theorem State.onGroup_ocache (s : State) (u : Nat) (f : Group → Group) : (s.onGroup u f).ocache = s.ocache := rfl
@[simp] theorem State.onGroup_nextUid (s : State) (u : Nat) (f : Group → Group) : (s.onGroup u f).nextUid = s.nextUid := rfl
@[simp] theorem State.onGroup_free (s : State) (u : Nat) (f : Group → Group) : (s.onGroup u f).free = s.free := rfl
@[simp] theorem State.onGroup_lives (s : State) (u : Nat) (f : Group → Group) : (s.onGroup u f).lives = s.lives := rfl
@[simp] theorem State.onGroup_seeds (s : State) (u : Nat) (f : Group → Group) : (s.onGroup u f).seeds = s.seeds := rfl
@[simp] theorem State.onGroup_agenda (s : State) (u : Nat) (f : Group → Group) : (s.onGroup u f).agenda = s.agenda := rfl
@[simp] theorem State.onGroup_hooks (s : State) (u : Nat) (f : Group → Group) : (s.onGroup u f).hooks = s.hooks := rfl
@[simp] theorem State.onGroup_waiting (s : State) (u : Nat) (f : Group → Group) : (s.onGroup u f).waiting = s.waiting := rfl
@[simp] theorem State.onGroup_upset (s : State) (u : Nat) (f : Group → Group) : (s.onGroup u f).upset = s.upset := rfl
@[simp] theorem State.onGroup_answer (s : State) (u : Nat) (f : Group → Group) : (s.onGroup u f).answer = s.answer := rfl
@[simp] theorem State.onGroup_capAnswer (s : State) (u : Nat) (f : Group → Group) : (s.onGroup u f).capAnswer = s.capAnswer := rfl
@[simp] theorem State.onGroup_cur (s : State) (u : Nat) (f : Group → Group) : (s.onGroup u f).cur = s.cur := rfl
@[simp] theorem State.onGroup_team? (s : State) (u : Nat) (f : Group → Group) (n : Nat) : (s.onGroup u f).team? n = s.team? n := rfl
@[simp] theorem State.onGroup_launch? (s : State) (u : Nat) (f : Group → Group) (n : Nat) : (s.onGroup u f).launch? n = s.launch? n := rfl
@[simp] theorem State.onGroup_part? (s : State) (u : Nat) (f : Group → Group) (n : Nat) : (s.onGroup u f).part? n = s.part? n := rfl
@[simp] theorem State.onGroup_ctx? (s : State) (u : Nat) (f : Group → Group) (n : Nat) : (s.onGroup u f).ctx? n = s.ctx? n := rfl
@[simp] theorem State.onGroup_group?_self (s : State) (u : Nat) (f : Group → Group) : (s.onGroup u f).group? u = (s.group? u).map f := Tab.find_modify_self _ _ _
theorem State.onGroup_group?_ne (s : State) (u : Nat) (f : Group → Group) {n : Nat} (h : n ≠ u) : (s.onGroup u f).group? n = s.group? n := Tab.find_modify_ne _ _ h

/-! ### `onTeam` changes `teams` alone -/

@[simp] theorem State.onTeam_mem (s : State) (u : Nat) (f : Team → Team) : (s.onTeam u f).mem = s.mem := rfl
@[simp] theorem State.onTeam_mtags (s : State) (u : Nat) (f : Team → Team) : (s.onTeam u f).mtags = s.mtags := rfl
@[simp] theorem State.onTeam_hostMem (s : State) (u : Nat) (f : Team → Team) : (s.onTeam u f).hostMem = s.hostMem := rfl
@[simp] theorem State.onTeam_peerMem (s : State) (u : Nat) (f : Team → Team) : (s.onTeam u f).peerMem = s.peerMem := rfl
@[simp] theorem State.onTeam_peerTags (s : State) (u : Nat) (f : Team → Team) : (s.onTeam u f).peerTags = s.peerTags := rfl
@[simp] theorem State.onTeam_sectors (s : State) (u : Nat) (f : Team → Team) : (s.onTeam u f).sectors = s.sectors := rfl
@[simp] theorem State.onTeam_pins (s : State) (u : Nat) (f : Team → Team) : (s.onTeam u f).pins = s.pins := rfl
@[simp] theorem State.onTeam_keys (s : State) (u : Nat) (f : Team → Team) : (s.onTeam u f).keys = s.keys := rfl
@[simp] theorem State.onTeam_ports (s : State) (u : Nat) (f : Team → Team) : (s.onTeam u f).ports = s.ports := rfl
@[simp] theorem State.onTeam_domain (s : State) (u : Nat) (f : Team → Team) : (s.onTeam u f).domain = s.domain := rfl
@[simp] theorem State.onTeam_pf (s : State) (u : Nat) (f : Team → Team) : (s.onTeam u f).pf = s.pf := rfl
@[simp] theorem State.onTeam_timebase (s : State) (u : Nat) (f : Team → Team) : (s.onTeam u f).timebase = s.timebase := rfl
@[simp] theorem State.onTeam_aclk (s : State) (u : Nat) (f : Team → Team) : (s.onTeam u f).aclk = s.aclk := rfl
@[simp] theorem State.onTeam_frac (s : State) (u : Nat) (f : Team → Team) : (s.onTeam u f).frac = s.frac := rfl
@[simp] theorem State.onTeam_parts (s : State) (u : Nat) (f : Team → Team) : (s.onTeam u f).parts = s.parts := rfl
@[simp] theorem State.onTeam_ctxs (s : State) (u : Nat) (f : Team → Team) : (s.onTeam u f).ctxs = s.ctxs := rfl
@[simp] theorem State.onTeam_launches (s : State) (u : Nat) (f : Team → Team) : (s.onTeam u f).launches = s.launches := rfl
@[simp] theorem State.onTeam_groups (s : State) (u : Nat) (f : Team → Team) : (s.onTeam u f).groups = s.groups := rfl
@[simp] theorem State.onTeam_saved (s : State) (u : Nat) (f : Team → Team) : (s.onTeam u f).saved = s.saved := rfl
@[simp] theorem State.onTeam_owned (s : State) (u : Nat) (f : Team → Team) : (s.onTeam u f).owned = s.owned := rfl
@[simp] theorem State.onTeam_copies (s : State) (u : Nat) (f : Team → Team) : (s.onTeam u f).copies = s.copies := rfl
@[simp] theorem State.onTeam_mats (s : State) (u : Nat) (f : Team → Team) : (s.onTeam u f).mats = s.mats := rfl
@[simp] theorem State.onTeam_latch (s : State) (u : Nat) (f : Team → Team) : (s.onTeam u f).latch = s.latch := rfl
@[simp] theorem State.onTeam_rounds (s : State) (u : Nat) (f : Team → Team) : (s.onTeam u f).rounds = s.rounds := rfl
@[simp] theorem State.onTeam_contribs (s : State) (u : Nat) (f : Team → Team) : (s.onTeam u f).contribs = s.contribs := rfl
@[simp] theorem State.onTeam_roundNo (s : State) (u : Nat) (f : Team → Team) : (s.onTeam u f).roundNo = s.roundNo := rfl
@[simp] theorem State.onTeam_unpub (s : State) (u : Nat) (f : Team → Team) : (s.onTeam u f).unpub = s.unpub := rfl
@[simp] theorem State.onTeam_posted (s : State) (u : Nat) (f : Team → Team) : (s.onTeam u f).posted = s.posted := rfl
@[simp] theorem State.onTeam_place (s : State) (u : Nat) (f : Team → Team) : (s.onTeam u f).place = s.place := rfl
@[simp] theorem State.onTeam_mgmtOps (s : State) (u : Nat) (f : Team → Team) : (s.onTeam u f).mgmtOps = s.mgmtOps := rfl
@[simp] theorem State.onTeam_icache (s : State) (u : Nat) (f : Team → Team) : (s.onTeam u f).icache = s.icache := rfl
@[simp] theorem State.onTeam_ocache (s : State) (u : Nat) (f : Team → Team) : (s.onTeam u f).ocache = s.ocache := rfl
@[simp] theorem State.onTeam_nextUid (s : State) (u : Nat) (f : Team → Team) : (s.onTeam u f).nextUid = s.nextUid := rfl
@[simp] theorem State.onTeam_free (s : State) (u : Nat) (f : Team → Team) : (s.onTeam u f).free = s.free := rfl
@[simp] theorem State.onTeam_lives (s : State) (u : Nat) (f : Team → Team) : (s.onTeam u f).lives = s.lives := rfl
@[simp] theorem State.onTeam_seeds (s : State) (u : Nat) (f : Team → Team) : (s.onTeam u f).seeds = s.seeds := rfl
@[simp] theorem State.onTeam_agenda (s : State) (u : Nat) (f : Team → Team) : (s.onTeam u f).agenda = s.agenda := rfl
@[simp] theorem State.onTeam_hooks (s : State) (u : Nat) (f : Team → Team) : (s.onTeam u f).hooks = s.hooks := rfl
@[simp] theorem State.onTeam_waiting (s : State) (u : Nat) (f : Team → Team) : (s.onTeam u f).waiting = s.waiting := rfl
@[simp] theorem State.onTeam_upset (s : State) (u : Nat) (f : Team → Team) : (s.onTeam u f).upset = s.upset := rfl
@[simp] theorem State.onTeam_answer (s : State) (u : Nat) (f : Team → Team) : (s.onTeam u f).answer = s.answer := rfl
@[simp] theorem State.onTeam_capAnswer (s : State) (u : Nat) (f : Team → Team) : (s.onTeam u f).capAnswer = s.capAnswer := rfl
@[simp] theorem State.onTeam_cur (s : State) (u : Nat) (f : Team → Team) : (s.onTeam u f).cur = s.cur := rfl
@[simp] theorem State.onTeam_group? (s : State) (u : Nat) (f : Team → Team) (n : Nat) : (s.onTeam u f).group? n = s.group? n := rfl
@[simp] theorem State.onTeam_launch? (s : State) (u : Nat) (f : Team → Team) (n : Nat) : (s.onTeam u f).launch? n = s.launch? n := rfl
@[simp] theorem State.onTeam_part? (s : State) (u : Nat) (f : Team → Team) (n : Nat) : (s.onTeam u f).part? n = s.part? n := rfl
@[simp] theorem State.onTeam_ctx? (s : State) (u : Nat) (f : Team → Team) (n : Nat) : (s.onTeam u f).ctx? n = s.ctx? n := rfl
@[simp] theorem State.onTeam_team?_self (s : State) (u : Nat) (f : Team → Team) : (s.onTeam u f).team? u = (s.team? u).map f := Tab.find_modify_self _ _ _
theorem State.onTeam_team?_ne (s : State) (u : Nat) (f : Team → Team) {n : Nat} (h : n ≠ u) : (s.onTeam u f).team? n = s.team? n := Tab.find_modify_ne _ _ h

/-! ### `onLaunch` changes `launches` alone -/

@[simp] theorem State.onLaunch_mem (s : State) (u : Nat) (f : Launch → Launch) : (s.onLaunch u f).mem = s.mem := rfl
@[simp] theorem State.onLaunch_mtags (s : State) (u : Nat) (f : Launch → Launch) : (s.onLaunch u f).mtags = s.mtags := rfl
@[simp] theorem State.onLaunch_hostMem (s : State) (u : Nat) (f : Launch → Launch) : (s.onLaunch u f).hostMem = s.hostMem := rfl
@[simp] theorem State.onLaunch_peerMem (s : State) (u : Nat) (f : Launch → Launch) : (s.onLaunch u f).peerMem = s.peerMem := rfl
@[simp] theorem State.onLaunch_peerTags (s : State) (u : Nat) (f : Launch → Launch) : (s.onLaunch u f).peerTags = s.peerTags := rfl
@[simp] theorem State.onLaunch_sectors (s : State) (u : Nat) (f : Launch → Launch) : (s.onLaunch u f).sectors = s.sectors := rfl
@[simp] theorem State.onLaunch_pins (s : State) (u : Nat) (f : Launch → Launch) : (s.onLaunch u f).pins = s.pins := rfl
@[simp] theorem State.onLaunch_keys (s : State) (u : Nat) (f : Launch → Launch) : (s.onLaunch u f).keys = s.keys := rfl
@[simp] theorem State.onLaunch_ports (s : State) (u : Nat) (f : Launch → Launch) : (s.onLaunch u f).ports = s.ports := rfl
@[simp] theorem State.onLaunch_domain (s : State) (u : Nat) (f : Launch → Launch) : (s.onLaunch u f).domain = s.domain := rfl
@[simp] theorem State.onLaunch_pf (s : State) (u : Nat) (f : Launch → Launch) : (s.onLaunch u f).pf = s.pf := rfl
@[simp] theorem State.onLaunch_timebase (s : State) (u : Nat) (f : Launch → Launch) : (s.onLaunch u f).timebase = s.timebase := rfl
@[simp] theorem State.onLaunch_aclk (s : State) (u : Nat) (f : Launch → Launch) : (s.onLaunch u f).aclk = s.aclk := rfl
@[simp] theorem State.onLaunch_frac (s : State) (u : Nat) (f : Launch → Launch) : (s.onLaunch u f).frac = s.frac := rfl
@[simp] theorem State.onLaunch_parts (s : State) (u : Nat) (f : Launch → Launch) : (s.onLaunch u f).parts = s.parts := rfl
@[simp] theorem State.onLaunch_ctxs (s : State) (u : Nat) (f : Launch → Launch) : (s.onLaunch u f).ctxs = s.ctxs := rfl
@[simp] theorem State.onLaunch_teams (s : State) (u : Nat) (f : Launch → Launch) : (s.onLaunch u f).teams = s.teams := rfl
@[simp] theorem State.onLaunch_groups (s : State) (u : Nat) (f : Launch → Launch) : (s.onLaunch u f).groups = s.groups := rfl
@[simp] theorem State.onLaunch_saved (s : State) (u : Nat) (f : Launch → Launch) : (s.onLaunch u f).saved = s.saved := rfl
@[simp] theorem State.onLaunch_owned (s : State) (u : Nat) (f : Launch → Launch) : (s.onLaunch u f).owned = s.owned := rfl
@[simp] theorem State.onLaunch_copies (s : State) (u : Nat) (f : Launch → Launch) : (s.onLaunch u f).copies = s.copies := rfl
@[simp] theorem State.onLaunch_mats (s : State) (u : Nat) (f : Launch → Launch) : (s.onLaunch u f).mats = s.mats := rfl
@[simp] theorem State.onLaunch_latch (s : State) (u : Nat) (f : Launch → Launch) : (s.onLaunch u f).latch = s.latch := rfl
@[simp] theorem State.onLaunch_rounds (s : State) (u : Nat) (f : Launch → Launch) : (s.onLaunch u f).rounds = s.rounds := rfl
@[simp] theorem State.onLaunch_contribs (s : State) (u : Nat) (f : Launch → Launch) : (s.onLaunch u f).contribs = s.contribs := rfl
@[simp] theorem State.onLaunch_roundNo (s : State) (u : Nat) (f : Launch → Launch) : (s.onLaunch u f).roundNo = s.roundNo := rfl
@[simp] theorem State.onLaunch_unpub (s : State) (u : Nat) (f : Launch → Launch) : (s.onLaunch u f).unpub = s.unpub := rfl
@[simp] theorem State.onLaunch_posted (s : State) (u : Nat) (f : Launch → Launch) : (s.onLaunch u f).posted = s.posted := rfl
@[simp] theorem State.onLaunch_place (s : State) (u : Nat) (f : Launch → Launch) : (s.onLaunch u f).place = s.place := rfl
@[simp] theorem State.onLaunch_mgmtOps (s : State) (u : Nat) (f : Launch → Launch) : (s.onLaunch u f).mgmtOps = s.mgmtOps := rfl
@[simp] theorem State.onLaunch_icache (s : State) (u : Nat) (f : Launch → Launch) : (s.onLaunch u f).icache = s.icache := rfl
@[simp] theorem State.onLaunch_ocache (s : State) (u : Nat) (f : Launch → Launch) : (s.onLaunch u f).ocache = s.ocache := rfl
@[simp] theorem State.onLaunch_nextUid (s : State) (u : Nat) (f : Launch → Launch) : (s.onLaunch u f).nextUid = s.nextUid := rfl
@[simp] theorem State.onLaunch_free (s : State) (u : Nat) (f : Launch → Launch) : (s.onLaunch u f).free = s.free := rfl
@[simp] theorem State.onLaunch_lives (s : State) (u : Nat) (f : Launch → Launch) : (s.onLaunch u f).lives = s.lives := rfl
@[simp] theorem State.onLaunch_seeds (s : State) (u : Nat) (f : Launch → Launch) : (s.onLaunch u f).seeds = s.seeds := rfl
@[simp] theorem State.onLaunch_agenda (s : State) (u : Nat) (f : Launch → Launch) : (s.onLaunch u f).agenda = s.agenda := rfl
@[simp] theorem State.onLaunch_hooks (s : State) (u : Nat) (f : Launch → Launch) : (s.onLaunch u f).hooks = s.hooks := rfl
@[simp] theorem State.onLaunch_waiting (s : State) (u : Nat) (f : Launch → Launch) : (s.onLaunch u f).waiting = s.waiting := rfl
@[simp] theorem State.onLaunch_upset (s : State) (u : Nat) (f : Launch → Launch) : (s.onLaunch u f).upset = s.upset := rfl
@[simp] theorem State.onLaunch_answer (s : State) (u : Nat) (f : Launch → Launch) : (s.onLaunch u f).answer = s.answer := rfl
@[simp] theorem State.onLaunch_capAnswer (s : State) (u : Nat) (f : Launch → Launch) : (s.onLaunch u f).capAnswer = s.capAnswer := rfl
@[simp] theorem State.onLaunch_cur (s : State) (u : Nat) (f : Launch → Launch) : (s.onLaunch u f).cur = s.cur := rfl
@[simp] theorem State.onLaunch_group? (s : State) (u : Nat) (f : Launch → Launch) (n : Nat) : (s.onLaunch u f).group? n = s.group? n := rfl
@[simp] theorem State.onLaunch_team? (s : State) (u : Nat) (f : Launch → Launch) (n : Nat) : (s.onLaunch u f).team? n = s.team? n := rfl
@[simp] theorem State.onLaunch_part? (s : State) (u : Nat) (f : Launch → Launch) (n : Nat) : (s.onLaunch u f).part? n = s.part? n := rfl
@[simp] theorem State.onLaunch_ctx? (s : State) (u : Nat) (f : Launch → Launch) (n : Nat) : (s.onLaunch u f).ctx? n = s.ctx? n := rfl
@[simp] theorem State.onLaunch_launch?_self (s : State) (u : Nat) (f : Launch → Launch) : (s.onLaunch u f).launch? u = (s.launch? u).map f := Tab.find_modify_self _ _ _
theorem State.onLaunch_launch?_ne (s : State) (u : Nat) (f : Launch → Launch) {n : Nat} (h : n ≠ u) : (s.onLaunch u f).launch? n = s.launch? n := Tab.find_modify_ne _ _ h

/-! ### `onPart` changes `parts` alone -/

@[simp] theorem State.onPart_mem (s : State) (p : Nat) (f : Part → Part) : (s.onPart p f).mem = s.mem := rfl
@[simp] theorem State.onPart_mtags (s : State) (p : Nat) (f : Part → Part) : (s.onPart p f).mtags = s.mtags := rfl
@[simp] theorem State.onPart_hostMem (s : State) (p : Nat) (f : Part → Part) : (s.onPart p f).hostMem = s.hostMem := rfl
@[simp] theorem State.onPart_peerMem (s : State) (p : Nat) (f : Part → Part) : (s.onPart p f).peerMem = s.peerMem := rfl
@[simp] theorem State.onPart_peerTags (s : State) (p : Nat) (f : Part → Part) : (s.onPart p f).peerTags = s.peerTags := rfl
@[simp] theorem State.onPart_sectors (s : State) (p : Nat) (f : Part → Part) : (s.onPart p f).sectors = s.sectors := rfl
@[simp] theorem State.onPart_pins (s : State) (p : Nat) (f : Part → Part) : (s.onPart p f).pins = s.pins := rfl
@[simp] theorem State.onPart_keys (s : State) (p : Nat) (f : Part → Part) : (s.onPart p f).keys = s.keys := rfl
@[simp] theorem State.onPart_ports (s : State) (p : Nat) (f : Part → Part) : (s.onPart p f).ports = s.ports := rfl
@[simp] theorem State.onPart_domain (s : State) (p : Nat) (f : Part → Part) : (s.onPart p f).domain = s.domain := rfl
@[simp] theorem State.onPart_pf (s : State) (p : Nat) (f : Part → Part) : (s.onPart p f).pf = s.pf := rfl
@[simp] theorem State.onPart_timebase (s : State) (p : Nat) (f : Part → Part) : (s.onPart p f).timebase = s.timebase := rfl
@[simp] theorem State.onPart_aclk (s : State) (p : Nat) (f : Part → Part) : (s.onPart p f).aclk = s.aclk := rfl
@[simp] theorem State.onPart_frac (s : State) (p : Nat) (f : Part → Part) : (s.onPart p f).frac = s.frac := rfl
@[simp] theorem State.onPart_ctxs (s : State) (p : Nat) (f : Part → Part) : (s.onPart p f).ctxs = s.ctxs := rfl
@[simp] theorem State.onPart_launches (s : State) (p : Nat) (f : Part → Part) : (s.onPart p f).launches = s.launches := rfl
@[simp] theorem State.onPart_teams (s : State) (p : Nat) (f : Part → Part) : (s.onPart p f).teams = s.teams := rfl
@[simp] theorem State.onPart_groups (s : State) (p : Nat) (f : Part → Part) : (s.onPart p f).groups = s.groups := rfl
@[simp] theorem State.onPart_saved (s : State) (p : Nat) (f : Part → Part) : (s.onPart p f).saved = s.saved := rfl
@[simp] theorem State.onPart_owned (s : State) (p : Nat) (f : Part → Part) : (s.onPart p f).owned = s.owned := rfl
@[simp] theorem State.onPart_copies (s : State) (p : Nat) (f : Part → Part) : (s.onPart p f).copies = s.copies := rfl
@[simp] theorem State.onPart_mats (s : State) (p : Nat) (f : Part → Part) : (s.onPart p f).mats = s.mats := rfl
@[simp] theorem State.onPart_latch (s : State) (p : Nat) (f : Part → Part) : (s.onPart p f).latch = s.latch := rfl
@[simp] theorem State.onPart_rounds (s : State) (p : Nat) (f : Part → Part) : (s.onPart p f).rounds = s.rounds := rfl
@[simp] theorem State.onPart_contribs (s : State) (p : Nat) (f : Part → Part) : (s.onPart p f).contribs = s.contribs := rfl
@[simp] theorem State.onPart_roundNo (s : State) (p : Nat) (f : Part → Part) : (s.onPart p f).roundNo = s.roundNo := rfl
@[simp] theorem State.onPart_unpub (s : State) (p : Nat) (f : Part → Part) : (s.onPart p f).unpub = s.unpub := rfl
@[simp] theorem State.onPart_posted (s : State) (p : Nat) (f : Part → Part) : (s.onPart p f).posted = s.posted := rfl
@[simp] theorem State.onPart_place (s : State) (p : Nat) (f : Part → Part) : (s.onPart p f).place = s.place := rfl
@[simp] theorem State.onPart_mgmtOps (s : State) (p : Nat) (f : Part → Part) : (s.onPart p f).mgmtOps = s.mgmtOps := rfl
@[simp] theorem State.onPart_icache (s : State) (p : Nat) (f : Part → Part) : (s.onPart p f).icache = s.icache := rfl
@[simp] theorem State.onPart_ocache (s : State) (p : Nat) (f : Part → Part) : (s.onPart p f).ocache = s.ocache := rfl
@[simp] theorem State.onPart_nextUid (s : State) (p : Nat) (f : Part → Part) : (s.onPart p f).nextUid = s.nextUid := rfl
@[simp] theorem State.onPart_free (s : State) (p : Nat) (f : Part → Part) : (s.onPart p f).free = s.free := rfl
@[simp] theorem State.onPart_lives (s : State) (p : Nat) (f : Part → Part) : (s.onPart p f).lives = s.lives := rfl
@[simp] theorem State.onPart_seeds (s : State) (p : Nat) (f : Part → Part) : (s.onPart p f).seeds = s.seeds := rfl
@[simp] theorem State.onPart_agenda (s : State) (p : Nat) (f : Part → Part) : (s.onPart p f).agenda = s.agenda := rfl
@[simp] theorem State.onPart_hooks (s : State) (p : Nat) (f : Part → Part) : (s.onPart p f).hooks = s.hooks := rfl
@[simp] theorem State.onPart_waiting (s : State) (p : Nat) (f : Part → Part) : (s.onPart p f).waiting = s.waiting := rfl
@[simp] theorem State.onPart_upset (s : State) (p : Nat) (f : Part → Part) : (s.onPart p f).upset = s.upset := rfl
@[simp] theorem State.onPart_answer (s : State) (p : Nat) (f : Part → Part) : (s.onPart p f).answer = s.answer := rfl
@[simp] theorem State.onPart_capAnswer (s : State) (p : Nat) (f : Part → Part) : (s.onPart p f).capAnswer = s.capAnswer := rfl
@[simp] theorem State.onPart_cur (s : State) (p : Nat) (f : Part → Part) : (s.onPart p f).cur = s.cur := rfl
@[simp] theorem State.onPart_group? (s : State) (p : Nat) (f : Part → Part) (n : Nat) : (s.onPart p f).group? n = s.group? n := rfl
@[simp] theorem State.onPart_team? (s : State) (p : Nat) (f : Part → Part) (n : Nat) : (s.onPart p f).team? n = s.team? n := rfl
@[simp] theorem State.onPart_launch? (s : State) (p : Nat) (f : Part → Part) (n : Nat) : (s.onPart p f).launch? n = s.launch? n := rfl
@[simp] theorem State.onPart_ctx? (s : State) (p : Nat) (f : Part → Part) (n : Nat) : (s.onPart p f).ctx? n = s.ctx? n := rfl
@[simp] theorem State.onPart_part?_self (s : State) (p : Nat) (f : Part → Part) : (s.onPart p f).part? p = (s.part? p).map f := Tab.find_modify_self _ _ _
theorem State.onPart_part?_ne (s : State) (p : Nat) (f : Part → Part) {n : Nat} (h : n ≠ p) : (s.onPart p f).part? n = s.part? n := Tab.find_modify_ne _ _ h

/-! ### `onCtx` changes `ctxs` alone -/

@[simp] theorem State.onCtx_mem (s : State) (a : Nat) (f : Context → Context) : (s.onCtx a f).mem = s.mem := rfl
@[simp] theorem State.onCtx_mtags (s : State) (a : Nat) (f : Context → Context) : (s.onCtx a f).mtags = s.mtags := rfl
@[simp] theorem State.onCtx_hostMem (s : State) (a : Nat) (f : Context → Context) : (s.onCtx a f).hostMem = s.hostMem := rfl
@[simp] theorem State.onCtx_peerMem (s : State) (a : Nat) (f : Context → Context) : (s.onCtx a f).peerMem = s.peerMem := rfl
@[simp] theorem State.onCtx_peerTags (s : State) (a : Nat) (f : Context → Context) : (s.onCtx a f).peerTags = s.peerTags := rfl
@[simp] theorem State.onCtx_sectors (s : State) (a : Nat) (f : Context → Context) : (s.onCtx a f).sectors = s.sectors := rfl
@[simp] theorem State.onCtx_pins (s : State) (a : Nat) (f : Context → Context) : (s.onCtx a f).pins = s.pins := rfl
@[simp] theorem State.onCtx_keys (s : State) (a : Nat) (f : Context → Context) : (s.onCtx a f).keys = s.keys := rfl
@[simp] theorem State.onCtx_ports (s : State) (a : Nat) (f : Context → Context) : (s.onCtx a f).ports = s.ports := rfl
@[simp] theorem State.onCtx_domain (s : State) (a : Nat) (f : Context → Context) : (s.onCtx a f).domain = s.domain := rfl
@[simp] theorem State.onCtx_pf (s : State) (a : Nat) (f : Context → Context) : (s.onCtx a f).pf = s.pf := rfl
@[simp] theorem State.onCtx_timebase (s : State) (a : Nat) (f : Context → Context) : (s.onCtx a f).timebase = s.timebase := rfl
@[simp] theorem State.onCtx_aclk (s : State) (a : Nat) (f : Context → Context) : (s.onCtx a f).aclk = s.aclk := rfl
@[simp] theorem State.onCtx_frac (s : State) (a : Nat) (f : Context → Context) : (s.onCtx a f).frac = s.frac := rfl
@[simp] theorem State.onCtx_parts (s : State) (a : Nat) (f : Context → Context) : (s.onCtx a f).parts = s.parts := rfl
@[simp] theorem State.onCtx_launches (s : State) (a : Nat) (f : Context → Context) : (s.onCtx a f).launches = s.launches := rfl
@[simp] theorem State.onCtx_teams (s : State) (a : Nat) (f : Context → Context) : (s.onCtx a f).teams = s.teams := rfl
@[simp] theorem State.onCtx_groups (s : State) (a : Nat) (f : Context → Context) : (s.onCtx a f).groups = s.groups := rfl
@[simp] theorem State.onCtx_saved (s : State) (a : Nat) (f : Context → Context) : (s.onCtx a f).saved = s.saved := rfl
@[simp] theorem State.onCtx_owned (s : State) (a : Nat) (f : Context → Context) : (s.onCtx a f).owned = s.owned := rfl
@[simp] theorem State.onCtx_copies (s : State) (a : Nat) (f : Context → Context) : (s.onCtx a f).copies = s.copies := rfl
@[simp] theorem State.onCtx_mats (s : State) (a : Nat) (f : Context → Context) : (s.onCtx a f).mats = s.mats := rfl
@[simp] theorem State.onCtx_latch (s : State) (a : Nat) (f : Context → Context) : (s.onCtx a f).latch = s.latch := rfl
@[simp] theorem State.onCtx_rounds (s : State) (a : Nat) (f : Context → Context) : (s.onCtx a f).rounds = s.rounds := rfl
@[simp] theorem State.onCtx_contribs (s : State) (a : Nat) (f : Context → Context) : (s.onCtx a f).contribs = s.contribs := rfl
@[simp] theorem State.onCtx_roundNo (s : State) (a : Nat) (f : Context → Context) : (s.onCtx a f).roundNo = s.roundNo := rfl
@[simp] theorem State.onCtx_unpub (s : State) (a : Nat) (f : Context → Context) : (s.onCtx a f).unpub = s.unpub := rfl
@[simp] theorem State.onCtx_posted (s : State) (a : Nat) (f : Context → Context) : (s.onCtx a f).posted = s.posted := rfl
@[simp] theorem State.onCtx_place (s : State) (a : Nat) (f : Context → Context) : (s.onCtx a f).place = s.place := rfl
@[simp] theorem State.onCtx_mgmtOps (s : State) (a : Nat) (f : Context → Context) : (s.onCtx a f).mgmtOps = s.mgmtOps := rfl
@[simp] theorem State.onCtx_icache (s : State) (a : Nat) (f : Context → Context) : (s.onCtx a f).icache = s.icache := rfl
@[simp] theorem State.onCtx_ocache (s : State) (a : Nat) (f : Context → Context) : (s.onCtx a f).ocache = s.ocache := rfl
@[simp] theorem State.onCtx_nextUid (s : State) (a : Nat) (f : Context → Context) : (s.onCtx a f).nextUid = s.nextUid := rfl
@[simp] theorem State.onCtx_free (s : State) (a : Nat) (f : Context → Context) : (s.onCtx a f).free = s.free := rfl
@[simp] theorem State.onCtx_lives (s : State) (a : Nat) (f : Context → Context) : (s.onCtx a f).lives = s.lives := rfl
@[simp] theorem State.onCtx_seeds (s : State) (a : Nat) (f : Context → Context) : (s.onCtx a f).seeds = s.seeds := rfl
@[simp] theorem State.onCtx_agenda (s : State) (a : Nat) (f : Context → Context) : (s.onCtx a f).agenda = s.agenda := rfl
@[simp] theorem State.onCtx_hooks (s : State) (a : Nat) (f : Context → Context) : (s.onCtx a f).hooks = s.hooks := rfl
@[simp] theorem State.onCtx_waiting (s : State) (a : Nat) (f : Context → Context) : (s.onCtx a f).waiting = s.waiting := rfl
@[simp] theorem State.onCtx_upset (s : State) (a : Nat) (f : Context → Context) : (s.onCtx a f).upset = s.upset := rfl
@[simp] theorem State.onCtx_answer (s : State) (a : Nat) (f : Context → Context) : (s.onCtx a f).answer = s.answer := rfl
@[simp] theorem State.onCtx_capAnswer (s : State) (a : Nat) (f : Context → Context) : (s.onCtx a f).capAnswer = s.capAnswer := rfl
@[simp] theorem State.onCtx_cur (s : State) (a : Nat) (f : Context → Context) : (s.onCtx a f).cur = s.cur := rfl
@[simp] theorem State.onCtx_group? (s : State) (a : Nat) (f : Context → Context) (n : Nat) : (s.onCtx a f).group? n = s.group? n := rfl
@[simp] theorem State.onCtx_team? (s : State) (a : Nat) (f : Context → Context) (n : Nat) : (s.onCtx a f).team? n = s.team? n := rfl
@[simp] theorem State.onCtx_launch? (s : State) (a : Nat) (f : Context → Context) (n : Nat) : (s.onCtx a f).launch? n = s.launch? n := rfl
@[simp] theorem State.onCtx_part? (s : State) (a : Nat) (f : Context → Context) (n : Nat) : (s.onCtx a f).part? n = s.part? n := rfl
@[simp] theorem State.onCtx_ctx?_self (s : State) (a : Nat) (f : Context → Context) : (s.onCtx a f).ctx? a = (s.ctx? a).map f := Tab.find_modify_self _ _ _
theorem State.onCtx_ctx?_ne (s : State) (a : Nat) (f : Context → Context) {n : Nat} (h : n ≠ a) : (s.onCtx a f).ctx? n = s.ctx? n := Tab.find_modify_ne _ _ h

/-! ### `putGroup` changes `groups` alone -/

@[simp] theorem State.putGroup_mem (s : State) (u : Nat) (g : Group) : (s.putGroup u g).mem = s.mem := rfl
@[simp] theorem State.putGroup_mtags (s : State) (u : Nat) (g : Group) : (s.putGroup u g).mtags = s.mtags := rfl
@[simp] theorem State.putGroup_hostMem (s : State) (u : Nat) (g : Group) : (s.putGroup u g).hostMem = s.hostMem := rfl
@[simp] theorem State.putGroup_peerMem (s : State) (u : Nat) (g : Group) : (s.putGroup u g).peerMem = s.peerMem := rfl
@[simp] theorem State.putGroup_peerTags (s : State) (u : Nat) (g : Group) : (s.putGroup u g).peerTags = s.peerTags := rfl
@[simp] theorem State.putGroup_sectors (s : State) (u : Nat) (g : Group) : (s.putGroup u g).sectors = s.sectors := rfl
@[simp] theorem State.putGroup_pins (s : State) (u : Nat) (g : Group) : (s.putGroup u g).pins = s.pins := rfl
@[simp] theorem State.putGroup_keys (s : State) (u : Nat) (g : Group) : (s.putGroup u g).keys = s.keys := rfl
@[simp] theorem State.putGroup_ports (s : State) (u : Nat) (g : Group) : (s.putGroup u g).ports = s.ports := rfl
@[simp] theorem State.putGroup_domain (s : State) (u : Nat) (g : Group) : (s.putGroup u g).domain = s.domain := rfl
@[simp] theorem State.putGroup_pf (s : State) (u : Nat) (g : Group) : (s.putGroup u g).pf = s.pf := rfl
@[simp] theorem State.putGroup_timebase (s : State) (u : Nat) (g : Group) : (s.putGroup u g).timebase = s.timebase := rfl
@[simp] theorem State.putGroup_aclk (s : State) (u : Nat) (g : Group) : (s.putGroup u g).aclk = s.aclk := rfl
@[simp] theorem State.putGroup_frac (s : State) (u : Nat) (g : Group) : (s.putGroup u g).frac = s.frac := rfl
@[simp] theorem State.putGroup_parts (s : State) (u : Nat) (g : Group) : (s.putGroup u g).parts = s.parts := rfl
@[simp] theorem State.putGroup_ctxs (s : State) (u : Nat) (g : Group) : (s.putGroup u g).ctxs = s.ctxs := rfl
@[simp] theorem State.putGroup_launches (s : State) (u : Nat) (g : Group) : (s.putGroup u g).launches = s.launches := rfl
@[simp] theorem State.putGroup_teams (s : State) (u : Nat) (g : Group) : (s.putGroup u g).teams = s.teams := rfl
@[simp] theorem State.putGroup_saved (s : State) (u : Nat) (g : Group) : (s.putGroup u g).saved = s.saved := rfl
@[simp] theorem State.putGroup_owned (s : State) (u : Nat) (g : Group) : (s.putGroup u g).owned = s.owned := rfl
@[simp] theorem State.putGroup_copies (s : State) (u : Nat) (g : Group) : (s.putGroup u g).copies = s.copies := rfl
@[simp] theorem State.putGroup_mats (s : State) (u : Nat) (g : Group) : (s.putGroup u g).mats = s.mats := rfl
@[simp] theorem State.putGroup_latch (s : State) (u : Nat) (g : Group) : (s.putGroup u g).latch = s.latch := rfl
@[simp] theorem State.putGroup_rounds (s : State) (u : Nat) (g : Group) : (s.putGroup u g).rounds = s.rounds := rfl
@[simp] theorem State.putGroup_contribs (s : State) (u : Nat) (g : Group) : (s.putGroup u g).contribs = s.contribs := rfl
@[simp] theorem State.putGroup_roundNo (s : State) (u : Nat) (g : Group) : (s.putGroup u g).roundNo = s.roundNo := rfl
@[simp] theorem State.putGroup_unpub (s : State) (u : Nat) (g : Group) : (s.putGroup u g).unpub = s.unpub := rfl
@[simp] theorem State.putGroup_posted (s : State) (u : Nat) (g : Group) : (s.putGroup u g).posted = s.posted := rfl
@[simp] theorem State.putGroup_place (s : State) (u : Nat) (g : Group) : (s.putGroup u g).place = s.place := rfl
@[simp] theorem State.putGroup_mgmtOps (s : State) (u : Nat) (g : Group) : (s.putGroup u g).mgmtOps = s.mgmtOps := rfl
@[simp] theorem State.putGroup_icache (s : State) (u : Nat) (g : Group) : (s.putGroup u g).icache = s.icache := rfl
@[simp] theorem State.putGroup_ocache (s : State) (u : Nat) (g : Group) : (s.putGroup u g).ocache = s.ocache := rfl
@[simp] theorem State.putGroup_nextUid (s : State) (u : Nat) (g : Group) : (s.putGroup u g).nextUid = s.nextUid := rfl
@[simp] theorem State.putGroup_free (s : State) (u : Nat) (g : Group) : (s.putGroup u g).free = s.free := rfl
@[simp] theorem State.putGroup_lives (s : State) (u : Nat) (g : Group) : (s.putGroup u g).lives = s.lives := rfl
@[simp] theorem State.putGroup_seeds (s : State) (u : Nat) (g : Group) : (s.putGroup u g).seeds = s.seeds := rfl
@[simp] theorem State.putGroup_agenda (s : State) (u : Nat) (g : Group) : (s.putGroup u g).agenda = s.agenda := rfl
@[simp] theorem State.putGroup_hooks (s : State) (u : Nat) (g : Group) : (s.putGroup u g).hooks = s.hooks := rfl
@[simp] theorem State.putGroup_waiting (s : State) (u : Nat) (g : Group) : (s.putGroup u g).waiting = s.waiting := rfl
@[simp] theorem State.putGroup_upset (s : State) (u : Nat) (g : Group) : (s.putGroup u g).upset = s.upset := rfl
@[simp] theorem State.putGroup_answer (s : State) (u : Nat) (g : Group) : (s.putGroup u g).answer = s.answer := rfl
@[simp] theorem State.putGroup_capAnswer (s : State) (u : Nat) (g : Group) : (s.putGroup u g).capAnswer = s.capAnswer := rfl
@[simp] theorem State.putGroup_cur (s : State) (u : Nat) (g : Group) : (s.putGroup u g).cur = s.cur := rfl
@[simp] theorem State.putGroup_team? (s : State) (u : Nat) (g : Group) (n : Nat) : (s.putGroup u g).team? n = s.team? n := rfl
@[simp] theorem State.putGroup_launch? (s : State) (u : Nat) (g : Group) (n : Nat) : (s.putGroup u g).launch? n = s.launch? n := rfl
@[simp] theorem State.putGroup_part? (s : State) (u : Nat) (g : Group) (n : Nat) : (s.putGroup u g).part? n = s.part? n := rfl
@[simp] theorem State.putGroup_ctx? (s : State) (u : Nat) (g : Group) (n : Nat) : (s.putGroup u g).ctx? n = s.ctx? n := rfl
@[simp] theorem State.putGroup_group?_self (s : State) (u : Nat) (g : Group) : (s.putGroup u g).group? u = some g := Tab.find_put_self _ _ _
theorem State.putGroup_group?_ne (s : State) (u : Nat) (g : Group) {n : Nat} (h : n ≠ u) : (s.putGroup u g).group? n = s.group? n := Tab.find_put_ne _ _ h

/-! ### `putTeam` changes `teams` alone -/

@[simp] theorem State.putTeam_mem (s : State) (u : Nat) (t : Team) : (s.putTeam u t).mem = s.mem := rfl
@[simp] theorem State.putTeam_mtags (s : State) (u : Nat) (t : Team) : (s.putTeam u t).mtags = s.mtags := rfl
@[simp] theorem State.putTeam_hostMem (s : State) (u : Nat) (t : Team) : (s.putTeam u t).hostMem = s.hostMem := rfl
@[simp] theorem State.putTeam_peerMem (s : State) (u : Nat) (t : Team) : (s.putTeam u t).peerMem = s.peerMem := rfl
@[simp] theorem State.putTeam_peerTags (s : State) (u : Nat) (t : Team) : (s.putTeam u t).peerTags = s.peerTags := rfl
@[simp] theorem State.putTeam_sectors (s : State) (u : Nat) (t : Team) : (s.putTeam u t).sectors = s.sectors := rfl
@[simp] theorem State.putTeam_pins (s : State) (u : Nat) (t : Team) : (s.putTeam u t).pins = s.pins := rfl
@[simp] theorem State.putTeam_keys (s : State) (u : Nat) (t : Team) : (s.putTeam u t).keys = s.keys := rfl
@[simp] theorem State.putTeam_ports (s : State) (u : Nat) (t : Team) : (s.putTeam u t).ports = s.ports := rfl
@[simp] theorem State.putTeam_domain (s : State) (u : Nat) (t : Team) : (s.putTeam u t).domain = s.domain := rfl
@[simp] theorem State.putTeam_pf (s : State) (u : Nat) (t : Team) : (s.putTeam u t).pf = s.pf := rfl
@[simp] theorem State.putTeam_timebase (s : State) (u : Nat) (t : Team) : (s.putTeam u t).timebase = s.timebase := rfl
@[simp] theorem State.putTeam_aclk (s : State) (u : Nat) (t : Team) : (s.putTeam u t).aclk = s.aclk := rfl
@[simp] theorem State.putTeam_frac (s : State) (u : Nat) (t : Team) : (s.putTeam u t).frac = s.frac := rfl
@[simp] theorem State.putTeam_parts (s : State) (u : Nat) (t : Team) : (s.putTeam u t).parts = s.parts := rfl
@[simp] theorem State.putTeam_ctxs (s : State) (u : Nat) (t : Team) : (s.putTeam u t).ctxs = s.ctxs := rfl
@[simp] theorem State.putTeam_launches (s : State) (u : Nat) (t : Team) : (s.putTeam u t).launches = s.launches := rfl
@[simp] theorem State.putTeam_groups (s : State) (u : Nat) (t : Team) : (s.putTeam u t).groups = s.groups := rfl
@[simp] theorem State.putTeam_saved (s : State) (u : Nat) (t : Team) : (s.putTeam u t).saved = s.saved := rfl
@[simp] theorem State.putTeam_owned (s : State) (u : Nat) (t : Team) : (s.putTeam u t).owned = s.owned := rfl
@[simp] theorem State.putTeam_copies (s : State) (u : Nat) (t : Team) : (s.putTeam u t).copies = s.copies := rfl
@[simp] theorem State.putTeam_mats (s : State) (u : Nat) (t : Team) : (s.putTeam u t).mats = s.mats := rfl
@[simp] theorem State.putTeam_latch (s : State) (u : Nat) (t : Team) : (s.putTeam u t).latch = s.latch := rfl
@[simp] theorem State.putTeam_rounds (s : State) (u : Nat) (t : Team) : (s.putTeam u t).rounds = s.rounds := rfl
@[simp] theorem State.putTeam_contribs (s : State) (u : Nat) (t : Team) : (s.putTeam u t).contribs = s.contribs := rfl
@[simp] theorem State.putTeam_roundNo (s : State) (u : Nat) (t : Team) : (s.putTeam u t).roundNo = s.roundNo := rfl
@[simp] theorem State.putTeam_unpub (s : State) (u : Nat) (t : Team) : (s.putTeam u t).unpub = s.unpub := rfl
@[simp] theorem State.putTeam_posted (s : State) (u : Nat) (t : Team) : (s.putTeam u t).posted = s.posted := rfl
@[simp] theorem State.putTeam_place (s : State) (u : Nat) (t : Team) : (s.putTeam u t).place = s.place := rfl
@[simp] theorem State.putTeam_mgmtOps (s : State) (u : Nat) (t : Team) : (s.putTeam u t).mgmtOps = s.mgmtOps := rfl
@[simp] theorem State.putTeam_icache (s : State) (u : Nat) (t : Team) : (s.putTeam u t).icache = s.icache := rfl
@[simp] theorem State.putTeam_ocache (s : State) (u : Nat) (t : Team) : (s.putTeam u t).ocache = s.ocache := rfl
@[simp] theorem State.putTeam_nextUid (s : State) (u : Nat) (t : Team) : (s.putTeam u t).nextUid = s.nextUid := rfl
@[simp] theorem State.putTeam_free (s : State) (u : Nat) (t : Team) : (s.putTeam u t).free = s.free := rfl
@[simp] theorem State.putTeam_lives (s : State) (u : Nat) (t : Team) : (s.putTeam u t).lives = s.lives := rfl
@[simp] theorem State.putTeam_seeds (s : State) (u : Nat) (t : Team) : (s.putTeam u t).seeds = s.seeds := rfl
@[simp] theorem State.putTeam_agenda (s : State) (u : Nat) (t : Team) : (s.putTeam u t).agenda = s.agenda := rfl
@[simp] theorem State.putTeam_hooks (s : State) (u : Nat) (t : Team) : (s.putTeam u t).hooks = s.hooks := rfl
@[simp] theorem State.putTeam_waiting (s : State) (u : Nat) (t : Team) : (s.putTeam u t).waiting = s.waiting := rfl
@[simp] theorem State.putTeam_upset (s : State) (u : Nat) (t : Team) : (s.putTeam u t).upset = s.upset := rfl
@[simp] theorem State.putTeam_answer (s : State) (u : Nat) (t : Team) : (s.putTeam u t).answer = s.answer := rfl
@[simp] theorem State.putTeam_capAnswer (s : State) (u : Nat) (t : Team) : (s.putTeam u t).capAnswer = s.capAnswer := rfl
@[simp] theorem State.putTeam_cur (s : State) (u : Nat) (t : Team) : (s.putTeam u t).cur = s.cur := rfl
@[simp] theorem State.putTeam_group? (s : State) (u : Nat) (t : Team) (n : Nat) : (s.putTeam u t).group? n = s.group? n := rfl
@[simp] theorem State.putTeam_launch? (s : State) (u : Nat) (t : Team) (n : Nat) : (s.putTeam u t).launch? n = s.launch? n := rfl
@[simp] theorem State.putTeam_part? (s : State) (u : Nat) (t : Team) (n : Nat) : (s.putTeam u t).part? n = s.part? n := rfl
@[simp] theorem State.putTeam_ctx? (s : State) (u : Nat) (t : Team) (n : Nat) : (s.putTeam u t).ctx? n = s.ctx? n := rfl
@[simp] theorem State.putTeam_team?_self (s : State) (u : Nat) (t : Team) : (s.putTeam u t).team? u = some t := Tab.find_put_self _ _ _
theorem State.putTeam_team?_ne (s : State) (u : Nat) (t : Team) {n : Nat} (h : n ≠ u) : (s.putTeam u t).team? n = s.team? n := Tab.find_put_ne _ _ h

/-! ### `putLaunch` changes `launches` alone -/

@[simp] theorem State.putLaunch_mem (s : State) (u : Nat) (l : Launch) : (s.putLaunch u l).mem = s.mem := rfl
@[simp] theorem State.putLaunch_mtags (s : State) (u : Nat) (l : Launch) : (s.putLaunch u l).mtags = s.mtags := rfl
@[simp] theorem State.putLaunch_hostMem (s : State) (u : Nat) (l : Launch) : (s.putLaunch u l).hostMem = s.hostMem := rfl
@[simp] theorem State.putLaunch_peerMem (s : State) (u : Nat) (l : Launch) : (s.putLaunch u l).peerMem = s.peerMem := rfl
@[simp] theorem State.putLaunch_peerTags (s : State) (u : Nat) (l : Launch) : (s.putLaunch u l).peerTags = s.peerTags := rfl
@[simp] theorem State.putLaunch_sectors (s : State) (u : Nat) (l : Launch) : (s.putLaunch u l).sectors = s.sectors := rfl
@[simp] theorem State.putLaunch_pins (s : State) (u : Nat) (l : Launch) : (s.putLaunch u l).pins = s.pins := rfl
@[simp] theorem State.putLaunch_keys (s : State) (u : Nat) (l : Launch) : (s.putLaunch u l).keys = s.keys := rfl
@[simp] theorem State.putLaunch_ports (s : State) (u : Nat) (l : Launch) : (s.putLaunch u l).ports = s.ports := rfl
@[simp] theorem State.putLaunch_domain (s : State) (u : Nat) (l : Launch) : (s.putLaunch u l).domain = s.domain := rfl
@[simp] theorem State.putLaunch_pf (s : State) (u : Nat) (l : Launch) : (s.putLaunch u l).pf = s.pf := rfl
@[simp] theorem State.putLaunch_timebase (s : State) (u : Nat) (l : Launch) : (s.putLaunch u l).timebase = s.timebase := rfl
@[simp] theorem State.putLaunch_aclk (s : State) (u : Nat) (l : Launch) : (s.putLaunch u l).aclk = s.aclk := rfl
@[simp] theorem State.putLaunch_frac (s : State) (u : Nat) (l : Launch) : (s.putLaunch u l).frac = s.frac := rfl
@[simp] theorem State.putLaunch_parts (s : State) (u : Nat) (l : Launch) : (s.putLaunch u l).parts = s.parts := rfl
@[simp] theorem State.putLaunch_ctxs (s : State) (u : Nat) (l : Launch) : (s.putLaunch u l).ctxs = s.ctxs := rfl
@[simp] theorem State.putLaunch_teams (s : State) (u : Nat) (l : Launch) : (s.putLaunch u l).teams = s.teams := rfl
@[simp] theorem State.putLaunch_groups (s : State) (u : Nat) (l : Launch) : (s.putLaunch u l).groups = s.groups := rfl
@[simp] theorem State.putLaunch_saved (s : State) (u : Nat) (l : Launch) : (s.putLaunch u l).saved = s.saved := rfl
@[simp] theorem State.putLaunch_owned (s : State) (u : Nat) (l : Launch) : (s.putLaunch u l).owned = s.owned := rfl
@[simp] theorem State.putLaunch_copies (s : State) (u : Nat) (l : Launch) : (s.putLaunch u l).copies = s.copies := rfl
@[simp] theorem State.putLaunch_mats (s : State) (u : Nat) (l : Launch) : (s.putLaunch u l).mats = s.mats := rfl
@[simp] theorem State.putLaunch_latch (s : State) (u : Nat) (l : Launch) : (s.putLaunch u l).latch = s.latch := rfl
@[simp] theorem State.putLaunch_rounds (s : State) (u : Nat) (l : Launch) : (s.putLaunch u l).rounds = s.rounds := rfl
@[simp] theorem State.putLaunch_contribs (s : State) (u : Nat) (l : Launch) : (s.putLaunch u l).contribs = s.contribs := rfl
@[simp] theorem State.putLaunch_roundNo (s : State) (u : Nat) (l : Launch) : (s.putLaunch u l).roundNo = s.roundNo := rfl
@[simp] theorem State.putLaunch_unpub (s : State) (u : Nat) (l : Launch) : (s.putLaunch u l).unpub = s.unpub := rfl
@[simp] theorem State.putLaunch_posted (s : State) (u : Nat) (l : Launch) : (s.putLaunch u l).posted = s.posted := rfl
@[simp] theorem State.putLaunch_place (s : State) (u : Nat) (l : Launch) : (s.putLaunch u l).place = s.place := rfl
@[simp] theorem State.putLaunch_mgmtOps (s : State) (u : Nat) (l : Launch) : (s.putLaunch u l).mgmtOps = s.mgmtOps := rfl
@[simp] theorem State.putLaunch_icache (s : State) (u : Nat) (l : Launch) : (s.putLaunch u l).icache = s.icache := rfl
@[simp] theorem State.putLaunch_ocache (s : State) (u : Nat) (l : Launch) : (s.putLaunch u l).ocache = s.ocache := rfl
@[simp] theorem State.putLaunch_nextUid (s : State) (u : Nat) (l : Launch) : (s.putLaunch u l).nextUid = s.nextUid := rfl
@[simp] theorem State.putLaunch_free (s : State) (u : Nat) (l : Launch) : (s.putLaunch u l).free = s.free := rfl
@[simp] theorem State.putLaunch_lives (s : State) (u : Nat) (l : Launch) : (s.putLaunch u l).lives = s.lives := rfl
@[simp] theorem State.putLaunch_seeds (s : State) (u : Nat) (l : Launch) : (s.putLaunch u l).seeds = s.seeds := rfl
@[simp] theorem State.putLaunch_agenda (s : State) (u : Nat) (l : Launch) : (s.putLaunch u l).agenda = s.agenda := rfl
@[simp] theorem State.putLaunch_hooks (s : State) (u : Nat) (l : Launch) : (s.putLaunch u l).hooks = s.hooks := rfl
@[simp] theorem State.putLaunch_waiting (s : State) (u : Nat) (l : Launch) : (s.putLaunch u l).waiting = s.waiting := rfl
@[simp] theorem State.putLaunch_upset (s : State) (u : Nat) (l : Launch) : (s.putLaunch u l).upset = s.upset := rfl
@[simp] theorem State.putLaunch_answer (s : State) (u : Nat) (l : Launch) : (s.putLaunch u l).answer = s.answer := rfl
@[simp] theorem State.putLaunch_capAnswer (s : State) (u : Nat) (l : Launch) : (s.putLaunch u l).capAnswer = s.capAnswer := rfl
@[simp] theorem State.putLaunch_cur (s : State) (u : Nat) (l : Launch) : (s.putLaunch u l).cur = s.cur := rfl
@[simp] theorem State.putLaunch_group? (s : State) (u : Nat) (l : Launch) (n : Nat) : (s.putLaunch u l).group? n = s.group? n := rfl
@[simp] theorem State.putLaunch_team? (s : State) (u : Nat) (l : Launch) (n : Nat) : (s.putLaunch u l).team? n = s.team? n := rfl
@[simp] theorem State.putLaunch_part? (s : State) (u : Nat) (l : Launch) (n : Nat) : (s.putLaunch u l).part? n = s.part? n := rfl
@[simp] theorem State.putLaunch_ctx? (s : State) (u : Nat) (l : Launch) (n : Nat) : (s.putLaunch u l).ctx? n = s.ctx? n := rfl
@[simp] theorem State.putLaunch_launch?_self (s : State) (u : Nat) (l : Launch) : (s.putLaunch u l).launch? u = some l := Tab.find_put_self _ _ _
theorem State.putLaunch_launch?_ne (s : State) (u : Nat) (l : Launch) {n : Nat} (h : n ≠ u) : (s.putLaunch u l).launch? n = s.launch? n := Tab.find_put_ne _ _ h

/-! ### `putPart` changes `parts` alone -/

@[simp] theorem State.putPart_mem (s : State) (p : Nat) (x : Part) : (s.putPart p x).mem = s.mem := rfl
@[simp] theorem State.putPart_mtags (s : State) (p : Nat) (x : Part) : (s.putPart p x).mtags = s.mtags := rfl
@[simp] theorem State.putPart_hostMem (s : State) (p : Nat) (x : Part) : (s.putPart p x).hostMem = s.hostMem := rfl
@[simp] theorem State.putPart_peerMem (s : State) (p : Nat) (x : Part) : (s.putPart p x).peerMem = s.peerMem := rfl
@[simp] theorem State.putPart_peerTags (s : State) (p : Nat) (x : Part) : (s.putPart p x).peerTags = s.peerTags := rfl
@[simp] theorem State.putPart_sectors (s : State) (p : Nat) (x : Part) : (s.putPart p x).sectors = s.sectors := rfl
@[simp] theorem State.putPart_pins (s : State) (p : Nat) (x : Part) : (s.putPart p x).pins = s.pins := rfl
@[simp] theorem State.putPart_keys (s : State) (p : Nat) (x : Part) : (s.putPart p x).keys = s.keys := rfl
@[simp] theorem State.putPart_ports (s : State) (p : Nat) (x : Part) : (s.putPart p x).ports = s.ports := rfl
@[simp] theorem State.putPart_domain (s : State) (p : Nat) (x : Part) : (s.putPart p x).domain = s.domain := rfl
@[simp] theorem State.putPart_pf (s : State) (p : Nat) (x : Part) : (s.putPart p x).pf = s.pf := rfl
@[simp] theorem State.putPart_timebase (s : State) (p : Nat) (x : Part) : (s.putPart p x).timebase = s.timebase := rfl
@[simp] theorem State.putPart_aclk (s : State) (p : Nat) (x : Part) : (s.putPart p x).aclk = s.aclk := rfl
@[simp] theorem State.putPart_frac (s : State) (p : Nat) (x : Part) : (s.putPart p x).frac = s.frac := rfl
@[simp] theorem State.putPart_ctxs (s : State) (p : Nat) (x : Part) : (s.putPart p x).ctxs = s.ctxs := rfl
@[simp] theorem State.putPart_launches (s : State) (p : Nat) (x : Part) : (s.putPart p x).launches = s.launches := rfl
@[simp] theorem State.putPart_teams (s : State) (p : Nat) (x : Part) : (s.putPart p x).teams = s.teams := rfl
@[simp] theorem State.putPart_groups (s : State) (p : Nat) (x : Part) : (s.putPart p x).groups = s.groups := rfl
@[simp] theorem State.putPart_saved (s : State) (p : Nat) (x : Part) : (s.putPart p x).saved = s.saved := rfl
@[simp] theorem State.putPart_owned (s : State) (p : Nat) (x : Part) : (s.putPart p x).owned = s.owned := rfl
@[simp] theorem State.putPart_copies (s : State) (p : Nat) (x : Part) : (s.putPart p x).copies = s.copies := rfl
@[simp] theorem State.putPart_mats (s : State) (p : Nat) (x : Part) : (s.putPart p x).mats = s.mats := rfl
@[simp] theorem State.putPart_latch (s : State) (p : Nat) (x : Part) : (s.putPart p x).latch = s.latch := rfl
@[simp] theorem State.putPart_rounds (s : State) (p : Nat) (x : Part) : (s.putPart p x).rounds = s.rounds := rfl
@[simp] theorem State.putPart_contribs (s : State) (p : Nat) (x : Part) : (s.putPart p x).contribs = s.contribs := rfl
@[simp] theorem State.putPart_roundNo (s : State) (p : Nat) (x : Part) : (s.putPart p x).roundNo = s.roundNo := rfl
@[simp] theorem State.putPart_unpub (s : State) (p : Nat) (x : Part) : (s.putPart p x).unpub = s.unpub := rfl
@[simp] theorem State.putPart_posted (s : State) (p : Nat) (x : Part) : (s.putPart p x).posted = s.posted := rfl
@[simp] theorem State.putPart_place (s : State) (p : Nat) (x : Part) : (s.putPart p x).place = s.place := rfl
@[simp] theorem State.putPart_mgmtOps (s : State) (p : Nat) (x : Part) : (s.putPart p x).mgmtOps = s.mgmtOps := rfl
@[simp] theorem State.putPart_icache (s : State) (p : Nat) (x : Part) : (s.putPart p x).icache = s.icache := rfl
@[simp] theorem State.putPart_ocache (s : State) (p : Nat) (x : Part) : (s.putPart p x).ocache = s.ocache := rfl
@[simp] theorem State.putPart_nextUid (s : State) (p : Nat) (x : Part) : (s.putPart p x).nextUid = s.nextUid := rfl
@[simp] theorem State.putPart_free (s : State) (p : Nat) (x : Part) : (s.putPart p x).free = s.free := rfl
@[simp] theorem State.putPart_lives (s : State) (p : Nat) (x : Part) : (s.putPart p x).lives = s.lives := rfl
@[simp] theorem State.putPart_seeds (s : State) (p : Nat) (x : Part) : (s.putPart p x).seeds = s.seeds := rfl
@[simp] theorem State.putPart_agenda (s : State) (p : Nat) (x : Part) : (s.putPart p x).agenda = s.agenda := rfl
@[simp] theorem State.putPart_hooks (s : State) (p : Nat) (x : Part) : (s.putPart p x).hooks = s.hooks := rfl
@[simp] theorem State.putPart_waiting (s : State) (p : Nat) (x : Part) : (s.putPart p x).waiting = s.waiting := rfl
@[simp] theorem State.putPart_upset (s : State) (p : Nat) (x : Part) : (s.putPart p x).upset = s.upset := rfl
@[simp] theorem State.putPart_answer (s : State) (p : Nat) (x : Part) : (s.putPart p x).answer = s.answer := rfl
@[simp] theorem State.putPart_capAnswer (s : State) (p : Nat) (x : Part) : (s.putPart p x).capAnswer = s.capAnswer := rfl
@[simp] theorem State.putPart_cur (s : State) (p : Nat) (x : Part) : (s.putPart p x).cur = s.cur := rfl
@[simp] theorem State.putPart_group? (s : State) (p : Nat) (x : Part) (n : Nat) : (s.putPart p x).group? n = s.group? n := rfl
@[simp] theorem State.putPart_team? (s : State) (p : Nat) (x : Part) (n : Nat) : (s.putPart p x).team? n = s.team? n := rfl
@[simp] theorem State.putPart_launch? (s : State) (p : Nat) (x : Part) (n : Nat) : (s.putPart p x).launch? n = s.launch? n := rfl
@[simp] theorem State.putPart_ctx? (s : State) (p : Nat) (x : Part) (n : Nat) : (s.putPart p x).ctx? n = s.ctx? n := rfl
@[simp] theorem State.putPart_part?_self (s : State) (p : Nat) (x : Part) : (s.putPart p x).part? p = some x := Tab.find_put_self _ _ _
theorem State.putPart_part?_ne (s : State) (p : Nat) (x : Part) {n : Nat} (h : n ≠ p) : (s.putPart p x).part? n = s.part? n := Tab.find_put_ne _ _ h

/-! ### `putCtx` changes `ctxs` alone -/

@[simp] theorem State.putCtx_mem (s : State) (a : Nat) (c : Context) : (s.putCtx a c).mem = s.mem := rfl
@[simp] theorem State.putCtx_mtags (s : State) (a : Nat) (c : Context) : (s.putCtx a c).mtags = s.mtags := rfl
@[simp] theorem State.putCtx_hostMem (s : State) (a : Nat) (c : Context) : (s.putCtx a c).hostMem = s.hostMem := rfl
@[simp] theorem State.putCtx_peerMem (s : State) (a : Nat) (c : Context) : (s.putCtx a c).peerMem = s.peerMem := rfl
@[simp] theorem State.putCtx_peerTags (s : State) (a : Nat) (c : Context) : (s.putCtx a c).peerTags = s.peerTags := rfl
@[simp] theorem State.putCtx_sectors (s : State) (a : Nat) (c : Context) : (s.putCtx a c).sectors = s.sectors := rfl
@[simp] theorem State.putCtx_pins (s : State) (a : Nat) (c : Context) : (s.putCtx a c).pins = s.pins := rfl
@[simp] theorem State.putCtx_keys (s : State) (a : Nat) (c : Context) : (s.putCtx a c).keys = s.keys := rfl
@[simp] theorem State.putCtx_ports (s : State) (a : Nat) (c : Context) : (s.putCtx a c).ports = s.ports := rfl
@[simp] theorem State.putCtx_domain (s : State) (a : Nat) (c : Context) : (s.putCtx a c).domain = s.domain := rfl
@[simp] theorem State.putCtx_pf (s : State) (a : Nat) (c : Context) : (s.putCtx a c).pf = s.pf := rfl
@[simp] theorem State.putCtx_timebase (s : State) (a : Nat) (c : Context) : (s.putCtx a c).timebase = s.timebase := rfl
@[simp] theorem State.putCtx_aclk (s : State) (a : Nat) (c : Context) : (s.putCtx a c).aclk = s.aclk := rfl
@[simp] theorem State.putCtx_frac (s : State) (a : Nat) (c : Context) : (s.putCtx a c).frac = s.frac := rfl
@[simp] theorem State.putCtx_parts (s : State) (a : Nat) (c : Context) : (s.putCtx a c).parts = s.parts := rfl
@[simp] theorem State.putCtx_launches (s : State) (a : Nat) (c : Context) : (s.putCtx a c).launches = s.launches := rfl
@[simp] theorem State.putCtx_teams (s : State) (a : Nat) (c : Context) : (s.putCtx a c).teams = s.teams := rfl
@[simp] theorem State.putCtx_groups (s : State) (a : Nat) (c : Context) : (s.putCtx a c).groups = s.groups := rfl
@[simp] theorem State.putCtx_saved (s : State) (a : Nat) (c : Context) : (s.putCtx a c).saved = s.saved := rfl
@[simp] theorem State.putCtx_owned (s : State) (a : Nat) (c : Context) : (s.putCtx a c).owned = s.owned := rfl
@[simp] theorem State.putCtx_copies (s : State) (a : Nat) (c : Context) : (s.putCtx a c).copies = s.copies := rfl
@[simp] theorem State.putCtx_mats (s : State) (a : Nat) (c : Context) : (s.putCtx a c).mats = s.mats := rfl
@[simp] theorem State.putCtx_latch (s : State) (a : Nat) (c : Context) : (s.putCtx a c).latch = s.latch := rfl
@[simp] theorem State.putCtx_rounds (s : State) (a : Nat) (c : Context) : (s.putCtx a c).rounds = s.rounds := rfl
@[simp] theorem State.putCtx_contribs (s : State) (a : Nat) (c : Context) : (s.putCtx a c).contribs = s.contribs := rfl
@[simp] theorem State.putCtx_roundNo (s : State) (a : Nat) (c : Context) : (s.putCtx a c).roundNo = s.roundNo := rfl
@[simp] theorem State.putCtx_unpub (s : State) (a : Nat) (c : Context) : (s.putCtx a c).unpub = s.unpub := rfl
@[simp] theorem State.putCtx_posted (s : State) (a : Nat) (c : Context) : (s.putCtx a c).posted = s.posted := rfl
@[simp] theorem State.putCtx_place (s : State) (a : Nat) (c : Context) : (s.putCtx a c).place = s.place := rfl
@[simp] theorem State.putCtx_mgmtOps (s : State) (a : Nat) (c : Context) : (s.putCtx a c).mgmtOps = s.mgmtOps := rfl
@[simp] theorem State.putCtx_icache (s : State) (a : Nat) (c : Context) : (s.putCtx a c).icache = s.icache := rfl
@[simp] theorem State.putCtx_ocache (s : State) (a : Nat) (c : Context) : (s.putCtx a c).ocache = s.ocache := rfl
@[simp] theorem State.putCtx_nextUid (s : State) (a : Nat) (c : Context) : (s.putCtx a c).nextUid = s.nextUid := rfl
@[simp] theorem State.putCtx_free (s : State) (a : Nat) (c : Context) : (s.putCtx a c).free = s.free := rfl
@[simp] theorem State.putCtx_lives (s : State) (a : Nat) (c : Context) : (s.putCtx a c).lives = s.lives := rfl
@[simp] theorem State.putCtx_seeds (s : State) (a : Nat) (c : Context) : (s.putCtx a c).seeds = s.seeds := rfl
@[simp] theorem State.putCtx_agenda (s : State) (a : Nat) (c : Context) : (s.putCtx a c).agenda = s.agenda := rfl
@[simp] theorem State.putCtx_hooks (s : State) (a : Nat) (c : Context) : (s.putCtx a c).hooks = s.hooks := rfl
@[simp] theorem State.putCtx_waiting (s : State) (a : Nat) (c : Context) : (s.putCtx a c).waiting = s.waiting := rfl
@[simp] theorem State.putCtx_upset (s : State) (a : Nat) (c : Context) : (s.putCtx a c).upset = s.upset := rfl
@[simp] theorem State.putCtx_answer (s : State) (a : Nat) (c : Context) : (s.putCtx a c).answer = s.answer := rfl
@[simp] theorem State.putCtx_capAnswer (s : State) (a : Nat) (c : Context) : (s.putCtx a c).capAnswer = s.capAnswer := rfl
@[simp] theorem State.putCtx_cur (s : State) (a : Nat) (c : Context) : (s.putCtx a c).cur = s.cur := rfl
@[simp] theorem State.putCtx_group? (s : State) (a : Nat) (c : Context) (n : Nat) : (s.putCtx a c).group? n = s.group? n := rfl
@[simp] theorem State.putCtx_team? (s : State) (a : Nat) (c : Context) (n : Nat) : (s.putCtx a c).team? n = s.team? n := rfl
@[simp] theorem State.putCtx_launch? (s : State) (a : Nat) (c : Context) (n : Nat) : (s.putCtx a c).launch? n = s.launch? n := rfl
@[simp] theorem State.putCtx_part? (s : State) (a : Nat) (c : Context) (n : Nat) : (s.putCtx a c).part? n = s.part? n := rfl
@[simp] theorem State.putCtx_ctx?_self (s : State) (a : Nat) (c : Context) : (s.putCtx a c).ctx? a = some c := Tab.find_put_self _ _ _
theorem State.putCtx_ctx?_ne (s : State) (a : Nat) (c : Context) {n : Nat} (h : n ≠ a) : (s.putCtx a c).ctx? n = s.ctx? n := Tab.find_put_ne _ _ h

/-! ### Registers -/

@[simp] theorem Regs.wv_s (x : Regs) (r l : Nat) (y : W32) : (x.wv r l y).s = x.s := rfl
@[simp] theorem Regs.wv_c (x : Regs) (r l : Nat) (y : W32) : (x.wv r l y).c = x.c := rfl
@[simp] theorem Regs.wv_g (x : Regs) (r l : Nat) (y : W32) : (x.wv r l y).g = x.g := rfl
@[simp] theorem Regs.wv_wb (x : Regs) (r l : Nat) (y : W32) : (x.wv r l y).wb = x.wb := rfl
@[simp] theorem Regs.ws_v (x : Regs) (r : Nat) (y : W64) : (x.ws r y).v = x.v := rfl
@[simp] theorem Regs.ws_c (x : Regs) (r : Nat) (y : W64) : (x.ws r y).c = x.c := rfl
@[simp] theorem Regs.ws_g (x : Regs) (r : Nat) (y : W64) : (x.ws r y).g = x.g := rfl
@[simp] theorem Regs.ws_wb (x : Regs) (r : Nat) (y : W64) : (x.ws r y).wb = x.wb := rfl
@[simp] theorem Regs.wc_v (x : Regs) (r : Nat) (y : Cap) : (x.wc r y).v = x.v := rfl
@[simp] theorem Regs.wc_s (x : Regs) (r : Nat) (y : Cap) : (x.wc r y).s = x.s := rfl
@[simp] theorem Regs.wc_g (x : Regs) (r : Nat) (y : Cap) : (x.wc r y).g = x.g := rfl
@[simp] theorem Regs.wc_wb (x : Regs) (r : Nat) (y : Cap) : (x.wc r y).wb = x.wb := rfl
@[simp] theorem Regs.wg_v (x : Regs) (r : Nat) (y : W64) : (x.wg r y).v = x.v := rfl
@[simp] theorem Regs.wg_s (x : Regs) (r : Nat) (y : W64) : (x.wg r y).s = x.s := rfl
@[simp] theorem Regs.wg_c (x : Regs) (r : Nat) (y : W64) : (x.wg r y).c = x.c := rfl
@[simp] theorem Regs.wg_wb (x : Regs) (r : Nat) (y : W64) : (x.wg r y).wb = x.wb := rfl

theorem Regs.rs_ws (x : Regs) (r : Nat) (y : W64) (n : Nat) : (x.ws r y).rs n = if n = r then y else x.rs n := Tab.get_set _ _ _ _ _
theorem Regs.rc_wc (x : Regs) (r : Nat) (y : Cap) (n : Nat) : (x.wc r y).rc n = if n = r then y else x.rc n := Tab.get_set _ _ _ _ _
theorem Regs.rg_wg (x : Regs) (r : Nat) (y : W64) (n : Nat) : (x.wg r y).rg n = if n = r then y else x.rg n := Tab.get_set _ _ _ _ _

@[simp] theorem Regs.wvs_s (x : Regs) (r : Nat) (f : Nat → W32) (ls : List Nat) : (x.wvs r f ls).s = x.s := by
  induction ls generalizing x with
  | nil => rfl
  | cons l ls ih => rw [Regs.wvs, ih]; rfl
@[simp] theorem Regs.wvs_c (x : Regs) (r : Nat) (f : Nat → W32) (ls : List Nat) : (x.wvs r f ls).c = x.c := by
  induction ls generalizing x with
  | nil => rfl
  | cons l ls ih => rw [Regs.wvs, ih]; rfl
@[simp] theorem Regs.wvs_g (x : Regs) (r : Nat) (f : Nat → W32) (ls : List Nat) : (x.wvs r f ls).g = x.g := by
  induction ls generalizing x with
  | nil => rfl
  | cons l ls ih => rw [Regs.wvs, ih]; rfl
@[simp] theorem Regs.wvs_wb (x : Regs) (r : Nat) (f : Nat → W32) (ls : List Nat) : (x.wvs r f ls).wb = x.wb := by
  induction ls generalizing x with
  | nil => rfl
  | cons l ls ih => rw [Regs.wvs, ih]; rfl

/-- Lanes of different registers, or different lanes, have different keys. -/
theorem vkey_inj {r r' l l' : Nat} (h : l < 64) (h' : l' < 64) : vkey r l = vkey r' l' ↔ r = r' ∧ l = l' := by
  unfold vkey
  omega

/-- A write of lanes of a register: those lanes hold their values, everything else is as before. -/
theorem Regs.wvs_get (x : Regs) (r : Nat) (f : Nat → W32) (ls : List Nat) (hls : ∀ l ∈ ls, l < 64) (n l : Nat) (hl : l < 64) :
    Tab.get 0 (x.wvs r f ls).v (vkey n l) = if n = x.wb + r ∧ l ∈ ls then f l else Tab.get 0 x.v (vkey n l) := by
  induction ls generalizing x with
  | nil => simp [Regs.wvs]
  | cons a ls ih =>
    have ha := hls a (List.mem_cons_self ..)
    have h := ih (x.wv r a (f a)) (fun b hb => hls b (List.mem_cons_of_mem _ hb))
    rw [Regs.wvs, h]
    simp only [Regs.wv, Tab.get_set, vkey_inj hl ha, List.mem_cons]
    by_cases h1 : n = x.wb + r <;> by_cases h2 : l ∈ ls <;> by_cases h3 : l = a <;> simp [h1, h2, h3]

end Sys2Proof.Machine
end

