-- ==== Sys2Proof/Laws/Memory.lean ====
section
/-! SUPPORT. Memory: a read after a write, and that every operation that changes memory keeps its canonical form. -/

namespace Sys2Proof.Machine

/-! ### A read after a write -/

theorem State.rawByte_rawSet_dev (s : State) (a b : Nat) (x : Byte) :
    (s.rawSet (.dev a) x).rawByte (.dev b) = if b = a then x else s.rawByte (.dev b) := Tab.get_set 0 s.mem a x b

theorem State.rawByte_rawSet_host (s : State) (a b : Nat) (x : Byte) :
    (s.rawSet (.host a) x).rawByte (.host b) = if b = a then x else s.rawByte (.host b) := Tab.get_set 0 s.hostMem a x b

/-- A write to the device leaves every place elsewhere alone. -/
theorem State.rawByte_rawSet_dev_other (s : State) (a : Nat) (x : Byte) {l : Loc} (h : ∀ b, l ≠ .dev b) :
    (s.rawSet (.dev a) x).rawByte l = s.rawByte l := by
  cases l with
  | dev b => exact absurd rfl (h b)
  | host _ => rfl
  | peer _ _ _ => rfl
  | team _ _ => rfl
  | wbuf _ _ => rfl

/-! ### The canonical form -/

/-- The form depends on the three stores alone. -/
theorem canonical_congr {s t : State} (hm : t.mem = s.mem) (hh : t.hostMem = s.hostMem) (ht : t.mtags = s.mtags) :
    MemoryCanonical t ↔ MemoryCanonical s := by
  simp only [MemoryCanonical, hm, hh, ht]

theorem reset_canonical : MemoryCanonical State.reset := ⟨rfl, rfl, rfl⟩

theorem rawSet_canonical {s : State} (l : Loc) (b : Byte) (h : MemoryCanonical s) : MemoryCanonical (s.rawSet l b) := by
  obtain ⟨hm, hh, ht⟩ := h
  cases l with
  | dev a => exact ⟨Tab.wf_set 0 _ _ _ hm, hh, ht⟩
  | host a => exact ⟨hm, Tab.wf_set 0 _ _ _ hh, ht⟩
  | peer _ _ _ => exact ⟨hm, hh, ht⟩
  | team _ _ => exact ⟨hm, hh, ht⟩
  | wbuf _ _ => exact ⟨hm, hh, ht⟩

theorem setTag_canonical {s : State} (l : Loc) (b : Bool) (h : MemoryCanonical s) : MemoryCanonical (s.setTag l b) := by
  obtain ⟨hm, hh, ht⟩ := h
  cases l with
  | dev a => exact ⟨hm, hh, Tab.wf_set false _ _ _ ht⟩
  | host _ => exact ⟨hm, hh, ht⟩
  | peer _ _ _ => exact ⟨hm, hh, ht⟩
  | team _ _ => exact ⟨hm, hh, ht⟩
  | wbuf _ _ => exact ⟨hm, hh, ht⟩

theorem stamp_canonical {s : State} (k : Nat) (l : Loc) (h : MemoryCanonical s) : MemoryCanonical (s.stamp k l) := by
  obtain ⟨hm, hh, ht⟩ := h
  cases l with
  | dev a =>
    simp only [State.stamp]
    split
    · split
      · exact ⟨hm, hh, ht⟩
      · exact ⟨Tab.wf_clear 0 _ _ _ hm, hh, Tab.wf_clear false _ _ _ ht⟩
    · exact ⟨hm, hh, ht⟩
  | host _ => exact ⟨hm, hh, ht⟩
  | peer _ _ _ => exact ⟨hm, hh, ht⟩
  | team _ _ => exact ⟨hm, hh, ht⟩
  | wbuf _ _ => exact ⟨hm, hh, ht⟩

/-- A fold of steps that keep the form keeps it. -/
theorem foldl_canonical {α : Type} (f : State → α → State) (hf : ∀ s x, MemoryCanonical s → MemoryCanonical (f s x)) :
    ∀ (xs : List α) {s : State}, MemoryCanonical s → MemoryCanonical (xs.foldl f s)
  | [], _, h => h
  | x :: xs, s, h => foldl_canonical f hf xs (hf s x h)

theorem snapTake_canonical {s : State} (u : Nat) (p : SnapPage) (h : MemoryCanonical s) : MemoryCanonical (s.snapTake u p) := by
  unfold State.snapTake
  split
  · exact h
  · split
    · exact h
    · exact h

theorem snapAt_canonical {s : State} (l : Loc) (h : MemoryCanonical s) : MemoryCanonical (s.snapAt l) :=
  foldl_canonical _ (fun _ e h => snapTake_canonical e.1 e.2 h) _ h

theorem noteWrite_canonical {s : State} (l : Loc) (b : Byte) (h : MemoryCanonical s) : MemoryCanonical (s.noteWrite l b) := h

theorem plainByte_canonical {s : State} (l : Loc) (b : Byte) (h : MemoryCanonical s) : MemoryCanonical (s.plainByte l b) :=
  setTag_canonical (s := (s.rawSet l b).noteWrite l b) l false (rawSet_canonical l b h)

theorem writeByte_canonical {s : State} (k : Nat) (l : Loc) (b : Byte) (h : MemoryCanonical s) : MemoryCanonical (s.writeByte k l b) :=
  plainByte_canonical l b (stamp_canonical k l (snapAt_canonical l h))

theorem versions_canonical {s : State} (l : Loc) (h : MemoryCanonical s) : MemoryCanonical (s.versions l) := by
  cases l with
  | dev a =>
    simp only [State.versions]
    split
    · exact h
    · exact h
  | host _ => exact h
  | peer _ _ _ => exact h
  | team _ _ => exact h
  | wbuf _ _ => exact h

theorem writeBytesAt_canonical (k : Nat) : ∀ (bs : List Byte) (l : Loc) {s : State}, MemoryCanonical s → MemoryCanonical (s.writeBytesAt k l bs)
  | [], _, _, h => h
  | b :: bs, l, _, h => writeBytesAt_canonical k bs (l.add 1) (writeByte_canonical k l b h)

theorem writeBytes_canonical {s : State} (k : Nat) (l : Loc) (bs : List Byte) (h : MemoryCanonical s) : MemoryCanonical (s.writeBytes k l bs) :=
  versions_canonical l (writeBytesAt_canonical k bs l h)

theorem rawBytes_canonical : ∀ (bs : List Byte) (a : Nat) {s : State}, MemoryCanonical s → MemoryCanonical (s.rawBytes a bs)
  | [], _, _, h => h
  | b :: bs, a, _, h => rawBytes_canonical bs (a + 1) (plainByte_canonical (.dev a) b (snapAt_canonical (.dev a) h))

theorem deviceKey_canonical {s : State} (a : Nat) (h : MemoryCanonical s) : MemoryCanonical (s.deviceKey a) := by
  unfold State.deviceKey
  split
  · exact h
  · exact h

theorem deviceKeys_canonical (a : Nat) : ∀ (n : Nat) {s : State}, MemoryCanonical s → MemoryCanonical (s.deviceKeys a n)
  | 0, _, h => h
  | n + 1, _, h => deviceKey_canonical (a + n) (deviceKeys_canonical a n h)

theorem devBytes_canonical {s : State} (a : Nat) (bs : List Byte) (h : MemoryCanonical s) : MemoryCanonical (s.devBytes a bs) :=
  rawBytes_canonical bs a (deviceKeys_canonical a bs.length h)

theorem engineByte_canonical {s : State} (x : Issuer) (d : Loc × Nat) (b : Byte) (h : MemoryCanonical s) : MemoryCanonical (s.engineByte x d b) :=
  setTag_canonical d.1 false (noteWrite_canonical d.1 b (stamp_canonical d.2 d.1 (snapAt_canonical d.1 h)))

theorem engineWrite_canonical (x : Issuer) : ∀ (ds : List (Loc × Nat)) (bs : List Byte) {s : State}, MemoryCanonical s → MemoryCanonical (s.engineWrite x ds bs)
  | [], [], _, h => h
  | [], _ :: _, _, h => h
  | _ :: _, [], _, h => h
  | d :: ds, b :: bs, _, h => engineWrite_canonical x ds bs (engineByte_canonical x d b h)

theorem devPut_canonical {s : State} (a : Nat) (v : W64) (h : MemoryCanonical s) : MemoryCanonical (s.devPut a v) :=
  versions_canonical (.dev a) (devBytes_canonical a _ h)

theorem guestPut_canonical {s : State} (a : Nat) (v : W64) (h : MemoryCanonical s) : MemoryCanonical (s.guestPut a v) :=
  versions_canonical (.dev a) (rawBytes_canonical _ a h)

/-- The registers of a queue that a store leaves alone are put back in the same form. -/
theorem queueKeep_wf (s0 : State) (sq : Nat) (as : List Nat) (m : Memory) (h : Tab.wf 0 m = true) : Tab.wf 0 (queueKeep s0 sq as m) = true := by
  unfold queueKeep
  split
  · refine List.foldlRecOn (motive := fun m => Tab.wf 0 m = true) (List.range 32) _ h (fun m hm i _ => ?_)
    split
    · exact Tab.wf_set 0 _ _ _ hm
    · split
      · exact hm
      · exact Tab.wf_set 0 _ _ _ hm
  · exact h

theorem queueHook_canonical {s : State} (s0 : State) (as : List Nat) (h : MemoryCanonical s) : MemoryCanonical (s.queueHook s0 as) := by
  unfold State.queueHook
  refine foldl_canonical _ (fun _ e h => ?_) _ h
  exact ⟨queueKeep_wf s0 e.2 as _ h.1, h.2.1, h.2.2⟩

theorem unmark_canonical {s : State} (as : List Nat) (h : MemoryCanonical s) : MemoryCanonical (s.unmark as) := by
  unfold State.unmark
  split
  · exact h
  · exact h

theorem moveFrame_canonical {s : State} (slot : Nat) (host : Bool) (old new : Nat) (h : MemoryCanonical s) :
    MemoryCanonical (s.moveFrame slot host old new) := by
  obtain ⟨hm, hh, ht⟩ := h
  unfold State.moveFrame
  cases host with
  | true => exact ⟨hm, Tab.wf_blit 0 _ _ _ _ (Tab.wf_clear 0 _ _ _ hh), ht⟩
  | false => exact ⟨Tab.wf_blit 0 _ _ _ _ (Tab.wf_clear 0 _ _ _ hm), hh, Tab.wf_blit false _ _ _ _ (Tab.wf_clear false _ _ _ ht)⟩

theorem zeroSector_canonical {s : State} (i : Nat) (h : MemoryCanonical s) : MemoryCanonical (s.zeroSector i) :=
  ⟨Tab.wf_clear 0 _ _ _ h.1, h.2.1, Tab.wf_clear false _ _ _ h.2.2⟩

theorem zeroBytes_canonical {s : State} (a n : Nat) (h : MemoryCanonical s) : MemoryCanonical (s.zeroBytes a n) :=
  ⟨Tab.wf_clear 0 _ _ _ h.1, h.2.1, Tab.wf_clear false _ _ _ h.2.2⟩

theorem zeroUnits_canonical {s : State} (p : Nat) (x : Part) (h : MemoryCanonical s) : MemoryCanonical (s.zeroUnits p x) := by
  unfold State.zeroUnits
  refine foldl_canonical _ (fun s e h => zeroBytes_canonical _ _ h) _ (foldl_canonical _ (fun s i h => ?_) _ h)
  exact ⟨(zeroBytes_canonical _ _ h).1, h.2.1, (zeroBytes_canonical _ _ h).2.2⟩

theorem restoreSectors_canonical {s : State} (p : SnapPage) (h : MemoryCanonical s) : MemoryCanonical (s.restoreSectors p) := by
  unfold State.restoreSectors
  split
  · exact h
  · exact h

theorem restorePage_canonical {s : State} (p : SnapPage) (h : MemoryCanonical s) : MemoryCanonical (s.restorePage p) := by
  unfold State.restorePage
  refine foldl_canonical _ (fun _ l h => versions_canonical l h) _ (foldl_canonical _ (fun s l h => noteWrite_canonical l (s.rawByte l) h) _ ?_)
  refine (restoreSectors_canonical p ?_ : MemoryCanonical (State.restoreSectors _ p))
  cases p.host with
  | true => exact ⟨h.1, Tab.wf_blit 0 _ _ _ _ (Tab.wf_clear 0 _ _ _ h.2.1), h.2.2⟩
  | false => exact ⟨Tab.wf_blit 0 _ _ _ _ (Tab.wf_clear 0 _ _ _ h.1), h.2.1, Tab.wf_blit false _ _ _ _ (Tab.wf_clear false _ _ _ h.2.2)⟩

theorem lost_canonical {s : State} (h : MemoryCanonical s) : MemoryCanonical s.lost := ⟨rfl, h.2.1, rfl⟩

end Sys2Proof.Machine
end

