-- ==== Sys2Proof/Laws/Ops.lean ====
section
/-! SUPPORT. What the shared operations around an instruction word can do, said once. -/

namespace Sys2Proof.Machine

/-! ### Lanes -/

theorem mem_lanesOf (m : W64) (n l : Nat) : l ∈ lanesOf m n ↔ l < n ∧ bit m l = true := by
  induction n with
  | zero => simp [lanesOf]
  | succ n ih =>
    by_cases h : bit m n = true
    · simp only [lanesOf, h, if_true, List.mem_append, ih, List.mem_singleton]
      constructor
      · rintro (⟨h1, h2⟩ | rfl)
        · exact ⟨by omega, h2⟩
        · exact ⟨by omega, h⟩
      · rintro ⟨h1, h2⟩
        by_cases h3 : l = n
        · exact .inr h3
        · exact .inl ⟨by omega, h2⟩
    · simp only [lanesOf, h, List.mem_append, ih]
      constructor
      · rintro (⟨h1, h2⟩ | h1)
        · exact ⟨by omega, h2⟩
        · simp at h1
      · rintro ⟨h1, h2⟩
        by_cases h3 : l = n
        · subst h3
          exact absurd h2 h
        · exact .inl ⟨by omega, h2⟩

/-- A lane of a mask is below 64. -/
theorem bit_lt {m : W64} {l : Nat} (h : bit m l = true) : l < 64 := by
  rcases Nat.lt_or_ge l 64 with hl | hl
  · exact hl
  · have : bit m l = false := BitVec.getLsbD_of_ge m l hl
    rw [this] at h
    cases h

/-- The executing lanes of a group. -/
theorem mem_exec (g : Group) (m : W64) (l : Nat) : l ∈ g.exec m ↔ executes g m l = true := by
  simp [Group.exec, mem_lanesOf, executes]

/-! ### The frame around a word -/

/-- Nothing undefined is left by a word that writes no open register. -/
@[simp] theorem Res.undefine_nil (r : Res) (c : Ctx) : r.undefine c [] = r := by cases r <;> rfl

/-- A word that finds its registers closed writes none too early. -/
theorem late_closed {g : Group} {u : Nat} {pc : Pc} {m : W64} {i : Instr} (h : g.openRegs (g.uses i m) = []) :
    (issueCtx u g pc m i).late (shape i) = [] := by
  simp only [Ctx.late, issueCtx, Bool.false_eq_true, if_false, Group.openRegs, List.filter_eq_nil_iff] at h ⊢
  intro r hr
  refine h r (List.mem_append_left _ ?_)
  simp only [written, touched, List.mem_flatMap, List.mem_filter] at hr ⊢
  obtain ⟨o, ⟨ho, hw⟩, hn⟩ := hr
  exact ⟨o, ⟨ho, by simp [hw]⟩, hn⟩

/-- A word that passes its checks runs its meaning, whose answer `finish` takes. -/
theorem wordOf_passes {s : State} {u : Nat} {g : Group} {pc : Pc} {m : W64} {i : Instr} (h : Passes s u g pc m i) (body : State → Ctx → Res) :
    wordOf (shape i) s body = finish (shape i) (issueCtx u g pc m i) [] (body s (issueCtx u g pc m i)) := by
  obtain ⟨⟨hc, hg⟩, hl, ho, hw, hr, hlog, hm, hs⟩ := h
  have hl' : ¬ g.level.num < (shape i).level := by omega
  have ho' : (shape i).ops.all Opnd.good = true := ho
  have hw' : ((shape i).ops.any fun o => decide (o.kind = .v) && decide (g.alloc < g.regs.wb + o.num + o.run)) = false := by
    rw [List.any_eq_false]
    intro o hmem
    simp only [Bool.and_eq_true, decide_eq_true_eq, not_and]
    intro hk
    have := hw o hmem hk
    omega
  have hr' : g.openRegs (touched g.regs.wb (shape i).ops ++ g.implicit i m) = [] := hr
  have hp : s.precheck g (shape i) g.regs.wb (g.implicit i m) = none := by
    simp [State.precheck, hl', ho', hw', hr']
  have hab : (decide (g.mode = 1) && (shape i).aband) = false := by
    by_cases h1 : g.mode = 1
    · simp [hm h1]
    · simp [h1]
  have hml : mustLog g (shape i) = false := by
    unfold mustLog
    by_cases h1 : (shape i).mem = true
    · simp [hlog h1]
    · simp [h1]
  have hlate := late_closed (u := u) (pc := pc) (m := m) hr
  simp only [issueCtx] at hlate hs
  simp only [wordOf, hc, hg, Cur.ctx, issueCtx]
  simp [hp, hab, hml, hr', hlate, hs, hg]

theorem word_passes {s : State} {u : Nat} {g : Group} {pc : Pc} {m : W64} {i : Instr} (h : Passes s u g pc m i) (body : State → Ctx → Res) :
    word i s body = finish (shape i) (issueCtx u g pc m i) [] (body s (issueCtx u g pc m i)) := wordOf_passes h body

/-- A word that no group issues has no meaning. -/
theorem wordOf_noIssuer {sh : Shape} {s : State} (h : s.cur = none) (body : State → Ctx → Res) : wordOf sh s body = .refused .noIssuer := by
  simp [wordOf, h]

/-- A meaning that is done: the word retires. -/
@[simp] theorem finish_done (sh : Shape) (c : Ctx) (rs : List RegName) (s : State) : finish sh c rs (.done s) = .next (s.onGroup c.uid (fun g => g.retire c sh)) := rfl

/-- A meaning that has placed its lanes. -/
@[simp] theorem finish_moved (sh : Shape) (c : Ctx) (rs : List RegName) (s : State) : finish sh c rs (.moved s) = .next (s.onGroup c.uid (fun g => g.settle c sh)) := rfl

/-- A meaning that faults. -/
@[simp] theorem finish_hard (sh : Shape) (c : Ctx) (rs : List RegName) (s : State) (h : Hard) : finish sh c rs (.hard s h) = failWord s c sh h := rfl

/-- A hard fault outside bounds mode, of a word that is no replay, is taken. -/
theorem failWord_takes {s : State} {c : Ctx} {sh : Shape} {h : Hard} (hm : c.g.mode ≠ 1) (hr : c.replay = false) :
    failWord s c sh h = .next (s.takeFault c.uid c.mask h false) := by
  simp [failWord, hm, hr]

/-- Two changes of one group are one. -/
theorem State.onGroup_onGroup (s : State) (u : Nat) (f g : Group → Group) : (s.onGroup u f).onGroup u g = s.onGroup u (fun x => g (f x)) := by
  simp [State.onGroup, Tab.modify_modify]

/-- A change of one group changes only that group. -/
theorem onlyGroup_onGroup (s : State) (u : Nat) (f : Group → Group) : OnlyGroup s (s.onGroup u f) u where
  rest := rfl
  others _ h := s.onGroup_group?_ne u f h
  bytes l := by cases l <;> rfl

/-! ### Retirement -/

/-- A word that is no replay and has a latency class retires its group as R140, R142 and R163 say, its registers as they stand. -/
theorem retired_retire {g h : Group} {u : Nat} {pc : Pc} {m : W64} {i : Instr} (hown : (shape i).own = false)
    (hreg : { h with regs := g.regs, shadow := g.shadow } = g) :
    Retired g (h.retire (issueCtx u g pc m i) (shape i)) pc m i := by
  have e : ∀ {α : Type} (p : Group → α), p h = p { g with regs := h.regs, shadow := h.shadow } := by
    intro α p
    have : h = { g with regs := h.regs, shadow := h.shadow } := by
      rw [← hreg]
    exact congrArg p this
  refine ⟨?_, ?_, ?_, ?_⟩
  · rw [show h = { g with regs := h.regs, shadow := h.shadow } from e id]
    simp [Group.retire, issueCtx, Group.readTokens, Group.advance, Group.onLanes]
  · rw [show h = { g with regs := h.regs, shadow := h.shadow } from e id]
    simp [Group.retire, issueCtx, Group.readTokens, Group.advance, Group.onLanes]
  · rw [show h = { g with regs := h.regs, shadow := h.shadow } from e id]
    simp [Group.retire, issueCtx, Group.readTokens, Group.advance, Group.onLanes, hown]
  · rw [show h = { g with regs := h.regs, shadow := h.shadow } from e id]
    simp [Group.retire, issueCtx, Group.readTokens, Group.advance, Group.onLanes]

/-- Registers are untouched by the retirement of a word that is no replay. -/
theorem retire_regs {h g : Group} {u : Nat} {pc : Pc} {m : W64} {i : Instr} : (h.retire (issueCtx u g pc m i) (shape i)).regs = h.regs := by
  simp [Group.retire, issueCtx, Group.readTokens, Group.advance, Group.onLanes]

theorem retire_shadow {h g : Group} {u : Nat} {pc : Pc} {m : W64} {i : Instr} : (h.retire (issueCtx u g pc m i) (shape i)).shadow = h.shadow := by
  simp [Group.retire, issueCtx, Group.readTokens, Group.advance, Group.onLanes]

/-- A word that passes and whose meaning changes its group's registers and shadows alone completes. -/
theorem completes_of_done {s : State} {u : Nat} {g : Group} {pc : Pc} {m : W64} {i : Instr} {F : Group → Group} {p : Group → Prop}
    (h : Passes s u g pc m i) (hown : (shape i).own = false)
    (hx : exec i s = finish (shape i) (issueCtx u g pc m i) [] (.done (s.onGroup u F)))
    (hF : { F g with regs := g.regs, shadow := g.shadow } = g)
    (hp : ∀ g', g'.regs = (F g).regs → g'.shadow = (F g).shadow → p g') : Completes i s u g pc m p := by
  have hg := h.issues.2
  have hs : (s.onGroup u F).onGroup u (fun g' => g'.retire (issueCtx u g pc m i) (shape i)) =
      s.onGroup u (fun x => (F x).retire (issueCtx u g pc m i) (shape i)) := State.onGroup_onGroup _ _ _ _
  refine ⟨_, (F g).retire (issueCtx u g pc m i) (shape i), hx.trans (finish_done _ _ _ _), ?_, ?_, retired_retire hown hF, hp _ retire_regs retire_shadow⟩
  · show ((s.onGroup u F).onGroup u _).group? u = _
    rw [hs]
    simp [hg]
  · show OnlyGroup s ((s.onGroup u F).onGroup u _) u
    rw [hs]
    exact onlyGroup_onGroup s u _

end Sys2Proof.Machine
end

