-- ==== Sys2Proof/Laws/Words.lean ====
section
/-! SUPPORT. The instruction shapes of Interval.lean: what a scalar or a vector word of each shape writes. -/

namespace Sys2Proof.Machine

variable {s : State} {u : Nat} {g : Group} {pc : Pc} {m : W64} {i : Instr}

/-! ### Writes of registers -/

theorem write_eq (i : Instr) (pc : Pc) (m : W64) (s : State) (f : Regs → Regs) :
    (issueCtx u g pc m i).write s f =
      s.onGroup u (fun x => { x with regs := { f { x.regs with wb := g.regs.wb } with wb := x.regs.wb } }) := rfl

/-- A word that writes one scalar register. -/
theorem completes_scalar (h : Passes s u g pc m i) (hown : (shape i).own = false) (d : Nat) (x : W64)
    (hx : exec i s = finish (shape i) (issueCtx u g pc m i) [] (.done ((issueCtx u g pc m i).write s (fun r => r.ws d x)))) :
    Completes i s u g pc m (fun g' => ScalarWritten g g' d x) := by
  rw [write_eq] at hx
  refine completes_of_done h hown hx rfl fun g' hr hsh => ?_
  exact ⟨fun n => by rw [hr]; exact Regs.rs_ws _ _ _ _, by rw [hr]; rfl, by rw [hr]; rfl, by rw [hr]; rfl, by rw [hr], hsh⟩

/-- A word that writes one capability register. -/
theorem completes_cap (h : Passes s u g pc m i) (hown : (shape i).own = false) (d : Nat) (x : Cap)
    (hx : exec i s = finish (shape i) (issueCtx u g pc m i) [] (.done ((issueCtx u g pc m i).write s (fun r => r.wc d x)))) :
    Completes i s u g pc m (fun g' => CapWritten g g' d x) := by
  rw [write_eq] at hx
  refine completes_of_done h hown hx rfl fun g' hr hsh => ?_
  exact ⟨fun n => by rw [hr]; exact Regs.rc_wc _ _ _ _, by rw [hr]; rfl, by rw [hr]; rfl, by rw [hr]; rfl, by rw [hr], hsh⟩

theorem exec_lt {m : W64} {l : Nat} (h : l ∈ g.exec m) : l < 64 := by
  rw [mem_exec] at h
  simp only [executes, Bool.and_eq_true] at h
  exact bit_lt h.2

/-- A word that writes the executing lanes of one vector register. -/
theorem completes_vector (h : Passes s u g pc m i) (hown : (shape i).own = false) (d : Nat) (f : Nat → W32)
    (hx : exec i s = finish (shape i) (issueCtx u g pc m i) [] (.done ((issueCtx u g pc m i).write s (fun r => r.wvs d f (g.exec m))))) :
    Completes i s u g pc m (fun g' => VectorWritten g g' m d 1 (fun _ => f)) := by
  rw [write_eq] at hx
  refine completes_of_done h hown hx (by simp) fun g' hr hsh => ?_
  refine ⟨fun r l hl => ?_, by rw [hr]; simp, by rw [hr]; simp, by rw [hr]; simp, by rw [hr], hsh⟩
  rw [hr]
  show Tab.get 0 (Regs.wvs _ d f (g.exec m)).v (vkey r l) = _
  rw [Regs.wvs_get _ _ _ _ (fun _ => exec_lt) _ _ hl]
  simp only [mem_exec]
  by_cases h1 : r = g.regs.wb + d
  · subst h1
    simp
  · have : ¬ (g.regs.wb + d ≤ r ∧ r < g.regs.wb + d + 1 ∧ executes g m l = true) := by omega
    rw [if_neg this, if_neg (fun c => h1 c.1)]

/-- `setVec` outside bounds mode. -/
theorem setVec_value (hm : g.mode ≠ 1) (d : F7) (f : Nat → W32) (v : Nat → Iv) :
    (issueCtx u g pc m i).setVec s d f v = .done ((issueCtx u g pc m i).write s (fun r => r.wvs d.toNat f (g.exec m))) := by
  simp [Ctx.setVec, issueCtx, hm, Ctx.lanes]

theorem vec1_completes (h : Passes s u g pc m i) (hm : g.mode ≠ 1) (hown : (shape i).own = false) {d a : F7} {t : ITag} {f : Nat → W32 → W32}
    {r : Iv → Iv} (hx : exec i s = vec1 i d a t f r s) :
    Completes i s u g pc m (fun g' => VectorWritten g g' m d.toNat 1 (fun _ l => f g.rm (g.regs.rv a.toNat l))) := by
  refine completes_vector h hown _ _ ?_
  rw [hx, vec1, word_passes h, setVec_value hm]
  rfl

theorem vec2_completes (h : Passes s u g pc m i) (hm : g.mode ≠ 1) (hown : (shape i).own = false) {d a b : F7} {t : ITag} {f : Nat → W32 → W32 → W32}
    {r : Iv → Iv → Iv} (hx : exec i s = vec2 i d a b t f r s) :
    Completes i s u g pc m (fun g' => VectorWritten g g' m d.toNat 1 (fun _ l => f g.rm (g.regs.rv a.toNat l) (g.regs.rv b.toNat l))) := by
  refine completes_vector h hown _ _ ?_
  rw [hx, vec2, word_passes h, setVec_value hm]
  rfl

theorem vec3_completes (h : Passes s u g pc m i) (hm : g.mode ≠ 1) (hown : (shape i).own = false) {d a b : F7} {t : ITag} {f : Nat → W32 → W32 → W32 → W32}
    {r : Iv → Iv → Iv → Iv} (hx : exec i s = vec3 i d a b t f r s) :
    Completes i s u g pc m (fun g' => VectorWritten g g' m d.toNat 1
      (fun _ l => f g.rm (g.regs.rv d.toNat l) (g.regs.rv a.toNat l) (g.regs.rv b.toNat l))) := by
  refine completes_vector h hown _ _ ?_
  rw [hx, vec3, word_passes h, setVec_value hm]
  rfl

theorem vecK_completes (h : Passes s u g pc m i) (hm : g.mode ≠ 1) (hown : (shape i).own = false) {d a : F7} {k : W32} {t : ITag} {f : W32 → W32 → W32}
    {r : Iv → Iv → Iv} (hx : exec i s = vecK i d a k t f r s) :
    Completes i s u g pc m (fun g' => VectorWritten g g' m d.toNat 1 (fun _ l => f (g.regs.rv a.toNat l) k)) := by
  refine completes_vector h hown _ _ ?_
  rw [hx, vecK, word_passes h, setVec_value hm]
  rfl

theorem sca1_completes (h : Passes s u g pc m i) (hown : (shape i).own = false) {d a : F7} {f : W64 → W64} (hx : exec i s = sca1 i d a f s) :
    Completes i s u g pc m (fun g' => ScalarWritten g g' d.toNat (f (g.regs.rs a.toNat))) := by
  refine completes_scalar h hown _ _ ?_
  rw [hx, sca1, word_passes h]
  rfl

theorem sca2_completes (h : Passes s u g pc m i) (hown : (shape i).own = false) {d a b : F7} {f : W64 → W64 → W64} (hx : exec i s = sca2 i d a b f s) :
    Completes i s u g pc m (fun g' => ScalarWritten g g' d.toNat (f (g.regs.rs a.toNat) (g.regs.rs b.toNat))) := by
  refine completes_scalar h hown _ _ ?_
  rw [hx, sca2, word_passes h]
  rfl

theorem sca3_completes (h : Passes s u g pc m i) (hown : (shape i).own = false) {d a b : F7} {f : W64 → W64 → W64 → W64}
    (hx : exec i s = sca3 i d a b f s) :
    Completes i s u g pc m (fun g' => ScalarWritten g g' d.toNat (f (g.regs.rs d.toNat) (g.regs.rs a.toNat) (g.regs.rs b.toNat))) := by
  refine completes_scalar h hown _ _ ?_
  rw [hx, sca3, word_passes h]
  rfl

/-! ### Writes of intervals (bounds mode) -/

/-- The group after intervals have been written to some lanes. -/
def withIvs (g : Group) (wb r : Nat) (f : Nat → Iv) : List Nat → Group
  | [] => g
  | l :: ls =>
    withIvs { g with regs := { g.regs with v := Tab.set 0 g.regs.v (vkey (wb + r) l) (f l).lo },
                     shadow := Tab.put g.shadow (vkey (wb + r) l) ⟨(f l).hi, (f l).tag, (f l).nan⟩ } wb r f ls

theorem writeIvs_eq (c : Ctx) (s : State) (r : Nat) (f : Nat → Iv) (ls : List Nat) :
    c.writeIvs s r f ls = if ls = [] then s else s.onGroup c.uid (fun g => withIvs g c.regs.wb r f ls) := by
  induction ls generalizing s with
  | nil => rfl
  | cons l ls ih =>
    rw [Ctx.writeIvs, ih]
    by_cases h : ls = []
    · subst h
      simp [withIvs]
    · simp [h, withIvs, State.onGroup_onGroup]

/-! ### The shapes of Safety.lean -/

theorem vectorOp1_of {mk : F7 → F7 → Instr} {f f' : W32 → W32} {t : ITag} {r : Iv → Iv} (he : ∀ x, f x = f' x)
    (hown : ∀ d a, (shape (mk d a)).own = false) (hx : ∀ d a s, exec (mk d a) s = vec1 (mk d a) d a t (fun _ => f') r s) : VectorOp1 mk f := by
  intro s u g pc m d a h hm
  simpa [he] using vec1_completes h hm (hown d a) (hx d a s)

theorem vectorOp2_of {mk : F7 → F7 → F7 → Instr} {f f' : W32 → W32 → W32} {t : ITag} {r : Iv → Iv → Iv} (he : ∀ x y, f x y = f' x y)
    (hown : ∀ d a b, (shape (mk d a b)).own = false) (hx : ∀ d a b s, exec (mk d a b) s = vec2 (mk d a b) d a b t (fun _ => f') r s) :
    VectorOp2 mk f := by
  intro s u g pc m d a b h hm
  simpa [he] using vec2_completes h hm (hown d a b) (hx d a b s)

theorem vectorOp3_of {mk : F7 → F7 → F7 → Instr} {f f' : W32 → W32 → W32 → W32} {t : ITag} {r : Iv → Iv → Iv → Iv} (he : ∀ z x y, f z x y = f' z x y)
    (hown : ∀ d a b, (shape (mk d a b)).own = false) (hx : ∀ d a b s, exec (mk d a b) s = vec3 (mk d a b) d a b t (fun _ => f') r s) :
    VectorOp3 mk f := by
  intro s u g pc m d a b h hm
  simpa [he] using vec3_completes h hm (hown d a b) (hx d a b s)

theorem vectorImm_of {mk : F7 → F7 → BitVec 10 → Instr} {f : W32 → BitVec 10 → W32} {k : BitVec 10 → W32} {f' : W32 → W32 → W32} {t : ITag}
    {r : Iv → Iv → Iv} (he : ∀ d a i x, (mk d a i).operandsOk = true → f x i = f' x (k i)) (hown : ∀ d a i, (shape (mk d a i)).own = false)
    (hx : ∀ d a i s, exec (mk d a i) s = vecK (mk d a i) d a (k i) t f' r s) : VectorImm mk f := by
  intro s u g pc m d a i h hm
  simpa [he d a i _ h.operands] using vecK_completes h hm (hown d a i) (hx d a i s)

theorem roundedOp1_of {mk : F7 → F7 → Instr} {f : Nat → W32 → W32} {t : ITag} {r : Iv → Iv}
    (hown : ∀ d a, (shape (mk d a)).own = false) (hx : ∀ d a s, exec (mk d a) s = vec1 (mk d a) d a t f r s) : RoundedOp1 mk f :=
  fun s _ _ _ _ d a h hm => vec1_completes h hm (hown d a) (hx d a s)

theorem roundedOp2_of {mk : F7 → F7 → F7 → Instr} {f : Nat → W32 → W32 → W32} {t : ITag} {r : Iv → Iv → Iv}
    (hown : ∀ d a b, (shape (mk d a b)).own = false) (hx : ∀ d a b s, exec (mk d a b) s = vec2 (mk d a b) d a b t f r s) : RoundedOp2 mk f :=
  fun s _ _ _ _ d a b h hm => vec2_completes h hm (hown d a b) (hx d a b s)

theorem roundedOp3_of {mk : F7 → F7 → F7 → Instr} {f : Nat → W32 → W32 → W32 → W32} {t : ITag} {r : Iv → Iv → Iv → Iv}
    (hown : ∀ d a b, (shape (mk d a b)).own = false) (hx : ∀ d a b s, exec (mk d a b) s = vec3 (mk d a b) d a b t f r s) : RoundedOp3 mk f :=
  fun s _ _ _ _ d a b h hm => vec3_completes h hm (hown d a b) (hx d a b s)

theorem scalarOp1_of {mk : F7 → F7 → Instr} {f f' : W64 → W64} (he : ∀ x, f x = f' x) (hown : ∀ d a, (shape (mk d a)).own = false)
    (hx : ∀ d a s, exec (mk d a) s = sca1 (mk d a) d a f' s) : ScalarOp1 mk f := by
  intro s u g pc m d a h
  simpa [he] using sca1_completes h (hown d a) (hx d a s)

theorem scalarOp2_of {mk : F7 → F7 → F7 → Instr} {f f' : W64 → W64 → W64} (he : ∀ x y, f x y = f' x y) (hown : ∀ d a b, (shape (mk d a b)).own = false)
    (hx : ∀ d a b s, exec (mk d a b) s = sca2 (mk d a b) d a b f' s) : ScalarOp2 mk f := by
  intro s u g pc m d a b h
  simpa [he] using sca2_completes h (hown d a b) (hx d a b s)

theorem scalarOp3_of {mk : F7 → F7 → F7 → Instr} {f f' : W64 → W64 → W64 → W64} (he : ∀ z x y, f z x y = f' z x y)
    (hown : ∀ d a b, (shape (mk d a b)).own = false) (hx : ∀ d a b s, exec (mk d a b) s = sca3 (mk d a b) d a b f' s) : ScalarOp3 mk f := by
  intro s u g pc m d a b h
  simpa [he] using sca3_completes h (hown d a b) (hx d a b s)

theorem scalarImm_of {mk : F7 → F7 → BitVec 10 → Instr} {f f' : W64 → BitVec 10 → W64} (he : ∀ d a i x, (mk d a i).operandsOk = true → f x i = f' x i)
    (hown : ∀ d a i, (shape (mk d a i)).own = false) (hx : ∀ d a i s, exec (mk d a i) s = sca1 (mk d a i) d a (fun x => f' x i) s) :
    ScalarImm mk f := by
  intro s u g pc m d a i h
  simpa [he d a i _ h.operands] using sca1_completes h (hown d a i) (hx d a i s)

end Sys2Proof.Machine
end

