-- ==== Sys2Proof/Laws/PerInstr.lean ====
section
/-! SUPPORT. One lemma per instruction: the meaning of every instruction that has an encoding is the frame of Ops.lean around a body. -/

namespace Sys2Proof.Laws.Words

open Machine

/-- The instruction, if it has an encoding, is a word: its checks, its deferral and its retirement are those of `wordOf`. -/
def Statement (i : Instr) : Prop := encode i ≠ none → ∀ s, ∃ body, exec i s = wordOf (shape i) s body

theorem vadd (d : F7) (a : F7) (b : F7) : Statement (.vadd d a b) := fun _ s => by
  show ∃ body, execVadd d a b s = _
  unfold execVadd vec2 word
  exact ⟨_, rfl⟩
theorem vsub (d : F7) (a : F7) (b : F7) : Statement (.vsub d a b) := fun _ s => by
  show ∃ body, execVsub d a b s = _
  unfold execVsub vec2 word
  exact ⟨_, rfl⟩
theorem vmul (d : F7) (a : F7) (b : F7) : Statement (.vmul d a b) := fun _ s => by
  show ∃ body, execVmul d a b s = _
  unfold execVmul vec2 word
  exact ⟨_, rfl⟩
theorem vmulhS (d : F7) (a : F7) (b : F7) : Statement (.vmulhS d a b) := fun _ s => by
  show ∃ body, execVmulhS d a b s = _
  unfold execVmulhS vec2 word
  exact ⟨_, rfl⟩
theorem vmulhZ (d : F7) (a : F7) (b : F7) : Statement (.vmulhZ d a b) := fun _ s => by
  show ∃ body, execVmulhZ d a b s = _
  unfold execVmulhZ vec2 word
  exact ⟨_, rfl⟩
theorem vmad (d : F7) (a : F7) (b : F7) : Statement (.vmad d a b) := fun _ s => by
  show ∃ body, execVmad d a b s = _
  unfold execVmad vec3 word
  exact ⟨_, rfl⟩
theorem vminS (d : F7) (a : F7) (b : F7) : Statement (.vminS d a b) := fun _ s => by
  show ∃ body, execVminS d a b s = _
  unfold execVminS vec2 word
  exact ⟨_, rfl⟩
theorem vminZ (d : F7) (a : F7) (b : F7) : Statement (.vminZ d a b) := fun _ s => by
  show ∃ body, execVminZ d a b s = _
  unfold execVminZ vec2 word
  exact ⟨_, rfl⟩
theorem vmaxS (d : F7) (a : F7) (b : F7) : Statement (.vmaxS d a b) := fun _ s => by
  show ∃ body, execVmaxS d a b s = _
  unfold execVmaxS vec2 word
  exact ⟨_, rfl⟩
theorem vmaxZ (d : F7) (a : F7) (b : F7) : Statement (.vmaxZ d a b) := fun _ s => by
  show ∃ body, execVmaxZ d a b s = _
  unfold execVmaxZ vec2 word
  exact ⟨_, rfl⟩
theorem vaddsS (d : F7) (a : F7) (b : F7) : Statement (.vaddsS d a b) := fun _ s => by
  show ∃ body, execVaddsS d a b s = _
  unfold execVaddsS vec2 word
  exact ⟨_, rfl⟩
theorem vaddsZ (d : F7) (a : F7) (b : F7) : Statement (.vaddsZ d a b) := fun _ s => by
  show ∃ body, execVaddsZ d a b s = _
  unfold execVaddsZ vec2 word
  exact ⟨_, rfl⟩
theorem vsubsS (d : F7) (a : F7) (b : F7) : Statement (.vsubsS d a b) := fun _ s => by
  show ∃ body, execVsubsS d a b s = _
  unfold execVsubsS vec2 word
  exact ⟨_, rfl⟩
theorem vsubsZ (d : F7) (a : F7) (b : F7) : Statement (.vsubsZ d a b) := fun _ s => by
  show ∃ body, execVsubsZ d a b s = _
  unfold execVsubsZ vec2 word
  exact ⟨_, rfl⟩
theorem vdivS (d : F7) (a : F7) (b : F7) : Statement (.vdivS d a b) := fun _ s => by
  show ∃ body, execVdivS d a b s = _
  unfold execVdivS vec2 word
  exact ⟨_, rfl⟩
theorem vdivZ (d : F7) (a : F7) (b : F7) : Statement (.vdivZ d a b) := fun _ s => by
  show ∃ body, execVdivZ d a b s = _
  unfold execVdivZ vec2 word
  exact ⟨_, rfl⟩
theorem vremS (d : F7) (a : F7) (b : F7) : Statement (.vremS d a b) := fun _ s => by
  show ∃ body, execVremS d a b s = _
  unfold execVremS vec2 word
  exact ⟨_, rfl⟩
theorem vremZ (d : F7) (a : F7) (b : F7) : Statement (.vremZ d a b) := fun _ s => by
  show ∃ body, execVremZ d a b s = _
  unfold execVremZ vec2 word
  exact ⟨_, rfl⟩
theorem vand (d : F7) (a : F7) (b : F7) : Statement (.vand d a b) := fun _ s => by
  show ∃ body, execVand d a b s = _
  unfold execVand vec2 word
  exact ⟨_, rfl⟩
theorem vor (d : F7) (a : F7) (b : F7) : Statement (.vor d a b) := fun _ s => by
  show ∃ body, execVor d a b s = _
  unfold execVor vec2 word
  exact ⟨_, rfl⟩
theorem vxor (d : F7) (a : F7) (b : F7) : Statement (.vxor d a b) := fun _ s => by
  show ∃ body, execVxor d a b s = _
  unfold execVxor vec2 word
  exact ⟨_, rfl⟩
theorem vandn (d : F7) (a : F7) (b : F7) : Statement (.vandn d a b) := fun _ s => by
  show ∃ body, execVandn d a b s = _
  unfold execVandn vec2 word
  exact ⟨_, rfl⟩
theorem vsel (d : F7) (a : F7) (b : F7) : Statement (.vsel d a b) := fun _ s => by
  show ∃ body, execVsel d a b s = _
  unfold execVsel word
  exact ⟨_, rfl⟩
theorem vshl (d : F7) (a : F7) (b : F7) : Statement (.vshl d a b) := fun _ s => by
  show ∃ body, execVshl d a b s = _
  unfold execVshl vec2 word
  exact ⟨_, rfl⟩
theorem vshrZ (d : F7) (a : F7) (b : F7) : Statement (.vshrZ d a b) := fun _ s => by
  show ∃ body, execVshrZ d a b s = _
  unfold execVshrZ vec2 word
  exact ⟨_, rfl⟩
theorem vshrS (d : F7) (a : F7) (b : F7) : Statement (.vshrS d a b) := fun _ s => by
  show ∃ body, execVshrS d a b s = _
  unfold execVshrS vec2 word
  exact ⟨_, rfl⟩
theorem vrotl (d : F7) (a : F7) (b : F7) : Statement (.vrotl d a b) := fun _ s => by
  show ∃ body, execVrotl d a b s = _
  unfold execVrotl vec2 word
  exact ⟨_, rfl⟩
theorem vpopc (d : F7) (a : F7) : Statement (.vpopc d a) := fun _ s => by
  show ∃ body, execVpopc d a s = _
  unfold execVpopc vec1 word
  exact ⟨_, rfl⟩
theorem vclz (d : F7) (a : F7) : Statement (.vclz d a) := fun _ s => by
  show ∃ body, execVclz d a s = _
  unfold execVclz vec1 word
  exact ⟨_, rfl⟩
theorem vbrev (d : F7) (a : F7) : Statement (.vbrev d a) := fun _ s => by
  show ∃ body, execVbrev d a s = _
  unfold execVbrev vec1 word
  exact ⟨_, rfl⟩
theorem vbfxZ (d : F7) (a : F7) (b : F7) : Statement (.vbfxZ d a b) := fun _ s => by
  show ∃ body, execVbfxZ d a b s = _
  unfold execVbfxZ vec2 word
  exact ⟨_, rfl⟩
theorem vbfxS (d : F7) (a : F7) (b : F7) : Statement (.vbfxS d a b) := fun _ s => by
  show ∃ body, execVbfxS d a b s = _
  unfold execVbfxS vec2 word
  exact ⟨_, rfl⟩
theorem vbfi (d : F7) (a : F7) (b : F7) : Statement (.vbfi d a b) := fun _ s => by
  show ∃ body, execVbfi d a b s = _
  unfold execVbfi vec3 word
  exact ⟨_, rfl⟩
theorem vcmpEq (d : F7) (a : F7) (b : F7) : Statement (.vcmpEq d a b) := fun _ s => by
  show ∃ body, execVcmpEq d a b s = _
  unfold execVcmpEq vec2 word
  exact ⟨_, rfl⟩
theorem vcmpNe (d : F7) (a : F7) (b : F7) : Statement (.vcmpNe d a b) := fun _ s => by
  show ∃ body, execVcmpNe d a b s = _
  unfold execVcmpNe vec2 word
  exact ⟨_, rfl⟩
theorem vcmpLtS (d : F7) (a : F7) (b : F7) : Statement (.vcmpLtS d a b) := fun _ s => by
  show ∃ body, execVcmpLtS d a b s = _
  unfold execVcmpLtS vec2 word
  exact ⟨_, rfl⟩
theorem vcmpLtZ (d : F7) (a : F7) (b : F7) : Statement (.vcmpLtZ d a b) := fun _ s => by
  show ∃ body, execVcmpLtZ d a b s = _
  unfold execVcmpLtZ vec2 word
  exact ⟨_, rfl⟩
theorem vcmpLeS (d : F7) (a : F7) (b : F7) : Statement (.vcmpLeS d a b) := fun _ s => by
  show ∃ body, execVcmpLeS d a b s = _
  unfold execVcmpLeS vec2 word
  exact ⟨_, rfl⟩
theorem vcmpLeZ (d : F7) (a : F7) (b : F7) : Statement (.vcmpLeZ d a b) := fun _ s => by
  show ∃ body, execVcmpLeZ d a b s = _
  unfold execVcmpLeZ vec2 word
  exact ⟨_, rfl⟩
theorem vmov (d : F7) (a : F7) : Statement (.vmov d a) := fun _ s => by
  show ∃ body, execVmov d a s = _
  unfold execVmov word
  exact ⟨_, rfl⟩
theorem vbcast (d : F7) (a : F7) : Statement (.vbcast d a) := fun _ s => by
  show ∃ body, execVbcast d a s = _
  unfold execVbcast word
  exact ⟨_, rfl⟩
theorem vext (d : F7) (a : F7) (b : F7) : Statement (.vext d a b) := fun _ s => by
  show ∃ body, execVext d a b s = _
  unfold execVext word
  exact ⟨_, rfl⟩
theorem vins (d : F7) (a : F7) (b : F7) : Statement (.vins d a b) := fun _ s => by
  show ∃ body, execVins d a b s = _
  unfold execVins word
  exact ⟨_, rfl⟩
theorem sadd (d : F7) (a : F7) (b : F7) : Statement (.sadd d a b) := fun _ s => by
  show ∃ body, execSadd d a b s = _
  unfold execSadd sca2 word
  exact ⟨_, rfl⟩
theorem ssub (d : F7) (a : F7) (b : F7) : Statement (.ssub d a b) := fun _ s => by
  show ∃ body, execSsub d a b s = _
  unfold execSsub sca2 word
  exact ⟨_, rfl⟩
theorem smul (d : F7) (a : F7) (b : F7) : Statement (.smul d a b) := fun _ s => by
  show ∃ body, execSmul d a b s = _
  unfold execSmul sca2 word
  exact ⟨_, rfl⟩
theorem smulhS (d : F7) (a : F7) (b : F7) : Statement (.smulhS d a b) := fun _ s => by
  show ∃ body, execSmulhS d a b s = _
  unfold execSmulhS sca2 word
  exact ⟨_, rfl⟩
theorem smulhZ (d : F7) (a : F7) (b : F7) : Statement (.smulhZ d a b) := fun _ s => by
  show ∃ body, execSmulhZ d a b s = _
  unfold execSmulhZ sca2 word
  exact ⟨_, rfl⟩
theorem sminS (d : F7) (a : F7) (b : F7) : Statement (.sminS d a b) := fun _ s => by
  show ∃ body, execSminS d a b s = _
  unfold execSminS sca2 word
  exact ⟨_, rfl⟩
theorem sminZ (d : F7) (a : F7) (b : F7) : Statement (.sminZ d a b) := fun _ s => by
  show ∃ body, execSminZ d a b s = _
  unfold execSminZ sca2 word
  exact ⟨_, rfl⟩
theorem smaxS (d : F7) (a : F7) (b : F7) : Statement (.smaxS d a b) := fun _ s => by
  show ∃ body, execSmaxS d a b s = _
  unfold execSmaxS sca2 word
  exact ⟨_, rfl⟩
theorem smaxZ (d : F7) (a : F7) (b : F7) : Statement (.smaxZ d a b) := fun _ s => by
  show ∃ body, execSmaxZ d a b s = _
  unfold execSmaxZ sca2 word
  exact ⟨_, rfl⟩
theorem sdivS (d : F7) (a : F7) (b : F7) : Statement (.sdivS d a b) := fun _ s => by
  show ∃ body, execSdivS d a b s = _
  unfold execSdivS sca2 word
  exact ⟨_, rfl⟩
theorem sdivZ (d : F7) (a : F7) (b : F7) : Statement (.sdivZ d a b) := fun _ s => by
  show ∃ body, execSdivZ d a b s = _
  unfold execSdivZ sca2 word
  exact ⟨_, rfl⟩
theorem sremS (d : F7) (a : F7) (b : F7) : Statement (.sremS d a b) := fun _ s => by
  show ∃ body, execSremS d a b s = _
  unfold execSremS sca2 word
  exact ⟨_, rfl⟩
theorem sremZ (d : F7) (a : F7) (b : F7) : Statement (.sremZ d a b) := fun _ s => by
  show ∃ body, execSremZ d a b s = _
  unfold execSremZ sca2 word
  exact ⟨_, rfl⟩
theorem sand (d : F7) (a : F7) (b : F7) : Statement (.sand d a b) := fun _ s => by
  show ∃ body, execSand d a b s = _
  unfold execSand sca2 word
  exact ⟨_, rfl⟩
theorem sor (d : F7) (a : F7) (b : F7) : Statement (.sor d a b) := fun _ s => by
  show ∃ body, execSor d a b s = _
  unfold execSor sca2 word
  exact ⟨_, rfl⟩
theorem sxor (d : F7) (a : F7) (b : F7) : Statement (.sxor d a b) := fun _ s => by
  show ∃ body, execSxor d a b s = _
  unfold execSxor sca2 word
  exact ⟨_, rfl⟩
theorem sandn (d : F7) (a : F7) (b : F7) : Statement (.sandn d a b) := fun _ s => by
  show ∃ body, execSandn d a b s = _
  unfold execSandn sca2 word
  exact ⟨_, rfl⟩
theorem sshl (d : F7) (a : F7) (b : F7) : Statement (.sshl d a b) := fun _ s => by
  show ∃ body, execSshl d a b s = _
  unfold execSshl sca2 word
  exact ⟨_, rfl⟩
theorem sshrZ (d : F7) (a : F7) (b : F7) : Statement (.sshrZ d a b) := fun _ s => by
  show ∃ body, execSshrZ d a b s = _
  unfold execSshrZ sca2 word
  exact ⟨_, rfl⟩
theorem sshrS (d : F7) (a : F7) (b : F7) : Statement (.sshrS d a b) := fun _ s => by
  show ∃ body, execSshrS d a b s = _
  unfold execSshrS sca2 word
  exact ⟨_, rfl⟩
theorem spopc (d : F7) (a : F7) : Statement (.spopc d a) := fun _ s => by
  show ∃ body, execSpopc d a s = _
  unfold execSpopc sca1 word
  exact ⟨_, rfl⟩
theorem sclz (d : F7) (a : F7) : Statement (.sclz d a) := fun _ s => by
  show ∃ body, execSclz d a s = _
  unfold execSclz sca1 word
  exact ⟨_, rfl⟩
theorem scmpEq (d : F7) (a : F7) (b : F7) : Statement (.scmpEq d a b) := fun _ s => by
  show ∃ body, execScmpEq d a b s = _
  unfold execScmpEq sca2 word
  exact ⟨_, rfl⟩
theorem scmpNe (d : F7) (a : F7) (b : F7) : Statement (.scmpNe d a b) := fun _ s => by
  show ∃ body, execScmpNe d a b s = _
  unfold execScmpNe sca2 word
  exact ⟨_, rfl⟩
theorem scmpLtS (d : F7) (a : F7) (b : F7) : Statement (.scmpLtS d a b) := fun _ s => by
  show ∃ body, execScmpLtS d a b s = _
  unfold execScmpLtS sca2 word
  exact ⟨_, rfl⟩
theorem scmpLtZ (d : F7) (a : F7) (b : F7) : Statement (.scmpLtZ d a b) := fun _ s => by
  show ∃ body, execScmpLtZ d a b s = _
  unfold execScmpLtZ sca2 word
  exact ⟨_, rfl⟩
theorem scmpLeS (d : F7) (a : F7) (b : F7) : Statement (.scmpLeS d a b) := fun _ s => by
  show ∃ body, execScmpLeS d a b s = _
  unfold execScmpLeS sca2 word
  exact ⟨_, rfl⟩
theorem scmpLeZ (d : F7) (a : F7) (b : F7) : Statement (.scmpLeZ d a b) := fun _ s => by
  show ∃ body, execScmpLeZ d a b s = _
  unfold execScmpLeZ sca2 word
  exact ⟨_, rfl⟩
theorem smov (d : F7) (a : F7) : Statement (.smov d a) := fun _ s => by
  show ∃ body, execSmov d a s = _
  unfold execSmov sca1 word
  exact ⟨_, rfl⟩
theorem ssel (d : F7) (a : F7) (b : F7) : Statement (.ssel d a b) := fun _ s => by
  show ∃ body, execSsel d a b s = _
  unfold execSsel sca3 word
  exact ⟨_, rfl⟩
theorem vaddi (d : F7) (a : F7) (i : BitVec 10) : Statement (.vaddi d a i) := fun _ s => by
  show ∃ body, execVaddi d a i s = _
  unfold execVaddi vecK word
  exact ⟨_, rfl⟩
theorem vmuli (d : F7) (a : F7) (i : BitVec 10) : Statement (.vmuli d a i) := fun _ s => by
  show ∃ body, execVmuli d a i s = _
  unfold execVmuli vecK word
  exact ⟨_, rfl⟩
theorem vandi (d : F7) (a : F7) (i : BitVec 10) : Statement (.vandi d a i) := fun _ s => by
  show ∃ body, execVandi d a i s = _
  unfold execVandi vecK word
  exact ⟨_, rfl⟩
theorem vori (d : F7) (a : F7) (i : BitVec 10) : Statement (.vori d a i) := fun _ s => by
  show ∃ body, execVori d a i s = _
  unfold execVori vecK word
  exact ⟨_, rfl⟩
theorem vxori (d : F7) (a : F7) (i : BitVec 10) : Statement (.vxori d a i) := fun _ s => by
  show ∃ body, execVxori d a i s = _
  unfold execVxori vecK word
  exact ⟨_, rfl⟩
theorem vshli (d : F7) (a : F7) (i : BitVec 10) : Statement (.vshli d a i) := fun _ s => by
  show ∃ body, execVshli d a i s = _
  unfold execVshli vecK word
  exact ⟨_, rfl⟩
theorem vshriZ (d : F7) (a : F7) (i : BitVec 10) : Statement (.vshriZ d a i) := fun _ s => by
  show ∃ body, execVshriZ d a i s = _
  unfold execVshriZ vecK word
  exact ⟨_, rfl⟩
theorem vshriS (d : F7) (a : F7) (i : BitVec 10) : Statement (.vshriS d a i) := fun _ s => by
  show ∃ body, execVshriS d a i s = _
  unfold execVshriS vecK word
  exact ⟨_, rfl⟩
theorem vcmpiEq (d : F7) (a : F7) (i : BitVec 10) : Statement (.vcmpiEq d a i) := fun _ s => by
  show ∃ body, execVcmpiEq d a i s = _
  unfold execVcmpiEq vecK word
  exact ⟨_, rfl⟩
theorem vcmpiLtS (d : F7) (a : F7) (i : BitVec 10) : Statement (.vcmpiLtS d a i) := fun _ s => by
  show ∃ body, execVcmpiLtS d a i s = _
  unfold execVcmpiLtS vecK word
  exact ⟨_, rfl⟩
theorem vcmpiLtZ (d : F7) (a : F7) (i : BitVec 10) : Statement (.vcmpiLtZ d a i) := fun _ s => by
  show ∃ body, execVcmpiLtZ d a i s = _
  unfold execVcmpiLtZ vecK word
  exact ⟨_, rfl⟩
theorem vminiS (d : F7) (a : F7) (i : BitVec 10) : Statement (.vminiS d a i) := fun _ s => by
  show ∃ body, execVminiS d a i s = _
  unfold execVminiS vecK word
  exact ⟨_, rfl⟩
theorem vmaxiS (d : F7) (a : F7) (i : BitVec 10) : Statement (.vmaxiS d a i) := fun _ s => by
  show ∃ body, execVmaxiS d a i s = _
  unfold execVmaxiS vecK word
  exact ⟨_, rfl⟩
theorem saddi (d : F7) (a : F7) (i : BitVec 10) : Statement (.saddi d a i) := fun _ s => by
  show ∃ body, execSaddi d a i s = _
  unfold execSaddi sca1 word
  exact ⟨_, rfl⟩
theorem smuli (d : F7) (a : F7) (i : BitVec 10) : Statement (.smuli d a i) := fun _ s => by
  show ∃ body, execSmuli d a i s = _
  unfold execSmuli sca1 word
  exact ⟨_, rfl⟩
theorem sandi (d : F7) (a : F7) (i : BitVec 10) : Statement (.sandi d a i) := fun _ s => by
  show ∃ body, execSandi d a i s = _
  unfold execSandi sca1 word
  exact ⟨_, rfl⟩
theorem sori (d : F7) (a : F7) (i : BitVec 10) : Statement (.sori d a i) := fun _ s => by
  show ∃ body, execSori d a i s = _
  unfold execSori sca1 word
  exact ⟨_, rfl⟩
theorem sxori (d : F7) (a : F7) (i : BitVec 10) : Statement (.sxori d a i) := fun _ s => by
  show ∃ body, execSxori d a i s = _
  unfold execSxori sca1 word
  exact ⟨_, rfl⟩
theorem sshli (d : F7) (a : F7) (i : BitVec 10) : Statement (.sshli d a i) := fun _ s => by
  show ∃ body, execSshli d a i s = _
  unfold execSshli sca1 word
  exact ⟨_, rfl⟩
theorem sshriZ (d : F7) (a : F7) (i : BitVec 10) : Statement (.sshriZ d a i) := fun _ s => by
  show ∃ body, execSshriZ d a i s = _
  unfold execSshriZ sca1 word
  exact ⟨_, rfl⟩
theorem sshriS (d : F7) (a : F7) (i : BitVec 10) : Statement (.sshriS d a i) := fun _ s => by
  show ∃ body, execSshriS d a i s = _
  unfold execSshriS sca1 word
  exact ⟨_, rfl⟩
theorem scmpiEq (d : F7) (a : F7) (i : BitVec 10) : Statement (.scmpiEq d a i) := fun _ s => by
  show ∃ body, execScmpiEq d a i s = _
  unfold execScmpiEq sca1 word
  exact ⟨_, rfl⟩
theorem scmpiLtS (d : F7) (a : F7) (i : BitVec 10) : Statement (.scmpiLtS d a i) := fun _ s => by
  show ∃ body, execScmpiLtS d a i s = _
  unfold execScmpiLtS sca1 word
  exact ⟨_, rfl⟩
theorem scmpiLtZ (d : F7) (a : F7) (i : BitVec 10) : Statement (.scmpiLtZ d a i) := fun _ s => by
  show ∃ body, execScmpiLtZ d a i s = _
  unfold execScmpiLtZ sca1 word
  exact ⟨_, rfl⟩
theorem sminiS (d : F7) (a : F7) (i : BitVec 10) : Statement (.sminiS d a i) := fun _ s => by
  show ∃ body, execSminiS d a i s = _
  unfold execSminiS sca1 word
  exact ⟨_, rfl⟩
theorem smaxiS (d : F7) (a : F7) (i : BitVec 10) : Statement (.smaxiS d a i) := fun _ s => by
  show ∃ body, execSmaxiS d a i s = _
  unfold execSmaxiS sca1 word
  exact ⟨_, rfl⟩
theorem vmovi (d : F7) (i : BitVec 19) : Statement (.vmovi d i) := fun _ s => by
  show ∃ body, execVmovi d i s = _
  unfold execVmovi word
  exact ⟨_, rfl⟩
theorem vmovhi (d : F7) (i : BitVec 19) : Statement (.vmovhi d i) := fun _ s => by
  show ∃ body, execVmovhi d i s = _
  unfold execVmovhi word
  exact ⟨_, rfl⟩
theorem smovi (d : F7) (i : BitVec 19) : Statement (.smovi d i) := fun _ s => by
  show ∃ body, execSmovi d i s = _
  unfold execSmovi word
  exact ⟨_, rfl⟩
theorem smovhi (d : F7) (i : BitVec 19) : Statement (.smovhi d i) := fun _ s => by
  show ∃ body, execSmovhi d i s = _
  unfold execSmovhi word
  exact ⟨_, rfl⟩
theorem fadd (d : F7) (a : F7) (b : F7) : Statement (.fadd d a b) := fun _ s => by
  show ∃ body, execFadd d a b s = _
  unfold execFadd vec2 word
  exact ⟨_, rfl⟩
theorem fsub (d : F7) (a : F7) (b : F7) : Statement (.fsub d a b) := fun _ s => by
  show ∃ body, execFsub d a b s = _
  unfold execFsub vec2 word
  exact ⟨_, rfl⟩
theorem fmul (d : F7) (a : F7) (b : F7) : Statement (.fmul d a b) := fun _ s => by
  show ∃ body, execFmul d a b s = _
  unfold execFmul vec2 word
  exact ⟨_, rfl⟩
theorem ffma (d : F7) (a : F7) (b : F7) : Statement (.ffma d a b) := fun _ s => by
  show ∃ body, execFfma d a b s = _
  unfold execFfma vec3 word
  exact ⟨_, rfl⟩
theorem fmin (d : F7) (a : F7) (b : F7) : Statement (.fmin d a b) := fun _ s => by
  show ∃ body, execFmin d a b s = _
  unfold execFmin vec2 word
  exact ⟨_, rfl⟩
theorem fmax (d : F7) (a : F7) (b : F7) : Statement (.fmax d a b) := fun _ s => by
  show ∃ body, execFmax d a b s = _
  unfold execFmax vec2 word
  exact ⟨_, rfl⟩
theorem fabs (d : F7) (a : F7) : Statement (.fabs d a) := fun _ s => by
  show ∃ body, execFabs d a s = _
  unfold execFabs vec1 word
  exact ⟨_, rfl⟩
theorem fneg (d : F7) (a : F7) : Statement (.fneg d a) := fun _ s => by
  show ∃ body, execFneg d a s = _
  unfold execFneg vec1 word
  exact ⟨_, rfl⟩
theorem fdiv (d : F7) (a : F7) (b : F7) : Statement (.fdiv d a b) := fun _ s => by
  show ∃ body, execFdiv d a b s = _
  unfold execFdiv vec2 word
  exact ⟨_, rfl⟩
theorem fsqrt (d : F7) (a : F7) : Statement (.fsqrt d a) := fun _ s => by
  show ∃ body, execFsqrt d a s = _
  unfold execFsqrt vec1 word
  exact ⟨_, rfl⟩
theorem frcp (d : F7) (a : F7) : Statement (.frcp d a) := fun _ s => by
  show ∃ body, execFrcp d a s = _
  unfold execFrcp vec1 word
  exact ⟨_, rfl⟩
theorem fcmpEq (d : F7) (a : F7) (b : F7) : Statement (.fcmpEq d a b) := fun _ s => by
  show ∃ body, execFcmpEq d a b s = _
  unfold execFcmpEq vec2 word
  exact ⟨_, rfl⟩
theorem fcmpLt (d : F7) (a : F7) (b : F7) : Statement (.fcmpLt d a b) := fun _ s => by
  show ∃ body, execFcmpLt d a b s = _
  unfold execFcmpLt vec2 word
  exact ⟨_, rfl⟩
theorem fcmpLe (d : F7) (a : F7) (b : F7) : Statement (.fcmpLe d a b) := fun _ s => by
  show ∃ body, execFcmpLe d a b s = _
  unfold execFcmpLe vec2 word
  exact ⟨_, rfl⟩
theorem fcmpUn (d : F7) (a : F7) (b : F7) : Statement (.fcmpUn d a b) := fun _ s => by
  show ∃ body, execFcmpUn d a b s = _
  unfold execFcmpUn vec2 word
  exact ⟨_, rfl⟩
theorem fclass (d : F7) (a : F7) : Statement (.fclass d a) := fun _ s => by
  show ∃ body, execFclass d a s = _
  unfold execFclass vec1 word
  exact ⟨_, rfl⟩
theorem fscale (d : F7) (a : F7) (b : F7) : Statement (.fscale d a b) := fun _ s => by
  show ∃ body, execFscale d a b s = _
  unfold execFscale vec2 word
  exact ⟨_, rfl⟩
theorem ffloor (d : F7) (a : F7) : Statement (.ffloor d a) := fun _ s => by
  show ∃ body, execFfloor d a s = _
  unfold execFfloor vec1 word
  exact ⟨_, rfl⟩
theorem fceil (d : F7) (a : F7) : Statement (.fceil d a) := fun _ s => by
  show ∃ body, execFceil d a s = _
  unfold execFceil vec1 word
  exact ⟨_, rfl⟩
theorem ftrunc (d : F7) (a : F7) : Statement (.ftrunc d a) := fun _ s => by
  show ∃ body, execFtrunc d a s = _
  unfold execFtrunc vec1 word
  exact ⟨_, rfl⟩
theorem frint (d : F7) (a : F7) : Statement (.frint d a) := fun _ s => by
  show ∃ body, execFrint d a s = _
  unfold execFrint word
  exact ⟨_, rfl⟩
theorem faddB2 (d : F7) (a : F7) (b : F7) : Statement (.faddB2 d a b) := fun _ s => by
  show ∃ body, execFaddB2 d a b s = _
  unfold execFaddB2 vec2 word
  exact ⟨_, rfl⟩
theorem fmulB2 (d : F7) (a : F7) (b : F7) : Statement (.fmulB2 d a b) := fun _ s => by
  show ∃ body, execFmulB2 d a b s = _
  unfold execFmulB2 vec2 word
  exact ⟨_, rfl⟩
theorem ffmaB2 (d : F7) (a : F7) (b : F7) : Statement (.ffmaB2 d a b) := fun _ s => by
  show ∃ body, execFfmaB2 d a b s = _
  unfold execFfmaB2 vec3 word
  exact ⟨_, rfl⟩
theorem faddH2 (d : F7) (a : F7) (b : F7) : Statement (.faddH2 d a b) := fun _ s => by
  show ∃ body, execFaddH2 d a b s = _
  unfold execFaddH2 vec2 word
  exact ⟨_, rfl⟩
theorem fmulH2 (d : F7) (a : F7) (b : F7) : Statement (.fmulH2 d a b) := fun _ s => by
  show ∃ body, execFmulH2 d a b s = _
  unfold execFmulH2 vec2 word
  exact ⟨_, rfl⟩
theorem ffmaH2 (d : F7) (a : F7) (b : F7) : Statement (.ffmaH2 d a b) := fun _ s => by
  show ∃ body, execFfmaH2 d a b s = _
  unfold execFfmaH2 vec3 word
  exact ⟨_, rfl⟩
theorem fmaxB2 (d : F7) (a : F7) (b : F7) : Statement (.fmaxB2 d a b) := fun _ s => by
  show ∃ body, execFmaxB2 d a b s = _
  unfold execFmaxB2 vec2 word
  exact ⟨_, rfl⟩
theorem fminB2 (d : F7) (a : F7) (b : F7) : Statement (.fminB2 d a b) := fun _ s => by
  show ∃ body, execFminB2 d a b s = _
  unfold execFminB2 vec2 word
  exact ⟨_, rfl⟩
theorem cvtFS (d : F7) (a : F7) : Statement (.cvtFS d a) := fun _ s => by
  show ∃ body, execCvtFS d a s = _
  unfold execCvtFS vec1 word
  exact ⟨_, rfl⟩
theorem cvtFZ (d : F7) (a : F7) : Statement (.cvtFZ d a) := fun _ s => by
  show ∃ body, execCvtFZ d a s = _
  unfold execCvtFZ vec1 word
  exact ⟨_, rfl⟩
theorem cvtSF (d : F7) (a : F7) : Statement (.cvtSF d a) := fun _ s => by
  show ∃ body, execCvtSF d a s = _
  unfold execCvtSF vec1 word
  exact ⟨_, rfl⟩
theorem cvtZF (d : F7) (a : F7) : Statement (.cvtZF d a) := fun _ s => by
  show ∃ body, execCvtZF d a s = _
  unfold execCvtZF vec1 word
  exact ⟨_, rfl⟩
theorem cvtB2F (d : F7) (a : F7) (b : F7) : Statement (.cvtB2F d a b) := fun _ s => by
  show ∃ body, execCvtB2F d a b s = _
  unfold execCvtB2F vec2 word
  exact ⟨_, rfl⟩
theorem cvtH2F (d : F7) (a : F7) (b : F7) : Statement (.cvtH2F d a b) := fun _ s => by
  show ∃ body, execCvtH2F d a b s = _
  unfold execCvtH2F vec2 word
  exact ⟨_, rfl⟩
theorem cvtFB2 (d : F7) (a : F7) (n : F7) : Statement (.cvtFB2 d a n) := fun _ s => by
  show ∃ body, execCvtFB2 d a n s = _
  unfold execCvtFB2 vec1 word
  exact ⟨_, rfl⟩
theorem cvtFH2 (d : F7) (a : F7) (n : F7) : Statement (.cvtFH2 d a n) := fun _ s => by
  show ∃ body, execCvtFH2 d a n s = _
  unfold execCvtFH2 vec1 word
  exact ⟨_, rfl⟩
theorem cvtNF (d : F7) (a : F7) (b : F7) : Statement (.cvtNF d a b) := fun _ s => by
  show ∃ body, execCvtNF d a b s = _
  unfold execCvtNF vecNarrow word
  exact ⟨_, rfl⟩
theorem cvtFN (d : F7) (a : F7) (b : F7) : Statement (.cvtFN d a b) := fun _ s => by
  show ∃ body, execCvtFN d a b s = _
  unfold execCvtFN vecNarrow word
  exact ⟨_, rfl⟩
theorem vpack4 (d : F7) (a : F7) (n : F7) : Statement (.vpack4 d a n) := fun _ s => by
  show ∃ body, execVpack4 d a n s = _
  unfold execVpack4 word
  exact ⟨_, rfl⟩
theorem vunpk4 (d : F7) (a : F7) (n : F7) : Statement (.vunpk4 d a n) := fun _ s => by
  show ∃ body, execVunpk4 d a n s = _
  unfold execVunpk4 vec1 word
  exact ⟨_, rfl⟩
theorem fexp2 (d : F7) (a : F7) : Statement (.fexp2 d a) := fun _ s => by
  show ∃ body, execFexp2 d a s = _
  unfold execFexp2 vec1 word
  exact ⟨_, rfl⟩
theorem flog2 (d : F7) (a : F7) : Statement (.flog2 d a) := fun _ s => by
  show ∃ body, execFlog2 d a s = _
  unfold execFlog2 vec1 word
  exact ⟨_, rfl⟩
theorem frsqrt (d : F7) (a : F7) : Statement (.frsqrt d a) := fun _ s => by
  show ∃ body, execFrsqrt d a s = _
  unfold execFrsqrt vec1 word
  exact ⟨_, rfl⟩
theorem fsinpi (d : F7) (a : F7) : Statement (.fsinpi d a) := fun _ s => by
  show ∃ body, execFsinpi d a s = _
  unfold execFsinpi vec1 word
  exact ⟨_, rfl⟩
theorem fcospi (d : F7) (a : F7) : Statement (.fcospi d a) := fun _ s => by
  show ∃ body, execFcospi d a s = _
  unfold execFcospi vec1 word
  exact ⟨_, rfl⟩
theorem ftanh (d : F7) (a : F7) : Statement (.ftanh d a) := fun _ s => by
  show ∃ body, execFtanh d a s = _
  unfold execFtanh vec1 word
  exact ⟨_, rfl⟩
theorem fsigm (d : F7) (a : F7) : Statement (.fsigm d a) := fun _ s => by
  show ∃ body, execFsigm d a s = _
  unfold execFsigm vec1 word
  exact ⟨_, rfl⟩
theorem vshflIdx (d : F7) (a : F7) (b : F7) : Statement (.vshflIdx d a b) := fun _ s => by
  show ∃ body, execVshflIdx d a b s = _
  unfold execVshflIdx vecShuffle word
  exact ⟨_, rfl⟩
theorem vshflUp (d : F7) (a : F7) (b : F7) : Statement (.vshflUp d a b) := fun _ s => by
  show ∃ body, execVshflUp d a b s = _
  unfold execVshflUp vecShuffle word
  exact ⟨_, rfl⟩
theorem vshflDn (d : F7) (a : F7) (b : F7) : Statement (.vshflDn d a b) := fun _ s => by
  show ∃ body, execVshflDn d a b s = _
  unfold execVshflDn vecShuffle word
  exact ⟨_, rfl⟩
theorem vshflXor (d : F7) (a : F7) (b : F7) : Statement (.vshflXor d a b) := fun _ s => by
  show ∃ body, execVshflXor d a b s = _
  unfold execVshflXor vecShuffle word
  exact ⟨_, rfl⟩
theorem vredAdd (d : F7) (a : F7) : Statement (.vredAdd d a) := fun _ s => by
  show ∃ body, execVredAdd d a s = _
  unfold execVredAdd vecReduce word
  exact ⟨_, rfl⟩
theorem vredMinS (d : F7) (a : F7) : Statement (.vredMinS d a) := fun _ s => by
  show ∃ body, execVredMinS d a s = _
  unfold execVredMinS vecReduce word
  exact ⟨_, rfl⟩
theorem vredMaxS (d : F7) (a : F7) : Statement (.vredMaxS d a) := fun _ s => by
  show ∃ body, execVredMaxS d a s = _
  unfold execVredMaxS vecReduce word
  exact ⟨_, rfl⟩
theorem vredMinZ (d : F7) (a : F7) : Statement (.vredMinZ d a) := fun _ s => by
  show ∃ body, execVredMinZ d a s = _
  unfold execVredMinZ vecReduce word
  exact ⟨_, rfl⟩
theorem vredMaxZ (d : F7) (a : F7) : Statement (.vredMaxZ d a) := fun _ s => by
  show ∃ body, execVredMaxZ d a s = _
  unfold execVredMaxZ vecReduce word
  exact ⟨_, rfl⟩
theorem vredAnd (d : F7) (a : F7) : Statement (.vredAnd d a) := fun _ s => by
  show ∃ body, execVredAnd d a s = _
  unfold execVredAnd vecReduce word
  exact ⟨_, rfl⟩
theorem vredOr (d : F7) (a : F7) : Statement (.vredOr d a) := fun _ s => by
  show ∃ body, execVredOr d a s = _
  unfold execVredOr vecReduce word
  exact ⟨_, rfl⟩
theorem vredXor (d : F7) (a : F7) : Statement (.vredXor d a) := fun _ s => by
  show ∃ body, execVredXor d a s = _
  unfold execVredXor vecReduce word
  exact ⟨_, rfl⟩
theorem vredFadd (d : F7) (a : F7) : Statement (.vredFadd d a) := fun _ s => by
  show ∃ body, execVredFadd d a s = _
  unfold execVredFadd vecReduce word
  exact ⟨_, rfl⟩
theorem vredFmin (d : F7) (a : F7) : Statement (.vredFmin d a) := fun _ s => by
  show ∃ body, execVredFmin d a s = _
  unfold execVredFmin vecReduce word
  exact ⟨_, rfl⟩
theorem vredFmax (d : F7) (a : F7) : Statement (.vredFmax d a) := fun _ s => by
  show ∃ body, execVredFmax d a s = _
  unfold execVredFmax vecReduce word
  exact ⟨_, rfl⟩
theorem vargminS (d : F7) (a : F7) : Statement (.vargminS d a) := fun _ s => by
  show ∃ body, execVargminS d a s = _
  unfold execVargminS vecArg word
  exact ⟨_, rfl⟩
theorem vargminZ (d : F7) (a : F7) : Statement (.vargminZ d a) := fun _ s => by
  show ∃ body, execVargminZ d a s = _
  unfold execVargminZ vecArg word
  exact ⟨_, rfl⟩
theorem vargmaxS (d : F7) (a : F7) : Statement (.vargmaxS d a) := fun _ s => by
  show ∃ body, execVargmaxS d a s = _
  unfold execVargmaxS vecArg word
  exact ⟨_, rfl⟩
theorem vargmaxZ (d : F7) (a : F7) : Statement (.vargmaxZ d a) := fun _ s => by
  show ∃ body, execVargmaxZ d a s = _
  unfold execVargmaxZ vecArg word
  exact ⟨_, rfl⟩
theorem vscanAdd (d : F7) (a : F7) : Statement (.vscanAdd d a) := fun _ s => by
  show ∃ body, execVscanAdd d a s = _
  unfold execVscanAdd vecScan word
  exact ⟨_, rfl⟩
theorem vscanFadd (d : F7) (a : F7) : Statement (.vscanFadd d a) := fun _ s => by
  show ∃ body, execVscanFadd d a s = _
  unfold execVscanFadd vecScan word
  exact ⟨_, rfl⟩
theorem vballot (d : F7) (a : F7) : Statement (.vballot d a) := fun _ s => by
  show ∃ body, execVballot d a s = _
  unfold execVballot word
  exact ⟨_, rfl⟩
theorem vany (d : F7) (a : F7) : Statement (.vany d a) := fun _ s => by
  show ∃ body, execVany d a s = _
  unfold execVany word
  exact ⟨_, rfl⟩
theorem vall (d : F7) (a : F7) : Statement (.vall d a) := fun _ s => by
  show ∃ body, execVall d a s = _
  unfold execVall word
  exact ⟨_, rfl⟩
theorem smovsr (d : F7) (n : F7) : Statement (.smovsr d n) := fun _ s => by
  show ∃ body, execSmovsr d n s = _
  unfold execSmovsr word
  exact ⟨_, rfl⟩
theorem vmovsr (d : F7) (n : F7) : Statement (.vmovsr d n) := fun _ s => by
  show ∃ body, execVmovsr d n s = _
  unfold execVmovsr word
  exact ⟨_, rfl⟩
theorem bnz (a : F7) (p : BitVec 4) (o : BitVec 14) : Statement (.bnz a p o) := fun _ s => by
  show ∃ body, execBnz a p o s = _
  unfold execBnz branch word
  exact ⟨_, rfl⟩
theorem bz (a : F7) (p : BitVec 4) (o : BitVec 14) : Statement (.bz a p o) := fun _ s => by
  show ∃ body, execBz a p o s = _
  unfold execBz branch word
  exact ⟨_, rfl⟩
theorem bsnz (a : F7) (p : BitVec 4) (o : BitVec 14) : Statement (.bsnz a p o) := fun _ s => by
  show ∃ body, execBsnz a p o s = _
  unfold execBsnz branch word
  exact ⟨_, rfl⟩
theorem bsz (a : F7) (p : BitVec 4) (o : BitVec 14) : Statement (.bsz a p o) := fun _ s => by
  show ∃ body, execBsz a p o s = _
  unfold execBsz branch word
  exact ⟨_, rfl⟩
theorem bra (p : BitVec 4) (o : BitVec 14) : Statement (.bra p o) := fun _ s => by
  show ∃ body, execBra p o s = _
  unfold execBra branch word
  exact ⟨_, rfl⟩
theorem calli (p : BitVec 4) (o : BitVec 14) : Statement (.calli p o) := fun _ s => by
  show ∃ body, execCalli p o s = _
  unfold execCalli word
  exact ⟨_, rfl⟩
theorem callv (d : F7) (a : F7) : Statement (.callv d a) := fun _ s => by
  show ∃ body, execCallv d a s = _
  unfold execCallv word
  exact ⟨_, rfl⟩
theorem calls (d : F7) (a : F7) : Statement (.calls d a) := fun _ s => by
  show ∃ body, execCalls d a s = _
  unfold execCalls word
  exact ⟨_, rfl⟩
theorem ret  : Statement (.ret) := fun _ s => by
  show ∃ body, execRet s = _
  unfold execRet word
  exact ⟨_, rfl⟩
theorem exit  : Statement (.exit) := fun _ s => by
  show ∃ body, execExit s = _
  unfold execExit word
  exact ⟨_, rfl⟩
theorem jmpv (d : F7) (a : F7) : Statement (.jmpv d a) := fun _ s => by
  show ∃ body, execJmpv d a s = _
  unfold execJmpv word
  exact ⟨_, rfl⟩
theorem rjset (d : F7) (a : F7) : Statement (.rjset d a) := fun _ s => by
  show ∃ body, execRjset d a s = _
  unfold execRjset setMembers word
  exact ⟨_, rfl⟩
theorem rjsetm (d : F7) (a : F7) : Statement (.rjsetm d a) := fun _ s => by
  show ∃ body, execRjsetm d a s = _
  unfold execRjsetm setMembers word
  exact ⟨_, rfl⟩
theorem rjenter (d : F7) : Statement (.rjenter d) := fun _ s => by
  show ∃ body, execRjenter d s = _
  unfold execRjenter word
  exact ⟨_, rfl⟩
theorem rjquit (d : F7) : Statement (.rjquit d) := fun _ s => by
  show ∃ body, execRjquit d s = _
  unfold execRjquit word
  exact ⟨_, rfl⟩
theorem rjwait (d : F7) : Statement (.rjwait d) := fun _ s => by
  show ∃ body, execRjwait d s = _
  unfold execRjwait word
  exact ⟨_, rfl⟩
theorem rjget (d : F7) (a : F7) (n : F7) : Statement (.rjget d a n) := fun _ s => by
  show ∃ body, execRjget d a n s = _
  unfold execRjget word
  exact ⟨_, rfl⟩
theorem yield  : Statement (.yield) := fun _ s => by
  show ∃ body, execYield s = _
  unfold execYield word
  exact ⟨_, rfl⟩
theorem setprio (n : F7) : Statement (.setprio n) := fun _ s => by
  show ∃ body, execSetprio n s = _
  unfold execSetprio word
  exact ⟨_, rfl⟩
theorem wbase (n : F7) : Statement (.wbase n) := fun _ s => by
  show ∃ body, execWbase n s = _
  unfold execWbase word
  exact ⟨_, rfl⟩
theorem nop  : Statement (.nop) := fun _ s => by
  show ∃ body, execNop s = _
  unfold execNop word
  exact ⟨_, rfl⟩
theorem brk (n : F7) : Statement (.brk n) := fun _ s => by
  show ∃ body, execBrk n s = _
  unfold execBrk word
  exact ⟨_, rfl⟩
theorem trap (n : F7) : Statement (.trap n) := fun _ s => by
  show ∃ body, execTrap n s = _
  unfold execTrap word
  exact ⟨_, rfl⟩
theorem frnd (n : F7) : Statement (.frnd n) := fun _ s => by
  show ∃ body, execFrnd n s = _
  unfold execFrnd word
  exact ⟨_, rfl⟩
theorem vldBZ (d : F7) (a : F7) (c : BitVec 5) (i : BitVec 6) : Statement (.vldBZ d a c i) := fun _ s => by
  show ∃ body, execVldBZ d a c i s = _
  unfold execVldBZ vecLoad word
  exact ⟨_, rfl⟩
theorem vldBS (d : F7) (a : F7) (c : BitVec 5) (i : BitVec 6) : Statement (.vldBS d a c i) := fun _ s => by
  show ∃ body, execVldBS d a c i s = _
  unfold execVldBS vecLoad word
  exact ⟨_, rfl⟩
theorem vldHZ (d : F7) (a : F7) (c : BitVec 5) (i : BitVec 6) : Statement (.vldHZ d a c i) := fun _ s => by
  show ∃ body, execVldHZ d a c i s = _
  unfold execVldHZ vecLoad word
  exact ⟨_, rfl⟩
theorem vldHS (d : F7) (a : F7) (c : BitVec 5) (i : BitVec 6) : Statement (.vldHS d a c i) := fun _ s => by
  show ∃ body, execVldHS d a c i s = _
  unfold execVldHS vecLoad word
  exact ⟨_, rfl⟩
theorem vldW (d : F7) (a : F7) (c : BitVec 5) (i : BitVec 6) : Statement (.vldW d a c i) := fun _ s => by
  show ∃ body, execVldW d a c i s = _
  unfold execVldW vecLoad word
  exact ⟨_, rfl⟩
theorem vldD (d : F7) (a : F7) (c : BitVec 5) (i : BitVec 6) : Statement (.vldD d a c i) := fun _ s => by
  show ∃ body, execVldD d a c i s = _
  unfold execVldD vecLoad word
  exact ⟨_, rfl⟩
theorem vldQ (d : F7) (a : F7) (c : BitVec 5) (i : BitVec 6) : Statement (.vldQ d a c i) := fun _ s => by
  show ∃ body, execVldQ d a c i s = _
  unfold execVldQ vecLoad word
  exact ⟨_, rfl⟩
theorem vldbc (d : F7) (a : F7) (c : BitVec 5) (i : BitVec 6) : Statement (.vldbc d a c i) := fun _ s => by
  show ∃ body, execVldbc d a c i s = _
  unfold execVldbc word
  exact ⟨_, rfl⟩
theorem vstB (d : F7) (a : F7) (c : BitVec 5) (i : BitVec 6) : Statement (.vstB d a c i) := fun _ s => by
  show ∃ body, execVstB d a c i s = _
  unfold execVstB vecStore word
  exact ⟨_, rfl⟩
theorem vstH (d : F7) (a : F7) (c : BitVec 5) (i : BitVec 6) : Statement (.vstH d a c i) := fun _ s => by
  show ∃ body, execVstH d a c i s = _
  unfold execVstH vecStore word
  exact ⟨_, rfl⟩
theorem vstW (d : F7) (a : F7) (c : BitVec 5) (i : BitVec 6) : Statement (.vstW d a c i) := fun _ s => by
  show ∃ body, execVstW d a c i s = _
  unfold execVstW vecStore word
  exact ⟨_, rfl⟩
theorem vstD (d : F7) (a : F7) (c : BitVec 5) (i : BitVec 6) : Statement (.vstD d a c i) := fun _ s => by
  show ∃ body, execVstD d a c i s = _
  unfold execVstD vecStore word
  exact ⟨_, rfl⟩
theorem vstQ (d : F7) (a : F7) (c : BitVec 5) (i : BitVec 6) : Statement (.vstQ d a c i) := fun _ s => by
  show ∃ body, execVstQ d a c i s = _
  unfold execVstQ vecStore word
  exact ⟨_, rfl⟩
theorem sldD (d : F7) (a : F7) (c : BitVec 5) (i : BitVec 6) : Statement (.sldD d a c i) := fun _ s => by
  show ∃ body, execSldD d a c i s = _
  unfold execSldD scaLoad word
  exact ⟨_, rfl⟩
theorem sldWS (d : F7) (a : F7) (c : BitVec 5) (i : BitVec 6) : Statement (.sldWS d a c i) := fun _ s => by
  show ∃ body, execSldWS d a c i s = _
  unfold execSldWS scaLoad word
  exact ⟨_, rfl⟩
theorem sldWZ (d : F7) (a : F7) (c : BitVec 5) (i : BitVec 6) : Statement (.sldWZ d a c i) := fun _ s => by
  show ∃ body, execSldWZ d a c i s = _
  unfold execSldWZ scaLoad word
  exact ⟨_, rfl⟩
theorem sstD (d : F7) (a : F7) (c : BitVec 5) (i : BitVec 6) : Statement (.sstD d a c i) := fun _ s => by
  show ∃ body, execSstD d a c i s = _
  unfold execSstD word
  exact ⟨_, rfl⟩
theorem sstW (d : F7) (a : F7) (c : BitVec 5) (i : BitVec 6) : Statement (.sstW d a c i) := fun _ s => by
  show ∃ body, execSstW d a c i s = _
  unfold execSstW word
  exact ⟨_, rfl⟩
theorem cld (d : F7) (a : F7) (c : BitVec 5) (i : BitVec 6) : Statement (.cld d a c i) := fun _ s => by
  show ∃ body, execCld d a c i s = _
  unfold execCld word
  exact ⟨_, rfl⟩
theorem cst (d : F7) (a : F7) (c : BitVec 5) (i : BitVec 6) : Statement (.cst d a c i) := fun _ s => by
  show ∃ body, execCst d a c i s = _
  unfold execCst word
  exact ⟨_, rfl⟩
theorem aadd (d : F7) (a : F7) (c : BitVec 5) (b : BitVec 5) : Statement (.aadd d a c b) := fun _ s => by
  show ∃ body, execAadd d a c b s = _
  unfold execAadd vecAtomic word
  exact ⟨_, rfl⟩
theorem aminS (d : F7) (a : F7) (c : BitVec 5) (b : BitVec 5) : Statement (.aminS d a c b) := fun _ s => by
  show ∃ body, execAminS d a c b s = _
  unfold execAminS vecAtomic word
  exact ⟨_, rfl⟩
theorem amaxS (d : F7) (a : F7) (c : BitVec 5) (b : BitVec 5) : Statement (.amaxS d a c b) := fun _ s => by
  show ∃ body, execAmaxS d a c b s = _
  unfold execAmaxS vecAtomic word
  exact ⟨_, rfl⟩
theorem aminZ (d : F7) (a : F7) (c : BitVec 5) (b : BitVec 5) : Statement (.aminZ d a c b) := fun _ s => by
  show ∃ body, execAminZ d a c b s = _
  unfold execAminZ vecAtomic word
  exact ⟨_, rfl⟩
theorem amaxZ (d : F7) (a : F7) (c : BitVec 5) (b : BitVec 5) : Statement (.amaxZ d a c b) := fun _ s => by
  show ∃ body, execAmaxZ d a c b s = _
  unfold execAmaxZ vecAtomic word
  exact ⟨_, rfl⟩
theorem aand (d : F7) (a : F7) (c : BitVec 5) (b : BitVec 5) : Statement (.aand d a c b) := fun _ s => by
  show ∃ body, execAand d a c b s = _
  unfold execAand vecAtomic word
  exact ⟨_, rfl⟩
theorem aor (d : F7) (a : F7) (c : BitVec 5) (b : BitVec 5) : Statement (.aor d a c b) := fun _ s => by
  show ∃ body, execAor d a c b s = _
  unfold execAor vecAtomic word
  exact ⟨_, rfl⟩
theorem axor (d : F7) (a : F7) (c : BitVec 5) (b : BitVec 5) : Statement (.axor d a c b) := fun _ s => by
  show ∃ body, execAxor d a c b s = _
  unfold execAxor vecAtomic word
  exact ⟨_, rfl⟩
theorem axchg (d : F7) (a : F7) (c : BitVec 5) (b : BitVec 5) : Statement (.axchg d a c b) := fun _ s => by
  show ∃ body, execAxchg d a c b s = _
  unfold execAxchg vecAtomic word
  exact ⟨_, rfl⟩
theorem acas (d : F7) (a : F7) (c : BitVec 5) (b : BitVec 5) : Statement (.acas d a c b) := fun _ s => by
  show ∃ body, execAcas d a c b s = _
  unfold execAcas vecAtomic word
  exact ⟨_, rfl⟩
theorem afadd (d : F7) (a : F7) (c : BitVec 5) (b : BitVec 5) : Statement (.afadd d a c b) := fun _ s => by
  show ∃ body, execAfadd d a c b s = _
  unfold execAfadd vecAtomic word
  exact ⟨_, rfl⟩
theorem saadd (d : F7) (a : F7) (c : BitVec 5) (b : BitVec 5) : Statement (.saadd d a c b) := fun _ s => by
  show ∃ body, execSaadd d a c b s = _
  unfold execSaadd scaAtomic word
  exact ⟨_, rfl⟩
theorem sacas (d : F7) (a : F7) (c : BitVec 5) (b : BitVec 5) : Statement (.sacas d a c b) := fun _ s => by
  show ∃ body, execSacas d a c b s = _
  unfold execSacas scaAtomic word
  exact ⟨_, rfl⟩
theorem fpub (n : F7) : Statement (.fpub n) := fun _ s => by
  show ∃ body, execFpub n s = _
  unfold execFpub word
  exact ⟨_, rfl⟩
theorem fsys (n : F7) : Statement (.fsys n) := fun _ s => by
  show ∃ body, execFsys n s = _
  unfold execFsys word
  exact ⟨_, rfl⟩
theorem tbinit (a : F7) (b : F7) : Statement (.tbinit a b) := fun _ s => by
  show ∃ body, execTbinit a b s = _
  unfold execTbinit word
  exact ⟨_, rfl⟩
theorem tbarrive (d : F7) (a : F7) (b : F7) : Statement (.tbarrive d a b) := fun _ s => by
  show ∃ body, execTbarrive d a b s = _
  unfold execTbarrive word
  exact ⟨_, rfl⟩
theorem tbwait (a : F7) (b : F7) : Statement (.tbwait a b) := fun _ s => by
  show ∃ body, execTbwait a b s = _
  unfold execTbwait word
  exact ⟨_, rfl⟩
theorem tbtest (d : F7) (a : F7) (b : F7) : Statement (.tbtest d a b) := fun _ s => by
  show ∃ body, execTbtest d a b s = _
  unfold execTbtest word
  exact ⟨_, rfl⟩
theorem teambar (n : F7) : Statement (.teambar n) := fun _ s => by
  show ∃ body, execTeambar n s = _
  unfold execTeambar word
  exact ⟨_, rfl⟩
theorem lvlbar (n : F7) : Statement (.lvlbar n) := fun _ s => by
  show ∃ body, execLvlbar n s = _
  unfold execLvlbar word
  exact ⟨_, rfl⟩
theorem send (d : F7) (a : F7) : Statement (.send d a) := fun _ s => by
  show ∃ body, execSend d a s = _
  unfold execSend word
  exact ⟨_, rfl⟩
theorem recv (d : F7) (a : F7) : Statement (.recv d a) := fun _ s => by
  show ∃ body, execRecv d a s = _
  unfold execRecv word
  exact ⟨_, rfl⟩
theorem qstat (d : F7) (a : F7) : Statement (.qstat d a) := fun _ s => by
  show ∃ body, execQstat d a s = _
  unfold execQstat
  exact ⟨_, rfl⟩
theorem tmwait (a : F7) : Statement (.tmwait a) := fun _ s => by
  show ∃ body, execTmwait a s = _
  unfold execTmwait
  exact ⟨_, rfl⟩
theorem svc (d : F7) (a : F7) (n : F7) : Statement (.svc d a n) := fun _ s => by
  show ∃ body, execSvc d a n s = _
  unfold execSvc
  exact ⟨_, rfl⟩
theorem icinv (n : F7) : Statement (.icinv n) := fun _ s => by
  show ∃ body, execIcinv n s = _
  unfold execIcinv
  exact ⟨_, rfl⟩
theorem bclaim (d : F7) (a : F7) (b : F7) : Statement (.bclaim d a b) := fun _ s => by
  show ∃ body, execBclaim d a b s = _
  unfold execBclaim
  exact ⟨_, rfl⟩
theorem bflow (d : F7) (a : F7) (b : F7) : Statement (.bflow d a b) := fun _ s => by
  show ∃ body, execBflow d a b s = _
  unfold execBflow
  exact ⟨_, rfl⟩
theorem bseal (d : F7) : Statement (.bseal d) := fun _ s => by
  show ∃ body, execBseal d s = _
  unfold execBseal
  exact ⟨_, rfl⟩
theorem bwait (a : F7) : Statement (.bwait a) := fun _ s => by
  show ∃ body, execBwait a s = _
  unfold execBwait
  exact ⟨_, rfl⟩
theorem brelease (a : F7) : Statement (.brelease a) := fun _ s => by
  show ∃ body, execBrelease a s = _
  unfold execBrelease
  exact ⟨_, rfl⟩
theorem bstat (d : F7) (a : F7) : Statement (.bstat d a) := fun _ s => by
  show ∃ body, execBstat d a s = _
  unfold execBstat
  exact ⟨_, rfl⟩
theorem coll (d : F7) (a : F7) (b : F7) : Statement (.coll d a b) := fun _ s => by
  show ∃ body, execColl d a b s = _
  unfold execColl
  exact ⟨_, rfl⟩
theorem rprio (a : F7) (b : F7) : Statement (.rprio a b) := fun _ s => by
  show ∃ body, execRprio a b s = _
  unfold execRprio
  exact ⟨_, rfl⟩
theorem rdemote (a : F7) : Statement (.rdemote a) := fun _ s => by
  show ∃ body, execRdemote a s = _
  unfold execRdemote
  exact ⟨_, rfl⟩
theorem rpromote (a : F7) (b : F7) : Statement (.rpromote a b) := fun _ s => by
  show ∃ body, execRpromote a b s = _
  unfold execRpromote
  exact ⟨_, rfl⟩
theorem rquery (d : F7) (a : F7) : Statement (.rquery d a) := fun _ s => by
  show ∃ body, execRquery d a s = _
  unfold execRquery
  exact ⟨_, rfl⟩
theorem tset (a : F7) (b : F7) : Statement (.tset a b) := fun _ s => by
  show ∃ body, execTset a b s = _
  unfold execTset
  exact ⟨_, rfl⟩
theorem tget (d : F7) (a : F7) (n : F7) : Statement (.tget d a n) := fun _ s => by
  show ∃ body, execTget d a n s = _
  unfold execTget
  exact ⟨_, rfl⟩
theorem gset (d : F7) (a : F7) : Statement (.gset d a) := fun _ s => by
  show ∃ body, execGset d a s = _
  unfold execGset
  exact ⟨_, rfl⟩
theorem mmx (d : F7) (a : F7) (b : F7) : Statement (.mmx d a b) := fun _ s => by
  show ∃ body, execMmx d a b s = _
  unfold execMmx mmxWord
  exact ⟨_, rfl⟩
theorem mmxz (d : F7) (a : F7) (b : F7) : Statement (.mmxz d a b) := fun _ s => by
  show ∃ body, execMmxz d a b s = _
  unfold execMmxz mmxWord
  exact ⟨_, rfl⟩
theorem accrd (d : F7) (a : F7) (b : F7) : Statement (.accrd d a b) := fun _ s => by
  show ∃ body, execAccrd d a b s = _
  unfold execAccrd
  exact ⟨_, rfl⟩
theorem accadd (d : F7) (a : F7) (b : F7) : Statement (.accadd d a b) := fun _ s => by
  show ∃ body, execAccadd d a b s = _
  unfold execAccadd
  exact ⟨_, rfl⟩
theorem accclr (a : F7) (b : F7) : Statement (.accclr a b) := fun _ s => by
  show ∃ body, execAccclr a b s = _
  unfold execAccclr
  exact ⟨_, rfl⟩
theorem tsum (d : F7) (a : F7) : Statement (.tsum d a) := fun _ s => by
  show ∃ body, execTsum d a s = _
  unfold execTsum
  exact ⟨_, rfl⟩
theorem cderive (d : F7) (a : F7) (b : F7) : Statement (.cderive d a b) := fun _ s => by
  show ∃ body, execCderive d a b s = _
  unfold execCderive
  exact ⟨_, rfl⟩
theorem cmov (d : F7) (a : F7) : Statement (.cmov d a) := fun _ s => by
  show ∃ body, execCmov d a s = _
  unfold execCmov
  exact ⟨_, rfl⟩
theorem cbase (d : F7) (a : F7) : Statement (.cbase d a) := fun _ s => by
  show ∃ body, execCbase d a s = _
  unfold execCbase capField
  exact ⟨_, rfl⟩
theorem clen (d : F7) (a : F7) : Statement (.clen d a) := fun _ s => by
  show ∃ body, execClen d a s = _
  unfold execClen capField
  exact ⟨_, rfl⟩
theorem crights (d : F7) (a : F7) : Statement (.crights d a) := fun _ s => by
  show ∃ body, execCrights d a s = _
  unfold execCrights capField
  exact ⟨_, rfl⟩
theorem ckind (d : F7) (a : F7) : Statement (.ckind d a) := fun _ s => by
  show ∃ body, execCkind d a s = _
  unfold execCkind capField
  exact ⟨_, rfl⟩
theorem cvalid (d : F7) (a : F7) : Statement (.cvalid d a) := fun _ s => by
  show ∃ body, execCvalid d a s = _
  unfold execCvalid capField
  exact ⟨_, rfl⟩
theorem cclear (d : F7) : Statement (.cclear d) := fun _ s => by
  show ∃ body, execCclear d s = _
  unfold execCclear
  exact ⟨_, rfl⟩
theorem bmode (a : F7) (b : F7) : Statement (.bmode a b) := fun _ s => by
  show ∃ body, execBmode a b s = _
  unfold execBmode
  exact ⟨_, rfl⟩
theorem bfill (a : F7) (b : F7) : Statement (.bfill a b) := fun _ s => by
  show ∃ body, execBfill a b s = _
  unfold execBfill
  exact ⟨_, rfl⟩
theorem bsplit  : Statement (.bsplit) := fun _ s => by
  show ∃ body, execBsplit s = _
  unfold execBsplit
  exact ⟨_, rfl⟩
theorem babandon  : Statement (.babandon) := fun _ s => by
  show ∃ body, execBabandon s = _
  unfold execBabandon
  exact ⟨_, rfl⟩
theorem blo (d : F7) (a : F7) : Statement (.blo d a) := fun _ s => by
  show ∃ body, execBlo d a s = _
  unfold execBlo ivWord
  exact ⟨_, rfl⟩
theorem bhi (d : F7) (a : F7) : Statement (.bhi d a) := fun _ s => by
  show ∃ body, execBhi d a s = _
  unfold execBhi ivWord
  exact ⟨_, rfl⟩
theorem bhull (d : F7) (a : F7) (b : F7) : Statement (.bhull d a b) := fun _ s => by
  show ∃ body, execBhull d a b s = _
  unfold execBhull ivWord
  exact ⟨_, rfl⟩
theorem bwiden (d : F7) (a : F7) (b : F7) : Statement (.bwiden d a b) := fun _ s => by
  show ∃ body, execBwiden d a b s = _
  unfold execBwiden ivWord
  exact ⟨_, rfl⟩
theorem tld (d : F7) (a : F7) (b : F7) : Statement (.tld d a b) := fun _ s => by
  show ∃ body, execTld d a b s = _
  unfold execTld
  exact ⟨_, rfl⟩
theorem tst (d : F7) (a : F7) (b : F7) : Statement (.tst d a b) := fun _ s => by
  show ∃ body, execTst d a b s = _
  unfold execTst
  exact ⟨_, rfl⟩
theorem mark (n : F7) : Statement (.mark n) := fun _ s => by
  show ∃ body, execMark n s = _
  unfold execMark
  exact ⟨_, rfl⟩
theorem rti  : Statement (.rti) := fun _ s => by
  show ∃ body, execRti s = _
  unfold execRti
  exact ⟨_, rfl⟩
theorem hcall (n : F7) : Statement (.hcall n) := fun _ s => by
  show ∃ body, execHcall n s = _
  unfold execHcall
  exact ⟨_, rfl⟩
theorem mfsr (d : F7) (n : F7) : Statement (.mfsr d n) := fun _ s => by
  show ∃ body, execMfsr d n s = _
  unfold execMfsr
  exact ⟨_, rfl⟩
theorem mtsr (n : F7) (b : F7) : Statement (.mtsr n b) := fun _ s => by
  show ∃ body, execMtsr n b s = _
  unfold execMtsr
  exact ⟨_, rfl⟩
theorem otinv (a : F7) (b : F7) : Statement (.otinv a b) := fun _ s => by
  show ∃ body, execOtinv a b s = _
  unfold execOtinv
  exact ⟨_, rfl⟩
theorem otswap (a : F7) (b : F7) : Statement (.otswap a b) := fun _ s => by
  show ∃ body, execOtswap a b s = _
  unfold execOtswap
  exact ⟨_, rfl⟩
theorem keyrev (a : F7) : Statement (.keyrev a) := fun _ s => by
  show ∃ body, execKeyrev a s = _
  unfold execKeyrev
  exact ⟨_, rfl⟩
theorem ctxstop (a : F7) : Statement (.ctxstop a) := fun _ s => by
  show ∃ body, execCtxstop a s = _
  unfold execCtxstop
  exact ⟨_, rfl⟩
theorem ctxresume (a : F7) : Statement (.ctxresume a) := fun _ s => by
  show ∃ body, execCtxresume a s = _
  unfold execCtxresume
  exact ⟨_, rfl⟩
theorem ctxkill (a : F7) : Statement (.ctxkill a) := fun _ s => by
  show ∃ body, execCtxkill a s = _
  unfold execCtxkill
  exact ⟨_, rfl⟩
theorem frpush (a : F7) : Statement (.frpush a) := fun _ s => by
  show ∃ body, execFrpush a s = _
  unfold execFrpush
  exact ⟨_, rfl⟩
theorem halt  : Statement (.halt) := fun _ s => by
  show ∃ body, execHalt s = _
  unfold execHalt
  exact ⟨_, rfl⟩
theorem variableLatencyResult (group : Nat) (entry : Nat) : Statement (.variableLatencyResult group entry) := fun h => absurd rfl h
theorem operandLogReplay (group : Nat) : Statement (.operandLogReplay group) := fun h => absurd rfl h
theorem orphanedSet (group : Nat) : Statement (.orphanedSet group) := fun h => absurd rfl h
theorem flowEnd (op : Nat) : Statement (.flowEnd op) := fun h => absurd rfl h
theorem tsumEnd (op : Nat) : Statement (.tsumEnd op) := fun h => absurd rfl h
theorem rendezvous (cluster : Nat) (gang : W64) : Statement (.rendezvous cluster gang) := fun h => absurd rfl h
theorem matrixOperationEnd (op : Nat) : Statement (.matrixOperationEnd op) := fun h => absurd rfl h
theorem gangOrphaned (group : Nat) : Statement (.gangOrphaned group) := fun h => absurd rfl h
theorem barrierTimeout (bar : BarRef) : Statement (.barrierTimeout bar) := fun h => absurd rfl h
theorem watchdog (group : Nat) : Statement (.watchdog group) := fun h => absurd rfl h
theorem tmwaitExpiry (group : Nat) : Statement (.tmwaitExpiry group) := fun h => absurd rfl h
theorem svcReply (group : Nat) (vals : List W32) : Statement (.svcReply group vals) := fun h => absurd rfl h
theorem hcallReply (group : Nat) (s62 s63 : W64) : Statement (.hcallReply group s62 s63) := fun h => absurd rfl h
theorem boundsEvaluation (group : Nat) : Statement (.boundsEvaluation group) := fun h => absurd rfl h
theorem tileIssueLimit (group : Nat) : Statement (.tileIssueLimit group) := fun h => absurd rfl h
theorem settledDispatch (group : Nat) : Statement (.settledDispatch group) := fun h => absurd rfl h
theorem elementDispatch (group : Nat) : Statement (.elementDispatch group) := fun h => absurd rfl h
theorem fill (group : Nat) : Statement (.fill group) := fun h => absurd rfl h
theorem roundStart (round : Nat) : Statement (.roundStart round) := fun h => absurd rfl h
theorem roundDone (round : Nat) (remote : List (Nat × List W32)) : Statement (.roundDone round remote) := fun h => absurd rfl h
theorem timeout (round : Nat) : Statement (.timeout round) := fun h => absurd rfl h
theorem residencyMove (part : Nat) (extents : List Nat) : Statement (.residencyMove part extents) := fun h => absurd rfl h
theorem softfault (part : Nat) : Statement (.softfault part) := fun h => absurd rfl h
theorem hotness (part : Nat) : Statement (.hotness part) := fun h => absurd rfl h
theorem resolve (part : Nat) : Statement (.resolve part) := fun h => absurd rfl h
theorem hotclr (part : Nat) (token : W32) : Statement (.hotclr part token) := fun h => absurd rfl h
theorem launch (part stream : Nat) : Statement (.launch part stream) := fun h => absurd rfl h
theorem tlaunch (part stream : Nat) : Statement (.tlaunch part stream) := fun h => absurd rfl h
theorem tlaunchTick (part stream : Nat) : Statement (.tlaunchTick part stream) := fun h => absurd rfl h
theorem placement (part : Nat) (cores : List Nat) : Statement (.placement part cores) := fun h => absurd rfl h
theorem launchRetirement (launch : Nat) : Statement (.launchRetirement launch) := fun h => absurd rfl h
theorem semwait (part stream : Nat) : Statement (.semwait part stream) := fun h => absurd rfl h
theorem semwaitLoad (part stream : Nat) : Statement (.semwaitLoad part stream) := fun h => absurd rfl h
theorem semsignal (part stream : Nat) : Statement (.semsignal part stream) := fun h => absurd rfl h
theorem flush (part stream : Nat) : Statement (.flush part stream) := fun h => absurd rfl h
theorem capwrite (part stream : Nat) : Statement (.capwrite part stream) := fun h => absurd rfl h
theorem ctxstopPacket  : Statement (.ctxstopPacket) := fun h => absurd rfl h
theorem ctxresumePacket  : Statement (.ctxresumePacket) := fun h => absurd rfl h
theorem ctxkillPacket  : Statement (.ctxkillPacket) := fun h => absurd rfl h
theorem otinvPacket  : Statement (.otinvPacket) := fun h => absurd rfl h
theorem otswapPacket  : Statement (.otswapPacket) := fun h => absurd rfl h
theorem keyrevPacket  : Statement (.keyrevPacket) := fun h => absurd rfl h
theorem frames  : Statement (.frames) := fun h => absurd rfl h
theorem create  : Statement (.create) := fun h => absurd rfl h
theorem destroy  : Statement (.destroy) := fun h => absurd rfl h
theorem keyload  : Statement (.keyload) := fun h => absurd rfl h
theorem keyfree  : Statement (.keyfree) := fun h => absurd rfl h
theorem doorbell (stream : StreamRef) (tail : W64) : Statement (.doorbell stream tail) := fun h => absurd rfl h
theorem enableSet (stream : StreamRef) : Statement (.enableSet stream) := fun h => absurd rfl h
theorem enableClear (stream : StreamRef) : Statement (.enableClear stream) := fun h => absurd rfl h
theorem errorClear (stream : StreamRef) : Statement (.errorClear stream) := fun h => absurd rfl h
theorem registerWrite (win : WindowRef) (offset : W16) (size : AccessSize) (value : W64) : Statement (.registerWrite win offset size value) := fun h => absurd rfl h
theorem engineStop (part engine : Nat) (kind : EngineKind) : Statement (.engineStop part engine kind) := fun h => absurd rfl h
theorem activation (part : Nat) : Statement (.activation part) := fun h => absurd rfl h
theorem snapshotRollback (launch : Nat) : Statement (.snapshotRollback launch) := fun h => absurd rfl h
theorem hostAccess (part : Nat) (op : OutsideOp) (addr : BitVec 52) (width : AccessSize) (data : W64) : Statement (.hostAccess part op addr width data) := fun h => absurd rfl h
theorem hostSnoop (addr : BitVec 52) (write : Bool) (data : W64) : Statement (.hostSnoop addr write data) := fun h => absurd rfl h
theorem peerAccess (dev : W16) (part : Nat) (op : OutsideOp) (addr : BitVec 52) (data : OutsideData) : Statement (.peerAccess dev part op addr data) := fun h => absurd rfl h
theorem windowRequest (part : Nat) (index : W16) (gen : W32) (dev : W16) (offset : BitVec 40) (op : WindowOp) (width : AccessSize) (data : WindowData) : Statement (.windowRequest part index gen dev offset op width data) := fun h => absurd rfl h
theorem atomicopCompletion (group : Nat) (ok : Bool) : Statement (.atomicopCompletion group ok) := fun h => absurd rfl h
theorem serviceReply (group : Nat) : Statement (.serviceReply group) := fun h => absurd rfl h
theorem hostWriteRejected (part : Nat) : Statement (.hostWriteRejected part) := fun h => absurd rfl h
theorem tdiLeavesRun (part : Nat) (error : Bool) : Statement (.tdiLeavesRun part error) := fun h => absurd rfl h
theorem spdmSessionEnd (part : Nat) : Statement (.spdmSessionEnd part) := fun h => absurd rfl h
theorem heartbeatTimeout (part : Nat) : Statement (.heartbeatTimeout part) := fun h => absurd rfl h
theorem flr (part : Nat) : Statement (.flr part) := fun h => absurd rfl h
theorem portTraining (port : Nat) (dev : W16) (versions : W64) (auth : Bool) : Statement (.portTraining port dev versions auth) := fun h => absurd rfl h
theorem flit (port : Nat) (good : Bool) : Statement (.flit port good) := fun h => absurd rfl h
theorem linkLoss (part : Nat) (dev : W16) : Statement (.linkLoss part dev) := fun h => absurd rfl h
theorem timebaseFlit (port : Nat) (root : W16) (hops : Nat) (estimate : W64) (locked : Bool) : Statement (.timebaseFlit port root hops estimate locked) := fun h => absurd rfl h
theorem timebaseUnlocked  : Statement (.timebaseUnlocked) := fun h => absurd rfl h
theorem winctl (part : Nat) (index : W16) (owner : Option W16) : Statement (.winctl part index owner) := fun h => absurd rfl h
theorem windowRevocationDone (part : Nat) : Statement (.windowRevocationDone part) := fun h => absurd rfl h
theorem release (part : Nat) (team : W32) (group : W16) (lanes : W64) : Statement (.release part team group lanes) := fun h => absurd rfl h
theorem step (part : Nat) (team : W32) (group : W16) (lanes : W64) : Statement (.step part team group lanes) := fun h => absurd rfl h
theorem sampctl (part : Nat) (value : W64) : Statement (.sampctl part value) := fun h => absurd rfl h
theorem sample (part : Nat) : Statement (.sample part) := fun h => absurd rfl h
theorem powerOn (failed : Option (Fin 7 × W8)) : Statement (.powerOn failed) := fun h => absurd rfl h
theorem targetQ0  : Statement (.targetQ0) := fun h => absurd rfl h
theorem targetQ1  : Statement (.targetQ1) := fun h => absurd rfl h
theorem targetQ2  : Statement (.targetQ2) := fun h => absurd rfl h
theorem targetQ3  : Statement (.targetQ3) := fun h => absurd rfl h
theorem targetQ4  : Statement (.targetQ4) := fun h => absurd rfl h
theorem powerStateChangeDone  : Statement (.powerStateChangeDone) := fun h => absurd rfl h
theorem thermalTrip (temp : W8) : Statement (.thermalTrip temp) := fun h => absurd rfl h
theorem thermtripClear (temp : W8) : Statement (.thermtripClear temp) := fun h => absurd rfl h
theorem tdispRequest (part : Nat) (state : Tdi) : Statement (.tdispRequest part state) := fun h => absurd rfl h
theorem spdmRequest (part : Nat) (establish : Bool) : Statement (.spdmRequest part establish) := fun h => absurd rfl h
theorem hostLinkRetraining  : Statement (.hostLinkRetraining) := fun h => absurd rfl h
theorem portDown (port : Nat) : Statement (.portDown port) := fun h => absurd rfl h
theorem scrub (place : MemPlace) (uncorrectable : Bool) : Statement (.scrub place uncorrectable) := fun h => absurd rfl h
theorem powerRemoval  : Statement (.powerRemoval) := fun h => absurd rfl h

end Sys2Proof.Laws.Words
end

