-- ==== Sys2Proof/Tests/Slice0.lean ====
section
/-! SUPPORT. Tests: words of the manual's encodings decoded, ill-formed instructions refused, single steps with results from the manual's text and
tables, and for each statement with hypotheses a concrete case, clause by clause, that meets them all. -/

namespace Sys2Proof.Tests
open Machine

set_option Elab.async false

/-! ### Decoding: the manual's example words, and for the other instructions words put together from its encoding tables -/
theorem test_decode_integer_1 :
    ([
      (0x00A24380, some (.vadd 5 9 7)), (0x01810181, some (.vsub 12 4 3)), (0x00E18502, some (.vmul 7 6 10)), (0x00420283, some (.vmulhS 2 8 5)),
      (0x00604104, some (.vmulhZ 3 1 2)), (0x00A24385, some (.vmad 5 9 7)), (0x01810186, some (.vminS 12 4 3)), (0x00E18507, some (.vminZ 7 6 10)),
      (0x00420288, some (.vmaxS 2 8 5)), (0x00604109, some (.vmaxZ 3 1 2)), (0x00A2438A, some (.vaddsS 5 9 7)), (0x0181018B, some (.vaddsZ 12 4 3)),
      (0x00E1850C, some (.vsubsS 7 6 10)), (0x0042028D, some (.vsubsZ 2 8 5)), (0x0060410E, some (.vdivS 3 1 2)), (0x00A2438F, some (.vdivZ 5 9 7)),
      (0x01810190, some (.vremS 12 4 3)), (0x00E18511, some (.vremZ 7 6 10)), (0x00420292, some (.vand 2 8 5)), (0x00604113, some (.vor 3 1 2)),
      (0x00A24394, some (.vxor 5 9 7)), (0x01810195, some (.vandn 12 4 3)), (0x00814316, some (.vsel 4 5 6)), (0x00E18517, some (.vshl 7 6 10)),
      (0x00420298, some (.vshrZ 2 8 5)), (0x00604119, some (.vshrS 3 1 2)), (0x00A2439A, some (.vrotl 5 9 7)), (0x0181001B, some (.vpopc 12 4)),
      (0x00E1801C, some (.vclz 7 6)), (0x0042001D, some (.vbrev 2 8)), (0x0060411E, some (.vbfxZ 3 1 2)), (0x00A2439F, some (.vbfxS 5 9 7)),
      (0x018101A0, some (.vbfi 12 4 3)), (0x00E18521, some (.vcmpEq 7 6 10)), (0x004202A2, some (.vcmpNe 2 8 5)), (0x00404023, some (.vcmpLtS 2 1 0)),
      (0x00604124, some (.vcmpLtZ 3 1 2)), (0x00A243A5, some (.vcmpLeS 5 9 7)), (0x018101A6, some (.vcmpLeZ 12 4 3)), (0x00E18027, some (.vmov 7 6))] : List (BitVec 32 × Option Instr)).all (fun p => decide (decodeWord p.1 = p.2)) = true := by decide +kernel

theorem test_decode_integer_2 :
    ([
      (0x0040C028, some (.vbcast 2 3)), (0x008042A9, some (.vext 4 1 5)), (0x002102AA, some (.vins 1 4 5)), (0x004202C0, some (.sadd 2 8 5)),
      (0x00604141, some (.ssub 3 1 2)), (0x00A243C2, some (.smul 5 9 7)), (0x018101C3, some (.smulhS 12 4 3)), (0x00E18544, some (.smulhZ 7 6 10)),
      (0x004202C5, some (.sminS 2 8 5)), (0x00604146, some (.sminZ 3 1 2)), (0x00A243C7, some (.smaxS 5 9 7)), (0x018101C8, some (.smaxZ 12 4 3)),
      (0x00E18549, some (.sdivS 7 6 10)), (0x004202CA, some (.sdivZ 2 8 5)), (0x0060414B, some (.sremS 3 1 2)), (0x00A243CC, some (.sremZ 5 9 7)),
      (0x018101CD, some (.sand 12 4 3)), (0x00E1854E, some (.sor 7 6 10)), (0x004202CF, some (.sxor 2 8 5)), (0x00604150, some (.sandn 3 1 2)),
      (0x00A243D1, some (.sshl 5 9 7)), (0x018101D2, some (.sshrZ 12 4 3)), (0x00E18553, some (.sshrS 7 6 10)), (0x00420054, some (.spopc 2 8)),
      (0x00604055, some (.sclz 3 1)), (0x00A243D6, some (.scmpEq 5 9 7)), (0x018101D7, some (.scmpNe 12 4 3)), (0x00E18558, some (.scmpLtS 7 6 10)),
      (0x004202D9, some (.scmpLtZ 2 8 5)), (0x0060415A, some (.scmpLeS 3 1 2)), (0x00A243DB, some (.scmpLeZ 5 9 7)), (0x0181005C, some (.smov 12 4)),
      (0x00E1855D, some (.ssel 7 6 10))] : List (BitVec 32 × Option Instr)).all (fun p => decide (decodeWord p.1 = p.2)) = true := by decide +kernel

theorem test_decode_vector_imm :
    ([
      (0x10420005, some (.vaddi 2 8 5)), (0x1060440C, some (.vmuli 3 1 12)), (0x10A24809, some (.vandi 5 9 9)), (0x11810C05, some (.vori 12 4 5)),
      (0x10E1900C, some (.vxori 7 6 12)), (0x10401402, some (.vshli 2 0 2)), (0x10421809, some (.vshriZ 2 8 9)), (0x10605C05, some (.vshriS 3 1 5)),
      (0x10A2600C, some (.vcmpiEq 5 9 12)), (0x106067FB, some (.vcmpiLtS 3 1 1019)), (0x11812809, some (.vcmpiLtZ 12 4 9)), (0x10E1AC05, some (.vminiS 7 6 5)),
      (0x1042300C, some (.vmaxiS 2 8 12))] : List (BitVec 32 × Option Instr)).all (fun p => decide (decodeWord p.1 = p.2)) = true := by decide +kernel

theorem test_decode_scalar_imm :
    ([
      (0x204083FF, some (.saddi 2 2 1023)), (0x20604409, some (.smuli 3 1 9)), (0x20A24805, some (.sandi 5 9 5)), (0x21810C0C, some (.sori 12 4 12)),
      (0x20E19009, some (.sxori 7 6 9)), (0x2081140C, some (.sshli 4 4 12)), (0x20421805, some (.sshriZ 2 8 5)), (0x20605C0C, some (.sshriS 3 1 12)),
      (0x20A26009, some (.scmpiEq 5 9 9)), (0x21812405, some (.scmpiLtS 12 4 5)), (0x20E1A80C, some (.scmpiLtZ 7 6 12)), (0x20422C09, some (.sminiS 2 8 9)),
      (0x20607005, some (.smaxiS 3 1 5))] : List (BitVec 32 × Option Instr)).all (fun p => decide (decodeWord p.1 = p.2)) = true := by decide +kernel

theorem test_decode_long_imm :
    ([
      (0x30800000, some (.vmovi 4 0)), (0x3089FC00, some (.vmovhi 4 0x1FC00)), (0x30500004, some (.smovi 2 4)), (0x309A468A, some (.smovhi 4 0x2468A))] : List (BitVec 32 × Option Instr)).all (fun p => decide (decodeWord p.1 = p.2)) = true := by decide +kernel

theorem test_decode_float :
    ([
      (0x40604100, some (.fadd 3 1 2)), (0x40A24381, some (.fsub 5 9 7)), (0x4060C282, some (.fmul 3 3 5)), (0x41018383, some (.ffma 8 6 7)),
      (0x40404184, some (.fmin 2 1 3)), (0x41810185, some (.fmax 12 4 3)), (0x40E18006, some (.fabs 7 6)), (0x40420007, some (.fneg 2 8)),
      (0x40A04108, some (.fdiv 5 1 2)), (0x40810009, some (.fsqrt 4 4)), (0x4060400A, some (.frcp 3 1)), (0x40A2438B, some (.fcmpEq 5 9 7)),
      (0x4060820C, some (.fcmpLt 3 2 4)), (0x4181018D, some (.fcmpLe 12 4 3)), (0x40E1850E, some (.fcmpUn 7 6 10)), (0x4040400F, some (.fclass 2 1)),
      (0x40420290, some (.fscale 2 8 5)), (0x40604011, some (.ffloor 3 1)), (0x40A24012, some (.fceil 5 9)), (0x41810013, some (.ftrunc 12 4)),
      (0x40C18014, some (.frint 6 6)), (0x40E18515, some (.faddB2 7 6 10)), (0x40420296, some (.fmulB2 2 8 5)), (0x40604117, some (.ffmaB2 3 1 2)),
      (0x40A24398, some (.faddH2 5 9 7)), (0x41810199, some (.fmulH2 12 4 3)), (0x4101839A, some (.ffmaH2 8 6 7)), (0x40E1851B, some (.fmaxB2 7 6 10)),
      (0x4042029C, some (.fminB2 2 8 5))] : List (BitVec 32 × Option Instr)).all (fun p => decide (decodeWord p.1 = p.2)) = true := by decide +kernel

theorem test_decode_cross_lane_1 :
    ([
      (0x50604000, some (.cvtFS 3 1)), (0x50A24001, some (.cvtFZ 5 9)), (0x50404002, some (.cvtSF 2 1)), (0x51810003, some (.cvtZF 12 4)),
      (0x50804104, some (.cvtB2F 4 1 2)), (0x50E18505, some (.cvtH2F 7 6 10)), (0x50A10086, some (.cvtFB2 5 4 1)), (0x50420087, some (.cvtFH2 2 8 1)),
      (0x50404188, some (.cvtNF 2 1 3)), (0x50404189, some (.cvtFN 2 1 3)), (0x50C0808A, some (.vpack4 6 2 1)), (0x50E1848B, some (.vunpk4 7 6 9)),
      (0x5040400C, some (.fexp2 2 1)), (0x5060400D, some (.flog2 3 1)), (0x50A2400E, some (.frsqrt 5 9)), (0x5181000F, some (.fsinpi 12 4)),
      (0x50E18010, some (.fcospi 7 6)), (0x50420011, some (.ftanh 2 8)), (0x50604012, some (.fsigm 3 1)), (0x50A24393, some (.vshflIdx 5 9 7)),
      (0x51810194, some (.vshflUp 12 4 3)), (0x50E18515, some (.vshflDn 7 6 10)), (0x50604116, some (.vshflXor 3 1 2)), (0x50420017, some (.vredAdd 2 8)),
      (0x50604018, some (.vredMinS 3 1)), (0x50A24019, some (.vredMaxS 5 9)), (0x5181001A, some (.vredMinZ 12 4)), (0x50E1801B, some (.vredMaxZ 7 6)),
      (0x5042001C, some (.vredAnd 2 8)), (0x5060401D, some (.vredOr 3 1)), (0x50A2401E, some (.vredXor 5 9)), (0x5080401F, some (.vredFadd 4 1)),
      (0x51810020, some (.vredFmin 12 4)), (0x50E18021, some (.vredFmax 7 6)), (0x50420022, some (.vargminS 2 8)), (0x50604023, some (.vargminZ 3 1)),
      (0x50A24024, some (.vargmaxS 5 9)), (0x51810025, some (.vargmaxZ 12 4)), (0x50404026, some (.vscanAdd 2 1)), (0x50E18027, some (.vscanFadd 7 6))] : List (BitVec 32 × Option Instr)).all (fun p => decide (decodeWord p.1 = p.2)) = true := by decide +kernel

theorem test_decode_cross_lane_2 :
    ([
      (0x50808028, some (.vballot 4 2)), (0x50420029, some (.vany 2 8)), (0x5060402A, some (.vall 3 1)), (0x50A2802B, some (.smovsr 5 10)),
      (0x5000002C, some (.vmovsr 0 0))] : List (BitVec 32 × Option Instr)).all (fun p => decide (decodeWord p.1 = p.2)) = true := by decide +kernel

theorem test_decode_branch :
    ([
      (0x60608005, some (.bnz 3 2 5)), (0x60240003, some (.bz 1 0 3)), (0x60483FFE, some (.bsnz 2 0 0x3FFE)), (0x608C3FFF, some (.bsz 4 0 0x3FFF)),
      (0x60100003, some (.bra 0 3)), (0x6014000C, some (.calli 0 12))] : List (BitVec 32 × Option Instr)).all (fun p => decide (decodeWord p.1 = p.2)) = true := by decide +kernel

theorem test_decode_control :
    ([
      (0x70A08000, some (.callv 5 2)), (0x70A18001, some (.calls 5 6)), (0x70000002, some .ret), (0x70000003, some .exit), (0x73A10004, some (.jmpv 29 4)),
      (0x70A24005, some (.rjset 5 9)), (0x71810006, some (.rjsetm 12 4)), (0x70E00007, some (.rjenter 7)), (0x70400008, some (.rjquit 2)), (0x70600009, some (.rjwait 3)),
      (0x70A2418A, some (.rjget 5 9 3)), (0x7000000B, some .yield), (0x7000C00C, some (.setprio 3)), (0x7000800D, some (.wbase 2)), (0x7000000E, some .nop),
      (0x7002400F, some (.brk 9)), (0x70004010, some (.trap 1)), (0x70008011, some (.frnd 2))] : List (BitVec 32 × Option Instr)).all (fun p => decide (decodeWord p.1 = p.2)) = true := by decide +kernel

theorem test_decode_loads :
    ([
      (0x80E1B60C, some (.vldBZ 7 6 27 12)), (0x80420249, some (.vldBS 2 8 1 9)), (0x80607C85, some (.vldHZ 3 1 30 5)), (0x80A244CC, some (.vldHS 5 9 2 12)),
      (0x80608302, some (.vldW 3 2 1 2)), (0x81813749, some (.vldD 12 4 27 9)), (0x81004582, some (.vldQ 8 1 2 2)), (0x80A0F7C1, some (.vldbc 5 3 27 1))] : List (BitVec 32 × Option Instr)).all (fun p => decide (decodeWord p.1 = p.2)) = true := by decide +kernel

theorem test_decode_stores :
    ([
      (0x9040C205, some (.vstB 2 3 1 5)), (0x90E18245, some (.vstH 7 6 1 5)), (0x9020B680, some (.vstW 1 2 27 0)), (0x90423CCC, some (.vstD 2 8 30 12)),
      (0x90604509, some (.vstQ 3 1 2 9))] : List (BitVec 32 × Option Instr)).all (fun p => decide (decodeWord p.1 = p.2)) = true := by decide +kernel

theorem test_decode_group_memory :
    ([
      (0xA0800400, some (.sldD 4 0 2 0)), (0xA0A27645, some (.sldWS 5 9 27 5)), (0xA181028C, some (.sldWZ 12 4 1 12)), (0xA02004C0, some (.sstD 1 0 2 0)),
      (0xA0E1BD09, some (.sstW 7 6 30 9)), (0xA0A0B741, some (.cld 5 2 27 1)), (0xA0A0BD80, some (.cst 5 2 30 0))] : List (BitVec 32 × Option Instr)).all (fun p => decide (decodeWord p.1 = p.2)) = true := by decide +kernel

theorem test_decode_atomics :
    ([
      (0xB0808605, some (.aadd 4 2 3 5)), (0xB0420425, some (.aminS 2 8 2 5)), (0xB0607642, some (.amaxS 3 1 27 2)), (0xB0A24267, some (.aminZ 5 9 1 7)),
      (0xB1813C83, some (.amaxZ 12 4 30 3)), (0xB0E184AA, some (.aand 7 6 2 10)), (0xB04236C5, some (.aor 2 8 27 5)), (0xB06042E2, some (.axor 3 1 1 2)),
      (0xB0A27D07, some (.axchg 5 9 30 7)), (0xB0C07D27, some (.acas 6 1 30 7)), (0xB1810543, some (.afadd 12 4 2 3)), (0xB0800961, some (.saadd 4 0 4 1)),
      (0xB0E1B78A, some (.sacas 7 6 27 10))] : List (BitVec 32 × Option Instr)).all (fun p => decide (decodeWord p.1 = p.2)) = true := by decide +kernel

theorem test_decode_sync :
    ([
      (0xC0008000, some (.fpub 2)), (0xC0018001, some (.fsys 6)), (0xC0008182, some (.tbinit 2 3)), (0xC2C08183, some (.tbarrive 22 2 3)),
      (0xC0008204, some (.tbwait 2 4)), (0xC0C08205, some (.tbtest 6 2 4)), (0xC0000006, some (.teambar 0)), (0xC000C007, some (.lvlbar 3)),
      (0xC8608008, some (.send 67 2)), (0xC090C009, some (.recv 4 67)), (0xC0B0C00A, some (.qstat 5 67)), (0xC001C00B, some (.tmwait 7)), (0xC040428C, some (.svc 2 1 5)),
      (0xC000C00D, some (.icinv 3)), (0xC006CF0E, some (.bclaim 0 27 30)), (0xC280840F, some (.bflow 20 2 8)), (0xC2A00010, some (.bseal 21)),
      (0xC0054011, some (.bwait 21)), (0xC0004012, some (.brelease 1)), (0xC0C04013, some (.bstat 6 1)), (0xC280C414, some (.coll 20 3 8)),
      (0xC0008195, some (.rprio 2 3)), (0xC0008016, some (.rdemote 2)), (0xC0008197, some (.rpromote 2 3)), (0xC0A08018, some (.rquery 5 2))] : List (BitVec 32 × Option Instr)).all (fun p => decide (decodeWord p.1 = p.2)) = true := by decide +kernel

theorem test_decode_matrix :
    ([
      (0xD0008180, some (.tset 2 3)), (0xD0808181, some (.tget 4 2 3)), (0xD0018002, some (.gset 0 6)), (0xD2800403, some (.mmx 20 0 8)),
      (0xD2800404, some (.mmxz 20 0 8)), (0xD0210285, some (.accrd 1 4 5)), (0xD0210286, some (.accadd 1 4 5)), (0xD0010287, some (.accclr 4 5)),
      (0xD2808008, some (.tsum 20 2)), (0xD0A78810, some (.cderive 5 30 16)), (0xD0C14011, some (.cmov 6 5)), (0xD0814012, some (.cbase 4 5)),
      (0xD0814013, some (.clen 4 5)), (0xD0814014, some (.crights 4 5)), (0xD0814015, some (.ckind 4 5)), (0xD0A24016, some (.cvalid 5 9)), (0xD0C00017, some (.cclear 6))] : List (BitVec 32 × Option Instr)).all (fun p => decide (decodeWord p.1 = p.2)) = true := by decide +kernel

theorem test_decode_bounds_system :
    ([
      (0xE0010280, some (.bmode 4 5)), (0xE0024381, some (.bfill 9 7)), (0xE0000002, some .bsplit), (0xE0000003, some .babandon), (0xE0404004, some (.blo 2 1)),
      (0xE0404005, some (.bhi 2 1)), (0xE0604106, some (.bhull 3 1 2)), (0xE0604107, some (.bwiden 3 1 2)), (0xE0420008, some (.tld 2 8 0)),
      (0xE0A24009, some (.tst 5 9 0)), (0xE000C00A, some (.mark 3)), (0xE0000020, some .rti), (0xE0014021, some (.hcall 5)), (0xE0804022, some (.mfsr 4 1)),
      (0xE0004223, some (.mtsr 1 4)), (0xE00081A4, some (.otinv 2 3)), (0xE0008225, some (.otswap 2 4)), (0xE0008026, some (.keyrev 2)), (0xE0008027, some (.ctxstop 2)),
      (0xE0008028, some (.ctxresume 2)), (0xE0008029, some (.ctxkill 2)), (0xE000802A, some (.frpush 2)), (0xE000002B, some .halt)] : List (BitVec 32 × Option Instr)).all (fun p => decide (decodeWord p.1 = p.2)) = true := by decide +kernel
/-! ### Ill-formed instructions are refused -/

/-- R145: register numbers; R144: literal ranges and gaps; R145: register ranges and runs. -/
theorem test_ill_formed_operands :
    [Instr.sadd 64 1 2, .cmov 32 5, .cmov 6 32, .bflow 20 16 8, .bflow 20 2 62, .bstat 6 16, .gset 4 6, .mmx 20 4 8, .mmx 20 0 61, .rjset 16 2, .rjenter 16,
     .send 63 2, .recv 4 80, .qstat 5 0, .frnd 4, .setprio 16, .vpack4 6 2 4, .vunpk4 7 6 16, .cvtFB2 5 4 2, .smovsr 5 23, .smovsr 5 0, .vmovsr 5 23,
     .mark 8, .rjget 4 1 2, .fpub 7, .fsys 8, .icinv 7, .teambar 16, .tget 4 2 10, .vldD 127 1 27 0, .vldQ 126 1 27 0, .cderive 5 30 62].all
      (fun i => !WellFormed i) = true := by decide +kernel

/-- The units that an event names exist: partitions 0 to 15 (R253), 64 streams (R278), 256 cores (R8), 32 clusters, barriers (R209, R210), 18 ports (R323). -/
theorem test_ill_formed_events :
    [Instr.launch 16 0, .launch 0 64, .placement 0 [256], .rendezvous 32 0, .barrierTimeout (.team 0 16), .barrierTimeout (.level 0 8 0), .svcReply 0 (List.replicate 65 0),
     .softfault 16, .doorbell (.user 0 64) 0, .registerWrite (.vf 16) 0 .b8 0, .registerWrite .pf 0 .b4 0x100000000, .hostAccess 0 .write 0 .b1 256, .peerAccess 0 16 .write 0 ⟨.b8, 0⟩,
     .windowRequest 0 0 0 0 0 .write .b2 ⟨0x10000, false⟩, .portTraining 18 0 0 true].all (fun i => !WellFormed i) = true := by decide +kernel

theorem test_well_formed :
    [Instr.vadd 127 127 127, .sadd 63 63 63, .cmov 31 31, .bflow 20 15 60, .gset 3 63, .rjset 15 127, .send 79 2, .frnd 3, .setprio 15, .vpack4 6 2 15, .mark 7,
     .vldQ 124 1 31 63, .launch 15 63, .hostAccess 0 .write 0 .b1 255, .portTraining 17 0 0 true].all WellFormed = true := by decide +kernel
/-! ### Small machines: one group of width 8 about to issue a word -/

/-- The machine whose next step runs the word. -/
noncomputable def run (w : Nat) (f : Group → Group) : Host.Outcome State Fault Refusal := step ((State.reset.withFetchWord 32 w).onGroup bootGroup f)

/-- What a view of the group shows after that step. -/
noncomputable def after {α : Type} (w : Nat) (f : Group → Group) (p : Group → α) : Option α :=
  match run w f with
  | .next t => (t.group? bootGroup).map p
  | _ => none

/-- Registers of the group: a vector register in every lane, one lane of it, a scalar, a capability, a gang register. -/
def vr (n : Nat) (x : W32) (g : Group) : Group := { g with regs := g.regs.wvs n (fun _ => x) (List.range 8) }
def vl (n l : Nat) (x : W32) (g : Group) : Group := { g with regs := g.regs.wvs n (fun _ => x) [l] }
def sr (n : Nat) (x : W64) (g : Group) : Group := { g with regs := g.regs.ws n x }
def cr (n : Nat) (x : Cap) (g : Group) : Group := { g with regs := g.regs.wc n x }
def gr (n : Nat) (x : W64) (g : Group) : Group := { g with regs := g.regs.wg n x }
/-! ### Single steps; the results are the manual's -/

/-- R154: wrap-around, the division rule at 32 bits, clamping. -/
theorem test_vadd_wraps : after 0x00604100 (vr 1 0xFFFFFFFF ∘ vr 2 2) (fun g => (g.regs.rv 3 0, g.regs.rv 3 7, g.regs.rv 4 0)) = some (1, 1, 0) := by decide +kernel
theorem test_vdiv_by_zero : after 0x0060410E (vr 1 7) (fun g => g.regs.rv 3 2) = some 0xFFFFFFFF := by decide +kernel
theorem test_vdiv_min_by_minus_one : after 0x0060410E (vr 1 0x80000000 ∘ vr 2 0xFFFFFFFF) (fun g => g.regs.rv 3 2) = some 0x80000000 := by decide +kernel
theorem test_vrem_min_by_minus_one : after 0x00604110 (vr 1 0x80000000 ∘ vr 2 0xFFFFFFFF ∘ vr 3 9) (fun g => g.regs.rv 3 2) = some 0 := by decide +kernel
theorem test_vadds_clamps : after 0x0060410A (vr 1 0x7FFFFFFF ∘ vr 2 1) (fun g => g.regs.rv 3 0) = some 0x7FFFFFFF := by decide +kernel

/-- R156: the field example. -/
theorem test_vbfx_z : after 0x0060411E (vr 1 0xF0 ∘ vr 2 0x404) (fun g => g.regs.rv 3 1) = some 0xF := by decide +kernel
theorem test_vbfx_s : after 0x0060411F (vr 1 0xF0 ∘ vr 2 0x404) (fun g => g.regs.rv 3 1) = some 0xFFFFFFFF := by decide +kernel
theorem test_vbfi : after 0x00604120 (vr 1 0xF0 ∘ vr 2 0x404) (fun g => g.regs.rv 3 1) = some 0 := by decide +kernel

/-- R158: shifts by 32 and more. -/
theorem test_vshl_32 : after 0x00604117 (vr 1 1 ∘ vr 2 32 ∘ vr 3 5) (fun g => g.regs.rv 3 0) = some 0 := by decide +kernel
theorem test_vshr_s_big : after 0x00604119 (vr 1 0x80000000 ∘ vr 2 0xFFFFFFFF) (fun g => g.regs.rv 3 0) = some 0xFFFFFFFF := by decide +kernel

/-- R160: scalars run once, at 64 bits. -/
theorem test_sdiv_min : after 0x00608349 (sr 2 0x8000000000000000 ∘ sr 6 0xFFFFFFFFFFFFFFFF) (fun g => g.regs.rs 3) = some 0x8000000000000000 := by decide +kernel
theorem test_saddi_source_is_destination : after 0x204083FF (sr 2 0) (fun g => g.regs.rs 2) = some 0xFFFFFFFFFFFFFFFF := by decide +kernel

/-- R161, R162: the manual's example constant 0x0000_0012_3456_789A by smovi and smovhi, and 1.0 by vmovi and vmovhi. -/
theorem test_vcmpi_lt_z : after 0x10606BFF (vl 1 0 0xFFFFFFFF) (fun g => (g.regs.rv 3 0, g.regs.rv 3 1)) = some (0, 0xFFFFFFFF) := by decide +kernel
theorem test_vmovhi : after 0x3089FC00 (vr 4 0) (fun g => g.regs.rv 4 5) = some 0x3F800000 := by decide +kernel
theorem test_smovhi : after 0x309A468A (sr 4 0xFFFFFFFFFFFE789A) (fun g => g.regs.rs 4) = some 0x123456789A := by decide +kernel

/-- R181 to R184: the manual's examples. -/
theorem test_fmin_zeros : after 0x40404184 (vr 3 0x80000000) (fun g => g.regs.rv 2 0) = some 0x80000000 := by decide +kernel
theorem test_fmin_nan : after 0x40404184 (vr 1 0x7FC00000 ∘ vr 3 0x3F800000) (fun g => g.regs.rv 2 0) = some 0x3F800000 := by decide +kernel
theorem test_fclass_signalling : after 0x4040400F (vr 1 0x7F800001) (fun g => g.regs.rv 2 0) = some 0x100 := by decide +kernel
theorem test_fclass_negative : after 0x4040400F (vr 1 0xBF800000) (fun g => g.regs.rv 2 0) = some 0x2 := by decide +kernel
theorem test_fscale_tie : after 0x40604110 (vr 1 0x3F800000 ∘ vr 2 0xFFFFFF6A) (fun g => g.regs.rv 3 0) = some 0 := by decide +kernel
theorem test_fscale_tie_up : after 0x40604110 (vr 1 0x3F800000 ∘ vr 2 0xFFFFFF6A ∘ fun g => { g with rm := 3 }) (fun g => g.regs.rv 3 0) = some 1 := by decide +kernel
theorem test_fadd_h2 : after 0x40604118 (vr 1 0x3C007BFF ∘ vr 2 0x3C003C00) (fun g => g.regs.rv 3 0) = some 0x40007BFF := by decide +kernel
theorem test_fadd_tie_to_even : after 0x40604100 (vr 1 0x3F800000 ∘ vr 2 0x33800000) (fun g => g.regs.rv 3 0) = some 0x3F800000 := by decide +kernel

/-- R186: 65,520.0 in FP16; R187: 5.0 in the format word 0xA301; R83: the format word 0 is invalid. -/
theorem test_cvt_h2 : after 0x50604105 (vr 1 0x477FF000) (fun g => g.regs.rv 3 0 &&& 0xFFFF) = some 0x7C00 := by decide +kernel
theorem test_cvt_n_invalid : after 0x50404188 (vr 1 0x40A00000) (fun g => (g.fault.map (·.cause), g.regs.rv 2 0)) = some (some 0x02, 0) := by decide +kernel
theorem test_cvt_n : after 0x50404188 (vr 1 0x40A00000 ∘ sr 3 0xA301) (fun g => g.regs.rv 2 0) = some 6 := by decide +kernel

/-- R190: `vshfl.xor` with s2 = 1. -/
theorem test_vshfl_xor : after 0x50604116 (vl 1 1 1 ∘ vl 1 2 2 ∘ vl 1 3 3 ∘ sr 2 1) (fun g => (g.regs.rv 3 0, g.regs.rv 3 1, g.regs.rv 3 2, g.regs.rv 3 3)) = some (1, 0, 3, 2) := by
  decide +kernel

/-- R191, R193: the manual's litmus of the tree and the scan: 1.0 in lane 0, 2^-24 in lanes 1 and 2. -/
theorem test_vred_fadd : after 0x5040401F (vl 1 0 0x3F800000 ∘ vl 1 1 0x33800000 ∘ vl 1 2 0x33800000) (fun g => (g.regs.rv 2 0, g.regs.rv 2 7)) =
    some (0x3F800001, 0x3F800001) := by decide +kernel
theorem test_vscan_fadd : after 0x50604027 (vl 1 0 0x3F800000 ∘ vl 1 1 0x33800000 ∘ vl 1 2 0x33800000) (fun g => (g.regs.rv 3 0, g.regs.rv 3 7)) =
    some (0x3F800000, 0x3F800000) := by decide +kernel

/-- R163 to R169: a branch splits the lanes; a target at word 0 is ILLEGAL_CONTROL; R53: a call and its return. -/
theorem test_bnz_splits : after 0x60208005 (vl 1 3 1) (fun g => ((g.lane 3).pc, (g.lane 3).prio, (g.lane 2).pc)) = some (24, 2, 8) := by decide +kernel
theorem test_bra_word0 : after 0x60100007 id (fun g => (g.fault.map (·.cause), (g.lane 0).pc)) = some (some 0x03, 4) := by decide +kernel
theorem test_calli : after 0x6014000C id (fun g => ((g.lane 0).pc, (g.lane 0).stack, (g.lane 0).depth)) = some (52, [8], 1) := by decide +kernel
theorem test_ret_underflow : after 0x70000002 id (fun g => g.fault.map (·.cause)) = some (some 0x2C) := by decide +kernel
theorem test_trap : after 0x70004010 id (fun g => g.fault.map (fun r => (r.cause, r.extra))) = some (some (0x07, 1)) := by decide +kernel
theorem test_last_exit_retires : after 0x70000003 id (fun _ => ()) = none := by decide +kernel

/-- R201, R67: a scalar store and a load in team memory through c30; R62: an untagged capability, and a place beyond the window. -/
theorem test_sst_d : (match run 0xA0603CC1 (sr 3 0x1122334455667788) with
    | .next t => some (t.rawByte (.team bootTeam 8), t.rawByte (.team bootTeam 15), t.rawByte (.team bootTeam 16))
    | _ => none) = some (0x88, 0x11, 0) := by decide +kernel
theorem test_cap_tag : after 0xA0603CC1 (cr 30 Cap.null) (fun g => g.fault.map (·.cause)) = some (some 0x12) := by decide +kernel
theorem test_cap_bounds : after 0xA0603CC1 (sr 0 1016) (fun g => g.fault.map (·.cause)) = some (some 0x10) := by decide +kernel

/-- R65, R234: the rights and the kind of c30. -/
theorem test_crights : after 0xD0878014 id (fun g => g.regs.rs 4) = some 0x7B := by decide +kernel
theorem test_ckind : after 0xD0878015 id (fun g => g.regs.rs 4) = some 2 := by decide +kernel

/-- R249, R147: a privileged word at level U; R147: word F...; R26: a register beyond the allocation. -/
theorem test_privileged : after 0xE000002B id (fun g => g.fault.map (·.cause)) = some (some 0x06) := by decide +kernel
theorem test_illegal_word : after 0xF0000000 id (fun g => g.fault.map (·.cause)) = some (some 0x01) := by decide +kernel
theorem test_window_range : after 0x00604100 (fun g => { g with budget := 2 }) (fun g => g.fault.map (·.cause)) = some (some 0x05) := by decide +kernel
/-! ### The hypotheses of the statements can be met

Each theorem below evaluates, on concrete states and operands, the hypotheses of the clauses of one statement, clause by clause. The checks are
Boolean; the lemmas here say that they imply the premises as the statements put them. -/

def booted : State := State.reset.withFetchWord 32 0x7000000E
def bootedGroup : Group := (booted.group? bootGroup).getD Group.base

/-- The group `f` makes of the booted one issues `i` at PC 4 for the lanes of `m`, in the machine that `h` makes of the booted one. -/
def issuing (i : Instr) (f : Group → Group) (h : State → State) (m : W64 := 0xFF) : State :=
  h { booted with groups := [(bootGroup, f bootedGroup)], agenda := [], cur := some ⟨bootGroup, 4, m, i, none⟩ }

def passesB (s : State) (u : Nat) (pc : Pc) (m : W64) (i : Instr) : Bool :=
  match s.group? u with
  | none => false
  | some g => decide (s.cur = some ⟨u, pc, m, i, none⟩) && decide ((shape i).level ≤ g.level.num) && i.operandsOk &&
    (shape i).ops.all (fun o => !decide (o.kind = .v) || decide (g.regs.wb + o.num + o.run ≤ g.alloc)) &&
    (g.openRegs (g.uses i m)).isEmpty && (!(shape i).mem || g.log.isEmpty) && (!decide (g.mode = 1) || !(shape i).aband) &&
    (s.upsetAt (issueCtx u g pc m i)).isNone

theorem passesB_passes {s : State} {u : Nat} {pc : Pc} {m : W64} {i : Instr} (h : passesB s u pc m i = true) : ∃ g, s.group? u = some g ∧ Passes s u g pc m i := by
  unfold passesB at h
  cases hg : s.group? u with
  | none => rw [hg] at h; cases h
  | some g =>
    rw [hg] at h
    simp only [Bool.and_eq_true, decide_eq_true_eq, List.all_eq_true, Bool.or_eq_true, Bool.not_eq_true', decide_eq_false_iff_not, List.isEmpty_iff, Option.isNone_iff_eq_none] at h
    obtain ⟨⟨⟨⟨⟨⟨⟨hc, hl⟩, ho⟩, hw⟩, hr⟩, hlog⟩, hm⟩, hs⟩ := h
    exact ⟨g, rfl, ⟨hc, hg⟩, hl, ho, fun o ho' hk => (hw o ho').resolve_left (fun c => c hk), hr,
      fun hmem => hlog.resolve_left (fun c => by rw [hmem] at c; cases c), fun hmode => hm.resolve_left (fun c => c hmode), hs⟩

/-- The word passes its checks there, and `c` holds of the machine and the group. -/
def wit (i : Instr) (f : Group → Group := id) (h : State → State := id) (c : State → Group → Bool := fun _ _ => true) (m : W64 := 0xFF) : Bool :=
  let s := issuing i f h m
  match s.group? bootGroup with
  | none => false
  | some g => passesB s bootGroup 4 m i && c s g

/-- Changes of the booted machine's context, partition, launch and team. -/
def onCtx (f : Context → Context) (s : State) : State := { s with ctxs := s.ctxs.map (fun (e : Nat × Context) => (e.1, f e.2)) }
def onPart (f : Part → Part) (s : State) : State := { s with parts := s.parts.map (fun (e : Nat × Part) => (e.1, f e.2)) }
def onLaunch (f : Launch → Launch) (s : State) : State := { s with launches := s.launches.map (fun (e : Nat × Launch) => (e.1, f e.2)) }
def onTeam (f : Team → Team) (s : State) : State := { s with teams := s.teams.map (fun (e : Nat × Team) => (e.1, f e.2)) }

/-- The lanes that execute. -/
def everyLane (g : Group) (p : Nat → Bool) : Bool := (List.range 64).all (fun l => !executes g 0xFF l || p l)

theorem everyLane_all {g : Group} {p : Nat → Bool} (h : everyLane g p = true) (l : Nat) (hl : executes g 0xFF l = true) : p l = true := by
  simp only [everyLane, List.all_eq_true, List.mem_range, Bool.or_eq_true, Bool.not_eq_true'] at h
  have h64 : l < 64 := bit_lt (by simp only [executes, Bool.and_eq_true] at hl; exact hl.2)
  exact (h l h64).resolve_left (fun c => by rw [hl] at c; cases c)

/-- Every lane of the group, and rejoin set `n`, changed; a second group of the team. -/
def allLanes (f : Lane → Lane) (g : Group) : Group := { g with lanes := g.lanes.map f }
def jset (n : Nat) (member waiting : W64) (g : Group) : Group := { g with js := Tab.put g.js n ⟨member, waiting⟩ }
def withGroup (n : Nat) (f : Group → Group) (s : State) : State := { s with groups := s.groups ++ [(n, f bootedGroup)] }

/-- A group in a dispatch of the bounds pass, its lanes on the tiles that `t` says. -/
def inMode (k : Nat) (t : Nat → TileLane) (g : Group) : Group :=
  { g with dispatch := some ⟨k, 0, 0, 0, 0, g.regs, [], 0, g.lanes⟩,
           lanes := (List.range 8).map (fun l => { Lane.start 4 0 with tile := some (t l) }) }
def tile0 : TileLane := ⟨0, 0, 0, 8, 8, 1, 0, 0, 0, [], false, none⟩
def onTile : Nat → TileLane := fun l => { tile0 with tile := l }

def quietB (s : State) (n : Nat) : Bool :=
  s.unpub.isEmpty && s.copies.isEmpty && s.posted.isEmpty && (match s.team? n with
    | none => true
    | some t => t.held.isEmpty)

theorem quietB_quiet {s : State} {n : Nat} (h : quietB s n = true) : Quiet s n := by
  simp only [quietB, Bool.and_eq_true, List.isEmpty_iff] at h
  refine ⟨h.1.1.1, h.1.1.2, h.1.2, fun t ht => ?_⟩
  have h2 := h.2
  rw [ht] at h2
  simpa using h2

def inStore (s : State) : Loc → Bool
  | .team t _ => (s.team? t).isSome
  | .wbuf t _ => (s.team? t).isSome
  | _ => true

def ordinaryB (s : State) (w : Nat) (ts : List (Acc × Trans)) : Bool :=
  ts.all (fun e => ts.all (fun e' => decide (e.2.slot = e'.2.slot)) && (List.range w).all (fun k => s.readable e.2.slot (e.2.loc.add k)) && inStore s e.2.loc &&
    (e.2.loc.addrs w).all (fun a => s.queues.all (fun q => decide (a < q.2 ∨ q.2 + 32 ≤ a))))

theorem ordinaryB_ordinary {s : State} {w : Nat} {ts : List (Acc × Trans)} (h : ordinaryB s w ts = true) : Ordinary s w ts := by
  simp only [ordinaryB, List.all_eq_true, Bool.and_eq_true, decide_eq_true_eq, List.mem_range] at h
  refine ⟨fun e he e' he' => (h e he).1.1.1 e' he', fun e he => (h e he).1.1.2, fun e he t o hl => ?_, fun e he => (h e he).2⟩
  have h2 := (h e he).1.2
  rcases hl with hl | hl <;> rw [hl] at h2 <;> exact h2

/-- The accesses of a word are allowed, and their places are ordinary ones. -/
def accessB (r : Except Stop (List (Acc × Trans)) × State) (s : State) (w : Nat) (one : Bool := false) : Bool :=
  match r.1 with
  | .ok ts => ordinaryB s w ts && (!one || decide (ts.length = 1))
  | _ => false
/-! #### Issue and integers -/

theorem witness_EncodedWordsDecode : encode (.vdivS 5 1 2) = some 0x00A0410E ∧ decodeWord 0x00A0410E = some (.vdivS 5 1 2) := by decide +kernel

/-- A step of the booted machine, and a fetch: the first step after a launch of `nop`. -/
def fetching (w : Nat) : State := { (State.reset.withFetchWord 32 w) with agenda := [] }

/-- What an access through the code capability passes: its kind and rights, with the octet at `o` in its window. -/
def codeB (g : Group) (o : Nat) : Bool :=
  let c := g.regs.rc 29
  c.tag && decide (c.kind = kCode) && c.has rX && decide (c.base ≤ o ∧ o + 32 ≤ c.base + c.length)

/-- A fetch whose octet the group holds, or finds in memory: its translation, key and marks. -/
def fetchedAt (s : State) (g : Group) (o : Nat) : Bool :=
  match s.translate (s.domOf g) (g.core / 8) g.part (s.tbOf g.part) kCode (g.regs.rc 29).obj o 32 with
  | (.at t, s1) => !s1.keyHeld g.part t.slot && !s1.keyBad g.part t.slot && !s1.marked t.loc 32 && t.exec && t.xbit &&
    s1.readable t.slot t.loc && s1.unpub.isEmpty && s1.icache.isEmpty && (match t.loc with
      | .dev _ => true
      | _ => false)
  | _ => false

noncomputable def firstStep : Bool :=
  let s := State.reset.withFetchWord 32 0x7000000E
  let g := bootedGroup
  let s1 := { s with agenda := [] }
  let (d, s2) := s1.fetch bootGroup g 4
  let s3 := s2.onGroup bootGroup (fun g => { g.ageIssue 0xFF with yielded := none })
  decide (s.agenda = [.group bootGroup]) && decide (s.group? bootGroup = some bootedGroup) && s1.mayIssue g &&
  (match pickEntry g.yielded g.frontier with
    | some e => decide (e.pc = 4 ∧ e.mask = 0xFF)
    | none => false) &&
  (match d with
    | .word i _ => decide (i = .nop)
    | _ => false) && g.ready 4 0xFF .nop && !isAcc .nop &&
  (match exec .nop { s3 with cur := some ⟨bootGroup, 4, 0xFF, .nop, none⟩ } with
    | .next t => !t.heldAt bootGroup 4
    | _ => false)

def badWord : List Byte := (List.replicate 3 0) ++ [0xF1] ++ (List.replicate 3 0) ++ [0xF0] ++ List.replicate 24 0
def goodWord : List Byte := (List.replicate 3 0) ++ [0xF1] ++ List.replicate 28 0

/-- The code capability of the booted group with another tag, kind, right and window. -/
def code (k r b n : Nat) (tag : Bool) : Cap := ⟨BitVec.ofNat 128 (r * 2 ^ 88 + k * 2 ^ 84 + b * 2 ^ 40 + n), tag⟩

theorem witness_StepRunsIssuedWord :
    firstStep = true ∧ codeB bootedGroup 0 = true ∧ fetchedAt (fetching 0x7000000E) bootedGroup 0 = true ∧
    (bootedGroup.octetOf 0).isNone = true ∧ (match (fetching 0x7000000E).fetchAt bootGroup bootedGroup 0 with
      | (.held h, _) => h.exec && decide (({ bootedGroup with octets := [h] }.octetOf 0) = some h)
      | _ => false) = true ∧
    (code kCode 4 0 64 false).tag = false ∧ (code kMem 4 0 64 true).kind ≠ kCode ∧ (code kCode 1 0 64 true).has rX = false ∧
    (let c := code kCode 4 32 64 true
     c.tag && decide (c.kind = kCode) && c.has rX && decide (0 < c.base ∧ c.base + c.length < 96 + 32)) = true ∧
    ([⟨4, 0xF, 2, 64⟩, ⟨8, 0xF0, 3, 1⟩] : List Entry) ≠ [] ∧
    (octetWord (List.replicate 32 0) 0).toNat / 2 ^ 28 ≠ 15 ∧
    (octetWord badWord 0).toNat / 2 ^ 28 = 15 ∧ decodeWord (octetWord badWord ((4 : Pc).toNat % 32 / 4)) = none ∧
    (octetWord goodWord 0).toNat / 2 ^ 28 = 15 ∧ decodeWord (octetWord goodWord ((4 : Pc).toNat % 32 / 4)) = some (.vadd 0 0 0) ∧
    (⟨0, 0, [], false⟩ : Octet).exec = false ∧ (32 : Pc).toNat % 32 = 0 ∧ codeB bootedGroup 32 = true := by decide +kernel

theorem witness_IssueChecks :
    ([Instr.halt, .sadd 64 1 2, .vadd 127 1 2].all (fun i => (encode i).isSome && decide ((issuing i id id).cur = some ⟨bootGroup, 4, 0xFF, i, none⟩)) &&
     decide (bootedGroup.level.num < (shape .halt).level) && !(Instr.sadd 64 1 2).operandsOk && (Instr.vadd 127 1 2).operandsOk &&
     (let g := { bootedGroup with budget := 64 }
      (shape (.vadd 127 1 2)).ops.any (fun o => decide (o.kind = .v) && decide (g.alloc < g.regs.wb + o.num + o.run))) &&
     (let g := { bootedGroup with recent := [⟨.v 1, 2⟩] }
      let s := issuing (.vadd 3 1 2) (fun _ => g) (onCtx (fun c => { c with stallchk := 1 }))
      s.stallEn g && !(g.openRegs (g.uses (.vadd 3 1 2) 0xFF)).isEmpty && (Instr.vadd 3 1 2).operandsOk) &&
     (let g := inMode 1 onTile bootedGroup
      decide (g.mode = 1) && (shape (.brk 9)).aband && (g.openRegs (g.uses (.brk 9) 0xFF)).isEmpty) &&
     (let g := { bootedGroup with log := [⟨.vldW 5 1 30 0, 4, 0xFF, Regs.zero, 0, []⟩] }
      (shape (.sstD 3 0 30 0)).mem && (Instr.sstD 3 0 30 0).operandsOk && !g.log.isEmpty && (g.openRegs (g.uses (.sstD 3 0 30 0) 0xFF)).isEmpty)) = true := by
  decide +kernel

theorem witness_TakingAFault :
    ((issuing .nop id id).group? bootGroup).isSome = true ∧ wit (.trap 1) = true ∧
    wit (.brk 9) id id (fun s g => !s.laneStop g && decide (g.level = .u) && (match s.context? g.part with
      | none => false
      | some c => decide (c.state = .running) && c.first.isNone)) = true ∧
    wit (.brk 9) id (onCtx (fun c => { c with stopmode := 1 })) (fun s g => s.laneStop g) = true ∧
    wit (.trap 1) (fun g => { g with level := .s }) id (fun s g => decide (g.level ≠ .u) && (s.team? g.team).isSome) = true ∧
    (let i : Instr := .fadd 5 1 2
     let s : State := { issuing i id id with upset := [(bootedGroup.core, 3)] }
     (encode i).isSome && decide (s.cur = some ⟨bootGroup, 4, 0xFF, i, none⟩) && decide (bootedGroup.mode ≠ 1) && decide ((shape i).level ≤ bootedGroup.level.num) &&
     i.operandsOk && (shape i).ops.all (fun (o : Opnd) => decide (bootedGroup.regs.wb + o.num + o.run ≤ bootedGroup.alloc)) &&
     (bootedGroup.openRegs (bootedGroup.uses i 0xFF)).isEmpty &&
     decide (s.upsetAt (issueCtx bootGroup bootedGroup 4 0xFF i) = some (bootedGroup.core, 3))) = true := by decide +kernel

theorem witness_StepKeepsMemoryCanonical : MemoryCanonical State.reset ∧ ∃ t, step State.reset = .next t :=
  ⟨reset_canonical, _, rfl⟩

/-- For the statements VectorArithmetic, VectorBitwise, ScalarInteger and ImmediateForms, and the words without a condition of VectorMoves. -/
theorem witness_Integer :
    ([Instr.vadd 5 1 2, .vsub 5 1 2, .vmul 5 1 2, .vmulhS 5 1 2, .vmulhZ 5 1 2, .vmad 5 1 2, .vminS 5 1 2, .vminZ 5 1 2, .vmaxS 5 1 2, .vmaxZ 5 1 2, .vaddsS 5 1 2,
      .vaddsZ 5 1 2, .vsubsS 5 1 2, .vsubsZ 5 1 2, .vdivS 5 1 2, .vdivZ 5 1 2, .vremS 5 1 2, .vremZ 5 1 2, .vpopc 5 1, .vclz 5 1, .vbrev 5 1, .vbfxZ 5 1 2,
      .vbfxS 5 1 2, .vbfi 5 1 2, .vcmpEq 5 1 2, .vcmpNe 5 1 2, .vcmpLtS 5 1 2, .vcmpLtZ 5 1 2, .vcmpLeS 5 1 2, .vcmpLeZ 5 1 2, .vand 5 1 2, .vor 5 1 2, .vxor 5 1 2,
      .vandn 5 1 2, .vshl 5 1 2, .vshrZ 5 1 2, .vshrS 5 1 2, .vrotl 5 1 2, .vmov 5 1, .vsel 5 1 2, .vbcast 5 1].all (fun i => wit i) &&
     [Instr.sadd 5 1 2, .ssub 5 1 2, .smul 5 1 2, .smulhS 5 1 2, .smulhZ 5 1 2, .sminS 5 1 2, .sminZ 5 1 2, .smaxS 5 1 2, .smaxZ 5 1 2, .sdivS 5 1 2, .sdivZ 5 1 2,
      .sremS 5 1 2, .sremZ 5 1 2, .sand 5 1 2, .sor 5 1 2, .sxor 5 1 2, .sandn 5 1 2, .sshl 5 1 2, .sshrZ 5 1 2, .sshrS 5 1 2, .spopc 5 1, .sclz 5 1, .scmpEq 5 1 2,
      .scmpNe 5 1 2, .scmpLtS 5 1 2, .scmpLtZ 5 1 2, .scmpLeS 5 1 2, .scmpLeZ 5 1 2, .smov 5 1, .ssel 5 1 2].all (fun i => wit i && wit i (inMode 1 onTile)) &&
     [Instr.vaddi 5 1 0x3FF, .vmuli 5 1 2, .vandi 5 1 2, .vori 5 1 2, .vxori 5 1 2, .vshli 5 1 31, .vshriZ 5 1 31, .vshriS 5 1 31, .vcmpiEq 5 1 2, .vcmpiLtS 5 1 2,
      .vcmpiLtZ 5 1 2, .vminiS 5 1 2, .vmaxiS 5 1 2, .saddi 5 1 0x3FF, .smuli 5 1 2, .sandi 5 1 2, .sori 5 1 2, .sxori 5 1 2, .sshli 5 1 63, .sshriZ 5 1 63,
      .sshriS 5 1 63, .scmpiEq 5 1 2, .scmpiLtS 5 1 2, .scmpiLtZ 5 1 2, .sminiS 5 1 2, .smaxiS 5 1 2, .vmovi 5 0x40000, .vmovhi 5 0x40000, .smovi 5 0x40000,
      .smovhi 5 0x40000].all (fun i => wit i)) = true ∧ bootedGroup.mode ≠ 1 := by decide +kernel

/-- The lane that the scalar names is the last of the width, and the first beyond it. -/
theorem witness_VectorMoves :
    ([Instr.vext 5 1 2, .vins 5 1 2].all (fun i =>
      wit i (sr 2 7) id (fun _ g => decide ((g.regs.rs 2).toNat < g.width)) && wit i (sr 2 8) id (fun _ g => decide (g.width ≤ (g.regs.rs 2).toNat)))) = true := by
  decide +kernel

/-! #### Floating point and lanes -/

theorem witness_Float :
    (finite 0x3F800000 ∧ finite 0x00000001 ∧ finite 0x7F7FFFFF ∧ (0x00000001 : W32).toNat % 2 ^ 31 ≠ 0 ∧ isNan 0x7FC00000 ∧ isNan 0x7F800001 ∧ ¬ isNan 0x7F800000 ∧
      (0x80000000 : W32).toNat % 2 ^ 31 = 0 ∧ (0xC0800000 : W32).msb = true ∧ (0xC0800000 : W32) ≠ patternF true 0 ∧ (0x7F7FFFFF : W32).toNat < 0x7F800000) ∧
    (∀ f, f = fp32 ∨ f = bf16 ∨ f = fp16 → finiteCode f 1 ∧ finiteCode f f.signBit ∧ valueOf f 1 + valueOf f 1 ≠ 0 ∧ valueOf f 1 + valueOf f (f.signBit + 1) = 0 ∧
      valueOf f 1 * valueOf f 1 + valueOf f 1 * unit f ≠ 0 ∧ valueOf f 0 * valueOf f 1 + valueOf f 0 * unit f = 0) ∧
    (∀ f, f = bf16 ∨ f = fp16 → f.infCode < (f.infCode + 1) % 2 ^ 15 ∧ f.infCode + 1 < 2 ^ 16) ∧
    (bf16.infCode < 0xFFFF % 2 ^ 15 ∧ ¬ bf16.infCode < 0xFF80 % 2 ^ 15 ∧ 2 ^ 15 ≤ 0x8000 ∧ 0 < 2 ^ 15 ∧ 0x7F7F < 0x7F80 ∧ 0x8000 < 0xFF80) ∧
    (mag 23 ((0xC0000000 : W32).toNat % 2 ^ 31) = 2 * 2 ^ 149 ∧ mag 23 (0x00000002 : W32).toNat = 2 ^ 1 ∧ (0x00000001 : W32) ≠ 0) ∧
    (0 ≤ (0 : W32).toInt ∧ (0xFFFFFF6A : W32).toInt < 0 ∧ mag 23 ((0x40000000 : W32).toNat % 2 ^ 31) % 2 ^ 149 = 0 ∧ mag 23 ((0x3F000000 : W32).toNat % 2 ^ 31) % 2 ^ 149 = 2 ^ 148) := by
  refine ⟨by decide +kernel, ?_, ?_, by decide +kernel, by decide +kernel, by decide +kernel⟩
  · rintro f (rfl | rfl | rfl) <;> decide +kernel
  · rintro f (rfl | rfl) <;> decide +kernel

/-- For FloatVectors, FloatSelectionAndSign, FloatScalingAndIntegral, PackedPairs, Conversions, NarrowFormats and Transcendentals: their words, and the format words that are and are not valid. -/
theorem witness_FloatWords :
    ([Instr.fadd 5 1 2, .fsub 5 1 2, .fmul 5 1 2, .ffma 5 1 2, .fdiv 5 1 2, .fsqrt 5 1, .frcp 5 1, .fmin 5 1 2, .fmax 5 1 2, .fabs 5 1, .fneg 5 1, .fcmpEq 5 1 2,
      .fcmpLt 5 1 2, .fcmpLe 5 1 2, .fcmpUn 5 1 2, .fclass 5 1, .fscale 5 1 2, .ffloor 5 1, .fceil 5 1, .ftrunc 5 1, .frint 5 1, .faddB2 5 1 2, .fmulB2 5 1 2,
      .ffmaB2 5 1 2, .faddH2 5 1 2, .fmulH2 5 1 2, .ffmaH2 5 1 2, .fmaxB2 5 1 2, .fminB2 5 1 2, .cvtFS 5 1, .cvtFZ 5 1, .cvtSF 5 1, .cvtZF 5 1, .cvtB2F 5 1 2,
      .cvtH2F 5 1 2, .cvtFB2 5 1 0, .cvtFB2 5 1 1, .cvtFH2 5 1 0, .cvtFH2 5 1 1, .vpack4 5 1 3, .vpack4 5 1 15, .vunpk4 5 1 0, .vunpk4 5 1 8, .fexp2 5 1, .flog2 5 1,
      .frsqrt 5 1, .fsinpi 5 1, .fcospi 5 1, .ftanh 5 1, .fsigm 5 1].all (fun i => wit i) &&
     [Instr.cvtNF 5 1 2, .cvtFN 5 1 2].all (fun i => wit i (sr 2 0xA301) id (fun _ g => (narrowOf ((g.regs.rs 2).setWidth 16)).valid) &&
       wit i id id (fun _ g => !(narrowOf ((g.regs.rs 2).setWidth 16)).valid))) = true ∧
    (narrowOf 0xA301).valid = true ∧ 6 < 2 ^ (narrowOf 0xA301).bits ∧ (narrowOf 0xA301).dec 6 ≠ .nan := by decide +kernel

/-- The magnitudes of codes rise. -/
theorem mag_le {c d : Nat} (h : c ≤ d) : mag 23 c ≤ mag 23 d := by
  refine monotone_nat_of_le_succ (f := mag 23) (fun c => ?_) h
  unfold mag
  have hq := Nat.div_add_mod c (2 ^ 23)
  by_cases h1 : c + 1 < 2 ^ 23
  · rw [if_pos h1, if_pos (by omega)]; omega
  · by_cases h2 : c < 2 ^ 23
    · have : c = 2 ^ 23 - 1 := by omega
      subst this; decide
    · simp only [h1, h2, if_false]
      by_cases h3 : c % 2 ^ 23 + 1 < 2 ^ 23
      · have ha : (c + 1) % 2 ^ 23 = c % 2 ^ 23 + 1 := by omega
        have hb : (c + 1) / 2 ^ 23 = c / 2 ^ 23 := by omega
        rw [ha, hb]
        exact Nat.mul_le_mul_right _ (by omega)
      · have ha : (c + 1) % 2 ^ 23 = 0 := by omega
        have hb : (c + 1) / 2 ^ 23 - 1 = (c / 2 ^ 23 - 1) + 1 := by omega
        rw [ha, hb, Nat.pow_succ (n := 2) (m := c / 2 ^ 23 - 1), Nat.mul_comm (2 ^ (c / 2 ^ 23 - 1)) 2, ← Nat.mul_assoc]
        exact Nat.mul_le_mul_right _ (by omega)

/-- Values near 1 are clear of every halfway point. -/
theorem clear_near_one {v : ℝ} (h1 : 1 - 1 / 2 ^ 40 ≤ v) (h2 : v ≤ 1 + 1 / 2 ^ 40) : Clear v := by
  intro k _
  have hv : 0 ≤ v := le_trans (by norm_num) h1
  rw [abs_of_nonneg hv]
  by_cases hk : k < 0x3F800000
  · have a := mag_le (show k ≤ 0x3F7FFFFF by omega)
    have b := mag_le (show k + 1 ≤ 0x3F800000 by omega)
    have c : mag 23 0x3F7FFFFF + mag 23 0x3F800000 = 2 ^ 150 - 2 ^ 125 := by decide +kernel
    have e : ((mag 23 k + mag 23 (k + 1) : Nat) : ℝ) ≤ 2 ^ 150 - 2 ^ 125 := by
      have : mag 23 k + mag 23 (k + 1) + 2 ^ 125 ≤ 2 ^ 150 := by omega
      have := (Nat.cast_le (α := ℝ)).2 this
      push_cast at this ⊢
      linarith
    rw [abs_of_nonneg]
    · rw [le_sub_iff_add_le, ← le_sub_iff_add_le', div_le_iff₀ (by positivity)]
      nlinarith
    · rw [sub_nonneg, div_le_iff₀ (by positivity)]
      nlinarith
  · have a := mag_le (show 0x3F800000 ≤ k by omega)
    have b := mag_le (show 0x3F800001 ≤ k + 1 by omega)
    have c : mag 23 0x3F800000 + mag 23 0x3F800001 = 2 ^ 150 + 2 ^ 126 := by decide +kernel
    have e : (2 ^ 150 + 2 ^ 126 : ℝ) ≤ ((mag 23 k + mag 23 (k + 1) : Nat) : ℝ) := by
      have : 2 ^ 150 + 2 ^ 126 ≤ mag 23 k + mag 23 (k + 1) := by omega
      have := (Nat.cast_le (α := ℝ)).2 this
      push_cast at this ⊢
      linarith
    rw [abs_sub_comm, abs_of_nonneg]
    · rw [le_sub_iff_add_le, le_div_iff₀ (by positivity)]
      nlinarith
    · rw [sub_nonneg, le_div_iff₀ (by positivity)]
      nlinarith

/-- For each clause of TranscendentalsRoundCorrectly a finite operand whose value is clear. -/
theorem witness_TranscendentalsRoundCorrectly :
    (finite 0 ∧ Clear ((2 : ℝ) ^ realOf 0)) ∧
    (finite 0x3F800000 ∧ ((0x3F800000 : W32).msb = false ∧ (0x3F800000 : W32) ≠ 0) ∧ Clear (Real.logb 2 (realOf 0x3F800000))) ∧
    (finite 0x3F000000 ∧ mag 23 ((0x3F000000 : W32).toNat % 2 ^ 31) % 2 ^ 149 ≠ 0 ∧ Clear (Real.sin (Real.pi * realOf 0x3F000000))) ∧
    (finite 0 ∧ Clear (Real.cos (Real.pi * realOf 0))) ∧
    (finite 0x5D800000 ∧ (0x5D800000 : W32).toNat % 2 ^ 31 ≠ 0 ∧ Clear (Real.tanh (realOf 0x5D800000))) ∧
    (finite 0x5D800000 ∧ Clear (1 / (1 + Real.exp (-realOf 0x5D800000)))) := by
  have r0 : realOf 0 = 0 := by simp [realOf, mag]
  have r1 : realOf 0x3F800000 = 1 := by
    have : mag 23 ((0x3F800000 : W32).toNat % 2 ^ 31) = 2 ^ 149 := by decide +kernel
    rw [realOf, this, if_neg (by decide)]; norm_num
  have rh : realOf 0x3F000000 = 1 / 2 := by
    have : mag 23 ((0x3F000000 : W32).toNat % 2 ^ 31) = 2 ^ 148 := by decide +kernel
    rw [realOf, this, if_neg (by decide)]; norm_num
  have rb : realOf 0x5D800000 = 2 ^ 60 := by
    have : mag 23 ((0x5D800000 : W32).toNat % 2 ^ 31) = 2 ^ 209 := by decide +kernel
    rw [realOf, this, if_neg (by decide)]; norm_num
  have one : Clear 1 := clear_near_one (by norm_num) (by norm_num)
  refine ⟨⟨by decide, by rw [r0, Real.rpow_zero]; exact one⟩, ⟨by decide, by decide, ?_⟩, ⟨by decide, by decide +kernel, ?_⟩,
    ⟨by decide, by rw [r0, mul_zero, Real.cos_zero]; exact one⟩,
    ⟨by decide, by decide, ?_⟩, ⟨by decide, ?_⟩⟩
  · rw [r1, Real.logb_one]
    intro k _
    simp
  · rw [rh, show Real.pi * (1 / 2) = Real.pi / 2 by ring, Real.sin_pi_div_two]
    exact one
  · rw [rb]
    have e1 := Real.add_one_le_exp (2 * 2 ^ 60 : ℝ)
    have hp := Real.exp_pos (2 * 2 ^ 60 : ℝ)
    have ht : Real.tanh (2 ^ 60) = 1 - 2 / (Real.exp (2 * 2 ^ 60) + 1) := by
      rw [Real.tanh_eq_sinh_div_cosh, Real.sinh_eq, Real.cosh_eq, Real.exp_neg, two_mul, Real.exp_add]
      have := Real.exp_pos ((2 : ℝ) ^ 60)
      field_simp
      ring
    rw [ht]
    refine clear_near_one ?_ ?_
    · have : 2 / (Real.exp (2 * 2 ^ 60) + 1) ≤ 1 / 2 ^ 40 := by
        rw [div_le_div_iff₀ (by positivity) (by positivity)]
        nlinarith
      linarith
    · have : 0 ≤ 2 / (Real.exp (2 * 2 ^ 60) + 1) := by positivity
      have : (0 : ℝ) ≤ 1 / 2 ^ 40 := by positivity
      linarith
  · rw [rb]
    have e1 := Real.add_one_le_exp ((2 : ℝ) ^ 60)
    have hp := Real.exp_pos ((2 : ℝ) ^ 60)
    have hu : Real.exp (-(2 : ℝ) ^ 60) ≤ 1 / 2 ^ 50 := by
      rw [Real.exp_neg, ← one_div, div_le_div_iff₀ hp (by positivity)]
      nlinarith
    have hu0 := Real.exp_pos (-(2 : ℝ) ^ 60)
    refine clear_near_one ?_ ?_
    · rw [le_div_iff₀ (by positivity)]
      nlinarith
    · rw [div_le_iff₀ (by positivity)]
      nlinarith [mul_pos (show (0 : ℝ) < 1 / 2 ^ 40 by positivity) hu0]

/-- For CrossLane: its words, and the NaN and order conditions of its selections. -/
theorem witness_CrossLane :
    ([Instr.vshflIdx 5 1 2, .vshflUp 5 1 2, .vshflDn 5 1 2, .vshflXor 5 1 2, .vredAdd 5 1, .vredMinS 5 1, .vredMaxS 5 1, .vredMinZ 5 1, .vredMaxZ 5 1, .vredAnd 5 1,
      .vredOr 5 1, .vredXor 5 1, .vredFadd 5 1, .vredFmin 5 1, .vredFmax 5 1, .vargminS 6 1, .vargminZ 6 1, .vargmaxS 6 1, .vargmaxZ 6 1, .vscanAdd 5 1,
      .vscanFadd 5 1, .vballot 4 2, .vany 4 2, .vall 4 2].all (fun i => wit i)) = true ∧
    ¬ isNan 0x80000000 ∧ [(0x7FC00000 : W32), 0x80000000, 0].all (fun y => decide (isNan y) || !decide (belowF y 0x80000000)) = true ∧
    [(0x7FC00000 : W32), 0x80000000, 0].all (fun y => decide (isNan y) || !decide (belowF 0 y)) = true ∧
    [(0x7FC00000 : W32), 0x7F800001].all (fun y => decide (isNan y)) = true := by decide +kernel

theorem witness_VotesAndSpecialRegisters :
    ([Instr.vany 4 2, .vall 4 2].all (fun i => wit i id id (fun _ g => everyLane g (fun l => decide (g.regs.rv 2 l = 0))) &&
       wit i (vr 2 1) id (fun _ g => everyLane g (fun l => decide (g.regs.rv 2 l ≠ 0))) &&
       wit i (vl 2 3 1) id (fun _ g => executes g 0xFF 3 && decide (g.regs.rv 2 3 ≠ 0) && executes g 0xFF 2 && decide (g.regs.rv 2 2 = 0))) &&
     [1, 2, 3, 7, 9, 10, 11, 13, 20].all (fun n => wit (.smovsr 5 n) id id (fun s g => (s.team? g.team).isSome && (s.launch? g.launch).isSome)) &&
     [0, 1, 4, 5, 6, 9, 10, 12].all (fun n => wit (.vmovsr 5 n) id id (fun _ g => everyLane g (fun l => (g.lane l).tile.isNone))) &&
     [4, 5, 6].all (fun n => wit (.vmovsr 5 n) (inMode 2 onTile) id (fun _ g => everyLane g (fun l => (g.lane l).tile.isSome)))) = true := by decide +kernel
/-! #### Control -/

theorem witness_Branches :
    ([Instr.bnz 1 2 5, .bz 1 2 5, .bsnz 1 2 5, .bsz 1 2 5, .bra 2 5, .bz 1 2 7, .bra 2 7].all (fun i => wit i && wit i (inMode 2 onTile)) &&
     wit (.bnz 1 2 5) (inMode 1 (fun l => { tile0 with tile := l, nbr := 63, ndec := 63 })) id (fun _ g => decide (g.mode = 1) &&
       decide (((4 : Pc) + (5 : BitVec 14).signExtend 48 * 4).toNat % 32 ≠ 0) && g.lanes.all (fun x => match x.tile with
         | none => false
         | some k => decide (k.nbr < 64)) && (List.range 64).all (fun l => !bit 0xFF l || decide (l < g.width ∧ l < g.lanes.length)))) = true := by decide +kernel

/-- The lanes call at offset 8 of the code; a call at depth 3 stays on chip, one at depth 4 spills; the fifth return address reloads. -/
def codeTargetsB (g : Group) (c : Cap) (off : Nat → Nat) : Bool :=
  c.tag && decide (c.kind = kCode) && c.has rX && decide (c.obj = (g.regs.rc 29).obj) &&
    everyLane g (fun l => decide (off l + 4 ≤ c.length ∧ (c.base + off l) % 4 = 0 ∧ (c.base + off l) % 32 ≠ 0))
def teamStack : Group → Group := cr 31 ⟨capBits 0 (rR + rW) kTeam 0 1024, true⟩
theorem witness_CallsAndReturns :
    (wit (.calli 0 12) (allLanes (fun x => { x with depth := 3 })) id (fun _ g => decide (g.mode = 0) && decide (((4 : Pc) + (12 : BitVec 14).signExtend 48 * 4).toNat % 32 ≠ 0) &&
       everyLane g (fun l => decide ((g.lane l).depth < 4))) &&
     wit (.calli 0 7) id id (fun _ _ => decide (((4 : Pc) + (7 : BitVec 14).signExtend 48 * 4).toNat % 32 = 0)) &&
     wit (.callv 29 2) (vr 2 8) id (fun _ g => everyLane g (fun l => decide ((g.lane l).depth < 4)) && codeTargetsB g (g.regs.rc 29) (fun l => (g.regs.rv 2 l).toNat)) &&
     wit (.calls 29 6) (sr 6 8) id (fun _ g => everyLane g (fun l => decide ((g.lane l).depth < 4)) && codeTargetsB g (g.regs.rc 29) (fun _ => (g.regs.rs 6).toNat)) &&
     wit (.jmpv 29 2) (vr 2 0xFFFC) id (fun _ g => codeTargetsB g (g.regs.rc 29) (fun l => (g.regs.rv 2 l).toNat)) &&
     [1, 4].all (fun d => wit .ret (allLanes (fun x => { x with depth := d, stack := List.replicate d 8 })) id (fun _ g => decide (g.mode = 0) &&
       everyLane g (fun l => decide (1 ≤ (g.lane l).depth ∧ (g.lane l).depth ≤ 4)))) &&
     wit .ret id id (fun _ g => executes g 0xFF 0 && decide ((g.lane 0).depth = 0)) &&
     wit (.calli 0 12) (teamStack ∘ allLanes (fun x => { x with depth := 4, stack := [8, 12, 16, 20] })) id (fun s g => decide (g.mode = 0) && !s.heldMode g.launch &&
       decide ((g.regs.rc 31).kind = kTeam) && accessB (s.stackAccess (issueCtx bootGroup g 4 0xFF (.calli 0 12)) .store
         (((execList g 0xFF).filter (fun l => decide (4 ≤ (g.lane l).depth))).map (fun l => ⟨l, 8 * (64 * ((g.lane l).depth - 4) + l)⟩))) s 8 &&
       decide (((execList g 0xFF).filter (fun l => decide (4 ≤ (g.lane l).depth))).length = 8)) &&
     wit .ret (teamStack ∘ allLanes (fun x => { x with depth := 5, stack := [8, 12, 16, 20] })) id (fun s g => decide (g.mode = 0) && quietB s g.team &&
       everyLane g (fun l => decide (1 ≤ (g.lane l).depth)) && accessB (s.stackAccess (issueCtx bootGroup g 4 0xFF .ret) .load
         (((execList g 0xFF).filter (fun l => decide (5 ≤ (g.lane l).depth))).map (fun l => ⟨l, 8 * (64 * ((g.lane l).depth - 5) + l)⟩))) s 8)) = true := by decide +kernel

theorem witness_NopHasNoEffect : (wit .nop && wit .nop (inMode 1 onTile) && wit .nop (inMode 3 onTile)) = true := by decide +kernel

theorem witness_GroupControls :
    ([Instr.frnd 3, .setprio 15, .yield, .exit].all (fun i => wit i) && wit (.wbase 15) id id (fun _ g => decide (8 * (15 : F7).toNat < g.alloc)) &&
     wit (.wbase 16) id id (fun _ g => decide (g.mode ≠ 1 ∧ g.alloc ≤ 8 * (16 : F7).toNat)) &&
     wit .exit id id (fun s g => decide (g.mode ≠ 1 ∧ g.js = []) && (s.snapShort (s.heldPlaces g.team)).isNone && g.lanes.all (fun x => decide (x.state ≠ .waitBar ∧ x.state ≠ .waitLvl)) &&
       decide (7 < g.width ∧ (g.lane 7).state ≠ .exit) && !bit 0x7F 7) 0x7F &&
     wit .exit (inMode 1 onTile) id (fun _ g => decide (g.mode = 1))) = true := by decide +kernel

theorem witness_RejoinSets :
    ([Instr.rjset 2 1, .rjsetm 2 1].all (fun i => wit i id id (fun _ g => decide ((g.set 2).waiting = 0)) && wit i (jset 2 0x30 0x10) id (fun _ g => decide ((g.set 2).waiting ≠ 0)) 0xF) &&
     wit (.rjenter 15) && wit (.rjget 5 2 0) && wit (.rjget 5 2 1) &&
     wit (.rjquit 2) id id (fun _ g => decide ((g.set 2).waiting &&& ~~~0xFF = 0)) &&
     wit (.rjquit 2) (jset 2 0x30 0x10) id (fun _ g => decide ((g.set 2).waiting &&& ~~~0xF ≠ (g.set 2).member &&& ~~~0xF)) 0xF &&
     wit (.rjquit 2) (jset 2 0x1F 0x10) id (fun _ g => decide ((g.set 2).waiting &&& ~~~0xF ≠ 0 ∧ (g.set 2).waiting &&& ~~~0xF = (g.set 2).member &&& ~~~0xF)) 0xF &&
     wit (.rjwait 2) id id (fun _ g => decide ((g.set 2).waiting ||| (0xFF &&& (g.set 2).member) = 0)) &&
     wit (.rjwait 2) (jset 2 0xFF 0) id (fun _ g => decide ((g.set 2).waiting ||| (0xF &&& (g.set 2).member) ≠ (g.set 2).member)) 0xF &&
     wit (.rjwait 2) (jset 2 0xFF 0) id (fun _ g => decide ((g.set 2).waiting ||| (0xFF &&& (g.set 2).member) ≠ 0 ∧
       (g.set 2).waiting ||| (0xFF &&& (g.set 2).member) = (g.set 2).member))) = true := by decide +kernel

/-! #### Memory: the team's own, through c30 -/

def loadB (i : Instr) (w off : Nat) : Bool := wit i id id (fun s g => decide (g.mode ≠ 1) && quietB s g.team &&
  accessB (s.access (issueCtx bootGroup g 4 0xFF i) 30 loadKinds 1 .load w (laneAccs g 0xFF 1 off)) s w)
def loadOneB (i : Instr) (kinds : List Nat) (need : Nat) (use : Use) (w off : Nat) : Bool := wit i id id (fun s g => decide (g.mode ≠ 1) && quietB s g.team &&
  !s.heldMode g.launch && decide ((g.regs.rc 30).kind ≠ kHostio ∧ (g.regs.rc 30).kind ≠ kWindow) &&
  accessB (s.access (issueCtx bootGroup g 4 0xFF i) 30 kinds need use w (groupAccs g 0xFF 1 off)) s w true)
def storeB (i : Instr) (kinds : List Nat) (need : Nat) (use : Use) (w off : Nat) : Bool := wit i id id (fun s g => decide (g.mode ≠ 1) && quietB s g.team &&
  !s.heldMode g.launch && decide ((g.regs.rc 30).kind ≠ kHostio ∧ (g.regs.rc 30).kind ≠ kWindow) &&
  accessB (s.access (issueCtx bootGroup g 4 0xFF i) 30 kinds need use w (laneAccs g 0xFF 1 off)) s w)

theorem witness_Loads :
    (loadB (.vldBZ 5 1 30 63) 1 63 && loadB (.vldBS 5 1 30 63) 1 63 && loadB (.vldHZ 5 1 30 63) 2 126 && loadB (.vldHS 5 1 30 63) 2 126 && loadB (.vldW 5 1 30 63) 4 252 &&
     loadB (.vldD 6 1 30 63) 8 504 && loadB (.vldQ 8 1 30 63) 16 1008 && loadOneB (.sldD 5 1 30 63) loadKinds 1 .load 8 504 && loadOneB (.sldWS 5 1 30 63) loadKinds 1 .load 4 252 &&
     loadOneB (.sldWZ 5 1 30 63) loadKinds 1 .load 4 252 && loadOneB (.vldbc 5 1 30 63) loadKinds 1 .load 4 252 &&
     loadOneB (.cld 5 1 30 63) [kMem, kTeam] (1 + 64) .cld 16 1008) = true := by decide +kernel

theorem witness_StoresAndAtomics :
    (storeB (.vstB 5 1 30 63) storeKinds 2 .store 1 63 && storeB (.vstH 5 1 30 63) storeKinds 2 .store 2 126 && storeB (.vstW 5 1 30 63) storeKinds 2 .store 4 252 &&
     storeB (.vstD 6 1 30 63) storeKinds 2 .store 8 504 && storeB (.vstQ 8 1 30 63) storeKinds 2 .store 16 1008 && loadOneB (.sstD 5 1 30 63) storeKinds 2 .store 8 504 &&
     loadOneB (.sstW 5 1 30 63) storeKinds 2 .store 4 252 && loadOneB (.cst 5 1 30 63) [kMem, kTeam] (2 + 32) .cst 16 1008 &&
     [Instr.aadd 5 1 30 2, .aminS 5 1 30 2, .amaxS 5 1 30 2, .aminZ 5 1 30 2, .amaxZ 5 1 30 2, .aand 5 1 30 2, .aor 5 1 30 2, .axor 5 1 30 2, .axchg 5 1 30 2,
      .acas 5 1 30 2, .afadd 5 1 30 2].all (fun i => storeB i atomKinds (1 + 2 + 8) .atomic 4 0) &&
     [Instr.saadd 5 1 30 2, .sacas 5 1 30 2].all (fun i => loadOneB i atomKinds (1 + 2 + 8) .atomic 8 0)) = true := by decide +kernel

/-- A machine whose capability check of `c` at `y` finds no peer device. -/
def nearB (c : Cap) : Bool := decide (c.kind ≠ kWindow ∧ c.kind ≠ kMem)
theorem nearB_near {c : Cap} (h : nearB c = true) (s : State) (x : Actor) (y : Nat) : s.onPeer x c y = (false, s) := by
  have h' := of_decide_eq_true h
  simp [State.onPeer, h'.1, h'.2]
/-- A word whose R62 checks fail. -/
def checkFails (r : Option Hard × State) : Bool := r.1.isSome

/-- The checks meet in order; the last access that fits ends at the window's end, the first that does not begins a byte later. -/
theorem witness_CapabilityChecks :
    (let s := issuing .nop id id
     let x := s.actor bootGroup bootedGroup
     let c := bootedGroup.regs.rc 30
     !Cap.null.tag && c.tag && !decide (c.kind ∈ [kCode]) && !c.has 128 && decide (c.kind ∈ loadKinds) && c.has 1 && nearB c &&
     !boundsBad x c 4 ⟨0, 1020⟩ && boundsBad x c 4 ⟨1, 1021⟩ && decide ((c.base + 1020) % 4 = 0 ∧ (c.base + 1018) % 4 ≠ 0) && !boundsBad x c 4 ⟨1, 1018⟩ &&
     (let w := Cap.mk (BitVec.ofNat 128 (rR * 2 ^ 88 + kWindow * 2 ^ 84 + 64)) true
      decide (w.kind = kWindow ∧ w.kind ∈ loadKinds) && w.has 1 && (s.onPeer x w 0).1 && !w.has 128) &&
     decide (c.kind ≠ kWindow ∧ c.kind ≠ kMem ∧ (bootedGroup.regs.rc 29).kind ≠ kWindow) &&
     (match s.objEntry x.tb 1 with
      | .at e => decide (e.place ≠ plPeer)
      | _ => false) &&
     (let s' := { s with mem := putNat s.mem (bootTable + 32) 32 (1 + plPeer * 2 ^ 18 + 0x10000 * 2 ^ 48) }
      match s'.objEntry x.tb 1 with
      | .at e => decide (e.place = plPeer ∧ s'.ocache = [])
      | _ => false)) = true ∧
    ([Instr.vldBZ 5 1 30 0, .vldBS 5 1 30 0, .vldHZ 5 1 30 0, .vldHS 5 1 30 0, .vldW 5 1 30 0, .vldD 6 1 30 0, .vldQ 8 1 30 0, .vldbc 5 1 30 0, .vstB 5 1 30 0, .vstH 5 1 30 0,
      .vstW 5 1 30 0, .vstD 6 1 30 0, .vstQ 8 1 30 0, .sldD 5 1 30 0, .sldWS 5 1 30 0, .sldWZ 5 1 30 0, .sstD 5 1 30 0, .sstW 5 1 30 0, .cld 5 1 30 0, .cst 5 1 30 0,
      .aadd 5 1 30 2, .acas 5 1 30 2, .saadd 5 1 30 2, .sacas 5 1 30 2].all (fun i => wit i (cr 30 Cap.null) id (fun s g => decide (g.mode ≠ 1) &&
        checkFails (s.capCheck (s.actor bootGroup g) (g.regs.rc 30) loadKinds 1 1 (laneAccs g 0xFF 1 0)) && checkFails (s.capCheck (s.actor bootGroup g) (g.regs.rc 30) atomKinds 11 8 (groupAccs g 0xFF 1 0)))) &&
     wit (.vldW 5 1 30 63) (vr 1 768) id (fun s g => quietB s g.team && (s.team? g.team).isSome && decide ((g.regs.rc 30).kind = kTeam) && (g.regs.rc 30).tag && (g.regs.rc 30).has 1 &&
       everyLane g (fun l => decide ((g.regs.rv 1 l).toNat + 63 * 4 + 4 ≤ (g.regs.rc 30).length ∧ ((g.regs.rc 30).base + ((g.regs.rv 1 l).toNat + 63 * 4)) % 4 = 0)) &&
       (match s.team? g.team with
         | none => false
         | some tm => everyLane g (fun l => decide ((g.regs.rc 30).base + ((g.regs.rv 1 l).toNat + 63 * 4) + 4 ≤ tm.tmBytes)))) &&
     wit (.sstD 5 1 30 63) (sr 1 512) id (fun s g => !s.heldMode g.launch && decide ((g.regs.rc 30).kind = kTeam) && (g.regs.rc 30).tag && (g.regs.rc 30).has 2 &&
       decide ((g.regs.rs 1).toNat + 63 * 8 + 8 ≤ (g.regs.rc 30).length ∧ ((g.regs.rc 30).base + ((g.regs.rs 1).toNat + 63 * 8)) % 8 = 0) &&
       (match s.team? g.team with
         | none => false
         | some tm => decide ((g.regs.rc 30).base + ((g.regs.rs 1).toNat + 63 * 8) + 8 ≤ tm.tmBytes)))) = true := by decide +kernel

/-! #### Synchronisation -/

def teamB (s : State) (g : Group) (p : Team → Bool) : Bool :=
  match s.team? g.team with
  | none => false
  | some tm => p tm
def launchB (s : State) (g : Group) (p : Launch → Bool) : Bool :=
  match s.launch? g.launch with
  | none => false
  | some l => p l
def partB (s : State) (n : Nat) (p : Part → Bool) : Bool :=
  match s.part? n with
  | none => false
  | some x => p x
def ctxB (s : State) (n : Nat) (p : Context → Bool) : Bool :=
  match s.context? n with
  | none => false
  | some x => p x
def arrivedB (s : State) (arrived : List Nat) (st : LaneState) (id v : Nat) : Bool :=
  decide (v ∈ arrived) || (match s.group? v with
    | none => false
    | some h => h.allIn st id)
def arrivesB (g : Group) (m : W64) (st : LaneState) (id : Nat) : Bool :=
  (List.range 64).any (fun l => executes g m l && decide (l < g.lanes.length)) &&
  (List.range g.width).all (fun l => decide ((g.lane l).state = .exit) || bit m l || decide ((g.lane l).state = st ∧ (g.lane l).id = id))
def atBarrier (st : LaneState) (id : Nat) : Group → Group := allLanes (fun x => { x with state := st, id := id })
def objectAt (o v : Nat) : State → State := onTeam (fun t => { t with tmem := putNat [] o 8 v })

theorem witness_Barriers :
    ([0, 15].all (fun n => wit (.teambar n) id (withGroup 4 id) (fun s g => teamB s g (fun tm => decide (4 ∈ s.teamGroups g.team) &&
        !arrivedB s (Tab.get Barrier.zero tm.bars n.toNat).arrived .waitBar n.toNat 4)) &&
      wit (.teambar n) id (withGroup 4 (atBarrier .waitBar n.toNat)) (fun s g => teamB s g (fun tm => arrivesB g 0xFF .waitBar n.toNat && (s.teamGroups g.team).all (fun v =>
        decide (v = bootGroup) || arrivedB s (Tab.get Barrier.zero tm.bars n.toNat).arrived .waitBar n.toNat v)))) &&
     wit (.lvlbar 2) id (withGroup 4 id) (fun s g => launchB s g (fun ln => decide (2 < ln.nlvl) &&
        decide (4 ∈ (s.unitGroups g.launch 2 (s.groupUnit bootGroup g 2)).1) &&
        !arrivedB s (Tab.get Barrier.zero ln.lvlBars (levelKey 2 (s.groupUnit bootGroup g 2))).arrived .waitLvl 2 4)) &&
     [1, 2].all (fun n =>
      wit (.lvlbar n) id (withGroup 4 (atBarrier .waitLvl n.toNat)) (fun s g => launchB s g (fun ln => decide (n.toNat < ln.nlvl) && arrivesB g 0xFF .waitLvl n.toNat &&
        (let us := s.unitGroups g.launch n.toNat (s.groupUnit bootGroup g n.toNat)
         decide (bootGroup ∈ us.1) && us.2 && us.1.all (fun v => decide (v = bootGroup) ||
          arrivedB s (Tab.get Barrier.zero ln.lvlBars (levelKey n.toNat (s.groupUnit bootGroup g n.toNat))).arrived .waitLvl n.toNat v)) && !ln.spansDevices n.toNat))) &&
     wit (.lvlbar 3) id id (fun s g => decide (g.mode ≠ 1) && launchB s g (fun ln => decide (ln.nlvl ≤ 3))) &&
     [(0, 1), (1016, 2 ^ 31 - 1)].all (fun e => wit (.tbinit 1 2) (sr 1 (BitVec.ofNat 64 e.1) ∘ sr 2 (BitVec.ofNat 64 e.2)) id (fun s g => teamB s g (fun tm =>
        decide ((g.regs.rs 1).toNat + 8 ≤ tm.tmBytes ∧ (g.regs.rs 1).toNat % 8 = 0 ∧ g.regs.rs 2 ≠ 0 ∧ (g.regs.rs 2).toNat < 2 ^ 31)))) &&
     [1, 2].all (fun n => wit (.tbarrive 3 1 2) (sr 1 1016 ∘ sr 2 1) (objectAt 1016 (barrierObject 3 true n)) (fun s g => quietB s g.team && teamB s g (fun tm =>
        decide ((g.regs.rs 1).toNat + 8 ≤ tm.tmBytes ∧ (g.regs.rs 1).toNat % 8 = 0 ∧ g.regs.rs 2 ≠ 0 ∧ (g.regs.rs 2).toNat ≤ n ∧
          teamWord s g.team (g.regs.rs 1).toNat = BitVec.ofNat 64 (barrierObject 3 true n))))) &&
     [Instr.tbwait 1 2, .tbtest 3 1 2].all (fun i => wit i (sr 1 1016) id (fun s g => quietB s g.team && teamB s g (fun tm =>
        decide ((g.regs.rs 1).toNat + 8 ≤ tm.tmBytes ∧ (g.regs.rs 1).toNat % 8 = 0)))) &&
     [(0, 0), (1, 2)].all (fun e => wit (.tbarrive 3 1 2) (sr 1 1016 ∘ sr 2 (BitVec.ofNat 64 e.2)) (objectAt 1016 (barrierObject 3 true e.1)) (fun s g => decide (g.mode ≠ 1) &&
        quietB s g.team && teamB s g (fun tm => decide ((g.regs.rs 1).toNat + 8 ≤ tm.tmBytes ∧ (g.regs.rs 1).toNat % 8 = 0 ∧
          (g.regs.rs 2 = 0 ∨ (teamWord s g.team (g.regs.rs 1).toNat).toNat % 2 ^ 31 < (g.regs.rs 2).toNat))))) &&
     wit (.tbinit 1 2) (sr 1 1017) id (fun s g => decide (g.mode ≠ 1) && teamB s g (fun tm => decide (tm.tmBytes < (g.regs.rs 1).toNat + 8))) &&
     wit (.tbinit 1 2) (sr 1 1015) id (fun s g => decide (g.mode ≠ 1) && teamB s g (fun tm => decide ((g.regs.rs 1).toNat + 8 ≤ tm.tmBytes ∧ (g.regs.rs 1).toNat % 8 ≠ 0)))) = true := by
  decide +kernel

/-- A store of the group at the host that is still on its way, behind a flow of operation `op` of the group that has made its writes, or none. -/
def onItsWay (made : Bool) (s : State) : State :=
  { s with posted := [⟨0, none, bootGroup, bootTeam, 0, 0, false, false, [(.host 8, 0, 1)]⟩] ++ (if made then [] else [⟨0, none, bootGroup, bootTeam, 0, 7, true, false, []⟩]) }
/-- An engine write of operation 7, made and published to nobody. -/
def madeWrite (l : Loc) (b : Byte) : Unpub := ⟨l, [b], 7, 0, 1, bootTeam, bootGroup, true, [], false, none, none, 0, none⟩
/-- A flow of the group that still runs has its place on a connection. -/
def flowHeld (s : State) : State :=
  { s with posted := [⟨0, none, bootGroup, bootTeam, 0, 7, true, false, []⟩], copies := [(7, ⟨1, 0, bootLaunch, bootTeam, bootGroup, 9, some 3, [], [], [], [], none⟩)] }
/-- A request of the group at the host. -/
def asking (lone : Bool) (g : Group) : Group :=
  { g with host := some ⟨.aadd 5 1 30 2, 4, 0xFF, Regs.zero, 0, false, none, false, lone, 0, 0, [(0, .host 8)]⟩ }
/-- The places of a store are distinct, need no page copy, exist and are readable. -/
def writableB (s : State) (ds : List (Loc × Nat)) : Bool :=
  decide ((ds.map (·.1)).Nodup ∧ s.snapShort (ds.map (·.1)) = none) && ds.all (fun e => ds.all (fun e' => decide (e.2 = e'.2)) && s.readable e.2 e.1 && inStore s e.1 && !queueReg s.queues e.1)

theorem witness_PublicationPoints :
    ([Instr.fpub 6, .icinv 0, .icinv 1, .icinv 2, .icinv 6].all (fun i => wit i id (fun s => { s with icache := [⟨1, 0x30000, []⟩, ⟨2, 0x30000, []⟩, ⟨8, 0x30000, []⟩], unpub := [madeWrite (.dev 8) 1] })) &&
     wit (.fsys 6) id (fun s => { s with unpub := [madeWrite (.dev 8) 1] }) (fun s g => g.host.isNone && !s.stuck (s.fsysNeeds bootGroup) && s.posted.isEmpty) &&
     wit (.fsys 6) id (onItsWay true) (fun s g => g.host.isNone && !s.stuck (s.fsysNeeds bootGroup) && (match s.posted with
       | [q] => decide (q.group = bootGroup ∧ q.engine = false) && writableB s (q.writes.map (fun w => (w.1, w.2.1)))
       | _ => false)) &&
     wit (.fsys 6) (asking false) id (fun _ g => g.host.isSome) &&
     wit (.fsys 6) (fun g => { g with batch := 1, waited := 1, sealed := [(1, [7])] }) flowHeld (fun s g => g.host.isNone && s.stuck (s.fsysNeeds bootGroup) && !s.shortFor (dueFor (s.fsysNeeds bootGroup) s.posted))) = true := by
  decide +kernel

/-- The launch has a fourth level, of two devices. -/
def twoDevices : State → State := onLaunch (fun l => { l with record := l.record + BitVec.ofNat 2304 (2 ^ 84 + 2 * 2 ^ 320 + 3 * 2 ^ 344) })
/-- Channel 3 from team 0 to team 0, with these slots, takers and senders. -/
def channel (dst slots : Nat) (fifo : List (List W32)) (takers : List ChanWait) : State → State :=
  onLaunch (fun l => { l with chans := [(3, ⟨0, dst, slots, fifo, [], takers⟩)] })
def chanB (s : State) (g : Group) (q : F7) (p : Chan → Bool) : Bool := launchB s g (fun ln =>
  match Tab.find ln.chans (q.toNat - 64) with
  | none => false
  | some ch => p ch)
def sendsB (s : State) (g : Group) (ch : Chan) : Bool := decide (ch.src = s.tidOf g) && !s.heldMode g.launch

theorem witness_Channels :
    (wit (.send 67 1) id (channel 0 2 [[]] []) (fun s g => chanB s g 67 (fun ch => sendsB s g ch && !s.teamGone g.launch ch.dst && !s.teamAway g.launch ch.dst && ch.takers.isEmpty && decide (ch.fifo.length < ch.slots))) &&
     wit (.send 67 1) id (channel 0 1 [[]] []) (fun s g => chanB s g 67 (fun ch => sendsB s g ch && !s.teamGone g.launch ch.dst && !s.teamAway g.launch ch.dst && ch.takers.isEmpty && decide (ch.slots ≤ ch.fifo.length))) &&
     wit (.send 67 1) id (fun s => { channel 1 1 [] [] s with teams := s.teams ++ [(9, { Team.base with launch := bootLaunch, tid := 1, retired := true })] })
       (fun s g => chanB s g 67 (fun ch => sendsB s g ch && s.teamGone g.launch ch.dst)) &&
     wit (.send 67 1) id (channel 0 1 [] [⟨4, 0x0F, 5, []⟩] ∘ withGroup 4 id) (fun s g => chanB s g 67 (fun ch => sendsB s g ch && !s.teamGone g.launch ch.dst && !s.teamAway g.launch ch.dst && (match ch.takers with
       | [] => false
       | w :: _ => decide (w.group ≠ bootGroup) && (s.group? w.group).isSome))) &&
     wit (.recv 5 67) id (channel 0 1 [[7]] []) (fun s g => chanB s g 67 (fun ch => decide (ch.dst = s.tidOf g ∧ ch.fifo = [[7]]) && ch.senders.isEmpty && (s.team? g.team).isSome)) &&
     wit (.recv 5 67) id (channel 0 1 [] []) (fun s g => chanB s g 67 (fun ch => decide (ch.dst = s.tidOf g ∧ ch.fifo = []) && (s.team? g.team).isSome)) &&
     wit (.qstat 5 67) id (channel 0 1 [[7]] []) (fun s g => chanB s g 67 (fun ch => !s.teamAway g.launch ch.dst)) &&
     wit (.send 67 1) id (twoDevices ∘ channel 99 1 [] []) (fun s g => chanB s g 67 (fun ch => sendsB s g ch && !s.teamGone g.launch ch.dst && s.teamAway g.launch ch.dst)) &&
     wit (.qstat 5 67) id (twoDevices ∘ channel 99 1 [] []) (fun s g => chanB s g 67 (fun ch => s.teamAway g.launch ch.dst)) &&
     [Instr.send 79 1, .recv 5 79, .qstat 5 79].all (fun i => wit i id (channel 0 1 [] []) (fun s g => decide (g.mode ≠ 1) && launchB s g (fun ln => (Tab.find ln.chans 15).isNone))) &&
     wit (.recv 5 67) id (channel 1 1 [] []) (fun s g => chanB s g 67 (fun ch => decide (ch.dst ≠ s.tidOf g)))) = true := by decide +kernel

theorem witness_ParkingWords :
    (wit (.tmwait 1) id id (fun s g => decide ((g.regs.rs 1).toNat ≤ s.timebase.toNat)) && wit (.tmwait 1) (sr 1 1) id (fun s g => decide (s.timebase.toNat < (g.regs.rs 1).toNat)) &&
     wit (.svc 5 1 3) id id (fun s g => !s.heldMode g.launch) &&
     wit .rti (fun g => { g with level := .s, core := 0 }) id (fun s g => decide (s.handlerOf g.part = some bootGroup)) &&
     wit .rti (fun g => { g with level := .s, core := 1 }) id (fun s g => decide (s.handlerOf g.part ≠ some bootGroup)) &&
     wit (.hcall 3) (fun g => { g with level := .s })) = true := by decide +kernel

/-! #### Claims, tensors and the array -/

def teamCap (base length : Nat) : Cap := ⟨capBits 0 (rR + rW + rA + rC + rS + rL) kTeam base length, true⟩
def claimOf (state route : Nat) (header : BitVec 512 := 0) : Claim :=
  { Claim.free with state := state, route := route, src := teamCap 0 1024, dst := teamCap 0 1024, header := header }
def claimed (state route : Nat) (header : BitVec 512 := 0) : State → State := onTeam (fun t => { t with claims := [(3, claimOf state route header)] })
def copyOn (core : Nat) (claim : Option Nat) : CopyOp := ⟨core, 0, bootLaunch, bootTeam, bootGroup, 9, claim, [], [], [], [], none⟩
def copying (es : List (Nat × CopyOp)) (s : State) : State := { s with copies := es }

theorem witness_ClaimRegisters :
    ([(30, 30), (30, 28)].all (fun e => [0, 15].all (fun d => wit (.bclaim d e.1 e.2) id id (fun s g => teamB s g (fun tm =>
        let a := g.regs.rc e.1.toNat
        let b := g.regs.rc e.2.toNat
        !s.heldMode g.launch && decide ((s.claim g.team d.toNat).state = 0 ∧ (s.holders g.part).length < 64) && a.tag && decide (a.kind = kTeam) && a.has 17 &&
        decide (a.base + a.length ≤ tm.tmBytes) && b.tag && b.has 18 &&
        (decide (b.kind = kTeam ∧ b.base + b.length ≤ tm.tmBytes) || decide (b.kind = kWbuf ∧ b.base + b.length ≤ tm.wbBytes)) &&
        decide (a.kind ∈ claimSrc ∧ b.kind ∈ claimDst) && [a, b].all (fun c => nearB c && (!decide (c.kind = kTeam) || decide (c.base + c.length ≤ (s.actor bootGroup g).tm)) &&
          (!decide (c.kind = kWbuf) || decide (c.base + c.length ≤ (s.actor bootGroup g).wb))) && (routeOf a.kind b.kind).isSome &&
        (match (claimWalk s (s.actor bootGroup g) (lowestLane 0xFF) a b none).1 with
          | .ok _ => true
          | _ => false))))) &&
     wit (.bclaim 3 30 30) id (claimed 1 0) (fun s g => decide ((s.claim g.team 3).state ≠ 0)) &&
     wit (.brelease 3) id (claimed 1 0) (fun s g => (s.team? g.team).isSome && decide (s.inflight g.team 3 = 0)) &&
     wit (.brelease 3) id (claimed 1 0 ∘ copying [(7, copyOn 1 (some 3))]) (fun s g => decide (s.inflight g.team 3 ≠ 0)) && wit (.bstat 5 3) id (claimed 1 0)) = true := by decide +kernel

/-- Row 0 of 32 bytes from the start of a window to the last place that fits; and one that is too short. -/
def flowRegs : Group → Group := sr 8 0 ∘ sr 9 992 ∘ sr 10 (32 + 2 ^ 32) ∘ sr 11 (32 + 32 * 2 ^ 32)
theorem flow_last : FlowInRange (flowRegs bootedGroup).regs (8 : F7).toNat 1024 1024 := by unfold FlowInRange; decide +kernel
theorem flow_short : ¬ FlowInRange bootedGroup.regs (8 : F7).toNat 1024 1024 := by unfold FlowInRange; decide +kernel
/-- A header of 2 contributors, this one with index 1, whose destination is the team's memory. -/
def header2 : BitVec 512 := BitVec.ofNat 512 (2 + 2 ^ 16 + 2 ^ 64 + (teamCap 0 1024).bits.toNat * 2 ^ 128)

theorem witness_FlowsAndRounds :
    ([[], [(7, copyOn 1 (some 3))]].all (fun es => wit (.bflow 5 3 8) flowRegs (claimed 1 0 ∘ copying es) (fun s g => !s.heldMode g.launch && decide ((s.claim g.team 3).state = 1 ∧
        (s.claim g.team 3).route ≠ 4 ∧ (s.claim g.team 3).src.length = 1024 ∧ (s.claim g.team 3).dst.length = 1024 ∧ s.accepted g.core < 2 ∧ g.regs = (flowRegs bootedGroup).regs) && s.engineRuns bootGroup g.core .copyEngine && s.posted.all (fun q => decide (q.group ≠ bootGroup)))) &&
     wit (.bflow 5 3 8) flowRegs (claimed 1 0 ∘ copying [(7, copyOn 1 (some 3)), (8, copyOn 1 (some 2))]) (fun s g => !s.heldMode g.launch && decide ((s.claim g.team 3).state = 1 ∧
        (s.claim g.team 3).route ≠ 4 ∧ (s.claim g.team 3).src.length = 1024 ∧ (s.claim g.team 3).dst.length = 1024 ∧ 2 ≤ s.accepted g.core)) &&
     wit (.bflow 5 3 8) flowRegs (claimed 1 0 ∘ onCtx (fun c => { c with state := .stopping, acks := [(1, .copyEngine)] })) (fun s g => !s.heldMode g.launch && decide ((s.claim g.team 3).state = 1 ∧
        (s.claim g.team 3).route ≠ 4 ∧ (s.claim g.team 3).src.length = 1024 ∧ (s.claim g.team 3).dst.length = 1024) && !s.engineRuns bootGroup g.core .copyEngine) &&
     wit (.bflow 5 3 8) id id (fun s g => decide ((s.claim g.team 3).state = 0)) && wit (.bflow 5 3 8) id (claimed 3 0) (fun s g => decide (3 ≤ (s.claim g.team 3).state)) &&
     wit (.bflow 5 3 8) id (claimed 1 4) (fun s g => decide ((s.claim g.team 3).state = 1 ∧ (s.claim g.team 3).route = 4)) &&
     wit (.bflow 5 3 8) id (claimed 1 0) (fun s g => decide ((s.claim g.team 3).state = 1 ∧ (s.claim g.team 3).route ≠ 4 ∧ (s.claim g.team 3).src.length = 1024 ∧
        (s.claim g.team 3).dst.length = 1024 ∧ g.regs = bootedGroup.regs)) &&
     wit (.coll 5 3 8) (sr 8 992 ∘ sr 9 992 ∘ sr 10 8) (claimed 1 4 header2) (fun s g => !s.heldMode g.launch && decide ((s.claim g.team 3).state = 1 ∧ (s.claim g.team 3).route = 4) &&
        (let h := (s.claim g.team 3).header
         let n := (g.regs.rs 10).toNat
         decide (1 ≤ n ∧ n % 8 = 0 ∧ n ≤ 262144 ∧ (g.regs.rs 8).toNat % 32 = 0 ∧ (g.regs.rs 9).toNat % 32 = 0 ∧ (g.regs.rs 8).toNat + 4 * n ≤ (s.claim g.team 3).src.length ∧
           (g.regs.rs 9).toNat + 4 * n ≤ (hDest h).length) && s.contribs.isEmpty &&
           (s.findRound (hNode h 0) (hCollid h) (Tab.get 0 s.roundNo (roundCounter h (s.domOf g) (s.claim g.team 3).dst.obj) + 1)).isNone)) &&
     wit (.bseal 5) && wit (.bwait 1) (fun g => sr 1 2 { g with batch := 2, sealed := [(1, [7]), (2, [8])] }) id (fun s g => decide ((g.regs.rs 1).toNat ≤ g.batch) &&
        g.sealed.all (fun e => e.2.all (fun op => !s.opRuns op))) &&
     wit (.bwait 1) (fun g => sr 1 2 { g with batch := 2, sealed := [(2, [7])] }) (copying [(7, copyOn 1 (some 3))]) (fun s g => decide ((g.regs.rs 1).toNat ≤ g.batch) && s.opRuns 7) &&
     wit (.bwait 1) (sr 1 1) id (fun _ g => decide (g.mode ≠ 1 ∧ g.batch < (g.regs.rs 1).toNat))) = true := by decide +kernel

/-- A tensor of rank 2: its windows, element type, dimensions and row stride. -/
def tensorOf (data summary : Cap) (el d0 d1 stride : Nat) : TEntry :=
  ⟨BitVec.ofNat 1024 (data.bits.toNat + summary.bits.toNat * 2 ^ 256 + 2 * 2 ^ 416 + el * 2 ^ 432 + d0 * 2 ^ 448 + d1 * 2 ^ 480 + 2 ^ 512 + 2 ^ 544 + stride * 2 ^ 576),
    data.tag, false, summary.tag⟩
def plainTensor : TEntry := tensorOf (teamCap 0 256) Cap.null 3 8 8 32
def codeTensor : TEntry := tensorOf ⟨capBits 1 (rR + rW) kMem 0 256, true⟩ Cap.null 3 8 8 32
def withTensors (es : List (Nat × TEntry)) : State → State := onCtx (fun c => { c with tids := es })
def tensorB (s : State) (g : Group) (a : Nat) (p : TEntry → Bool) : Bool := decide ((g.regs.rs a).toNat < 2 ^ 12) && (match s.tensor g.part (g.regs.rs a).toNat with
  | none => false
  | some e => p e)
def descriptorIn (tags : Tab Bool) (o : Nat) : State → State := onTeam (fun t => { t with tmem := putNat [] o 128 plainTensor.desc.toNat, ttags := tags })

theorem witness_TensorTable :
    ([([(56, true)], false), ([], true)].all (fun e => wit (.tset 1 2) (sr 1 4095 ∘ sr 2 896) (descriptorIn e.1 896) (fun s g => (s.context? g.part).isSome && quietB s g.team && teamB s g (fun tm =>
        decide ((g.regs.rs 1).toNat < 2 ^ 12 ∧ (g.regs.rs 2).toNat + 128 ≤ tm.tmBytes ∧ (g.regs.rs 2).toNat % 16 = 0 ∧
          (⟨BitVec.ofNat 1024 (ofBytes (bytesAt s.rawByte (.team g.team (g.regs.rs 2).toNat) 128)), s.tagAt (.team g.team (g.regs.rs 2).toNat),
            s.tagAt (.team g.team ((g.regs.rs 2).toNat + 16)), s.tagAt (.team g.team ((g.regs.rs 2).toNat + 32))⟩ : TEntry).bad = e.2)))) &&
     [0, 4095].all (fun t => wit (.tget 5 1 8) (sr 1 t) (withTensors [(0, plainTensor)]) (fun _ g => decide ((g.regs.rs 1).toNat < 2 ^ 12))) &&
     wit (.rprio 1 2) (sr 1 4095 ∘ sr 2 7) (withTensors [(4095, plainTensor)]) (fun s g => tensorB s g 1 (fun _ => decide ((g.regs.rs 2).toNat < 8))) &&
     wit (.rdemote 1) (sr 1 5) (withTensors [(5, codeTensor)]) (fun s g => tensorB s g 1 (s.movable g.part) && (s.part? g.part).isSome) &&
     [0xFF, 0, 1].all (fun v => wit (.rpromote 1 2) (sr 1 5 ∘ sr 2 v) (withTensors [(5, codeTensor)]) (fun s g => tensorB s g 1 (s.movable g.part) && partB s g.part (fun x =>
        decide (g.regs.rs 2 = 0xFF) || (decide ((g.regs.rs 2).toNat < 256) && Part.hasVault g.part x (g.regs.rs 2).toNat)))) &&
     wit (.rquery 6 1) (sr 1 5) (withTensors [(5, codeTensor)]) (fun s g => (s.part? g.part).isSome && tensorB s g 1 (fun e => decide (e.data.kind = kMem ∧ s.firstVault g.part e.data < 256))) &&
     [5, 4096].all (fun t => [Instr.rprio 1 2, .rdemote 1, .rpromote 1 2, .rquery 6 1, .tsum 6 1].all (fun i => wit i (sr 1 t) id (fun s g => decide (g.mode ≠ 1) &&
        (decide (2 ^ 12 ≤ (g.regs.rs 1).toNat) || (s.tensor g.part (g.regs.rs 1).toNat).isNone))))) = true := by decide +kernel

theorem gang_six : GangValue 0x0504030201000E := by
  have h : ∀ j : Nat, j < 6 → ∀ i : Nat, i < j →
      (0x0504030201000E : W64).toNat / 2 ^ (8 * i + 8) % 256 ≠ (0x0504030201000E : W64).toNat / 2 ^ (8 * j + 8) % 256 := by decide +kernel
  exact ⟨by decide, by decide, by decide, by decide, by decide, by decide, fun i (h1 : 6 ≤ i) h2 => absurd h1 (Nat.not_le.mpr h2), fun i j hij hj => h j hj i hij⟩
theorem gang_none : ¬ GangValue 0 := fun h => absurd h.1 (by decide)

def bandOf (rows : Nat) : State → State := onTeam (fun t => { t with accRows := rows, accBad := [(0, true)] })
def idleArrayB (s : State) : Bool := s.mats.isEmpty && s.latch.isEmpty
/-- Operands of 64 rows and 32 columns of BF16, of a gang of one group; a 65th row is no row of A. -/
def matrixRegs (row : Nat) : Group → Group := gr 2 1 ∘ sr 4 0 ∘ sr 5 (BitVec.ofNat 64 (7 + row * 2 ^ 12)) ∘ sr 6 8 ∘ sr 7 1
def matrixState : State → State := withTensors [(7, tensorOf (teamCap 0 4096) Cap.null 2 32 64 64), (8, tensorOf ⟨capBits 0 (rR + rW + rC) kWbuf 0 4096, true⟩ Cap.null 2 32 64 64)] ∘
  onTeam (fun t => { t with tmBytes := 8192, wbBytes := 65536, accRows := 64 })
/-- Four levels, one core, two groups in the team. -/
def pairState : State → State := onLaunch (fun l => { l with record := l.record + BitVec.ofNat 2304 (2 ^ 84 + 2 ^ 208 + 2 ^ 320) }) ∘ matrixState
def summedTensor : TEntry := tensorOf (teamCap 0 256) (teamCap 1016 8) 3 64 1 256

theorem witness_GangsAndAccumulators :
    (wit (.gset 3 1) (sr 1 0x0504030201000E) id (fun _ g => decide (g.regs.rs 1 = 0x0504030201000E)) && wit (.gset 3 1) id id (fun _ g => decide (g.regs.rs 1 = 0)) &&
     [Instr.accrd 5 1 2, .accadd 5 1 2].all (fun i => wit i (sr 1 15 ∘ sr 2 7) (bandOf 16) (fun s g => decide (g.mode ≠ 1) && idleArrayB s && teamB s g (fun tm =>
        decide ((g.regs.rs 1).toNat < tm.accRows ∧ (g.regs.rs 2).toNat < 8) && everyLane g (fun l => !Tab.get false tm.accBad (512 * (g.regs.rs 1).toNat + (64 * (g.regs.rs 2).toNat + l)))))) &&
     wit (.accclr 1 2) (sr 1 15 ∘ sr 2 1) (bandOf 16) (fun s g => idleArrayB s && teamB s g (fun tm =>
        decide (1 ≤ (g.regs.rs 2).toNat ∧ (g.regs.rs 1).toNat + (g.regs.rs 2).toNat ≤ tm.accRows))) &&
     [(16, 7), (15, 8)].all (fun e => wit (.accrd 5 1 2) (sr 1 e.1 ∘ sr 2 e.2) (bandOf 16) (fun s g => decide (g.mode ≠ 1) && idleArrayB s && teamB s g (fun tm =>
        decide (tm.accRows ≤ (g.regs.rs 1).toNat ∨ 8 ≤ (g.regs.rs 2).toNat)))) &&
     wit (.tsum 6 1) (sr 1 5) (withTensors [(5, summedTensor)]) (fun s g => !s.heldMode g.launch && decide (s.accepted g.core < 2) && s.engineRuns bootGroup g.core .copyEngine && tensorB s g 1 (fun e => teamB s g (fun tm =>
        e.utag && e.dtag && decide (e.comp = 0 ∧ e.data.length ≤ 2 ^ 24 ∧ e.data.kind = kTeam ∧ e.summary.kind = kTeam) && e.data.has 1 && e.summary.has 2 &&
        decide (e.data.base + e.data.length ≤ tm.tmBytes ∧ e.summary.base + e.summary.length ≤ tm.tmBytes) && e.fits e.data.length &&
        decide (8 * (e.dim 3 * e.dim 2 * e.dim 1 * (e.dim 0 / 64)) ≤ e.summary.length))))) = true ∧
    ([Instr.mmx 9 2 4, .mmxz 9 2 4].all (fun i =>
        let q (g : Group) := (List.range 4).map (fun k => g.regs.rs (4 + k))
        let both (s : State) (g : Group) (p : TEntry → TEntry → Bool) : Bool := match s.tensor g.part (spA (q g)), s.tensor g.part (spB (q g)) with
          | some ea, some eb => p ea eb
          | _, _ => false
        wit i (matrixRegs 0) id (fun s g => (s.tensor g.part (spA (q g))).isNone) &&
        wit i (gr 2 0 ∘ matrixRegs 0) matrixState (fun s g => both s g (fun ea eb => (mmxFault s g (g.regs.rg 2) (q g) ea eb).isSome)) &&
        [(0, 1, true), (1, 1, true), (0, 0x102, false)].all (fun e => wit i (gr 2 e.2.1 ∘ matrixRegs e.1) (if e.2.2 then matrixState else pairState) (fun s g => both s g (fun ea eb =>
          (mmxFault s g (g.regs.rg 2) (q g) ea eb).isNone && decide (s.holdsA g (g.regs.rg 2) = e.2.2) && s.unpub.isEmpty &&
          decide (mmxOutside s (s.actor bootGroup g) g (q g) ea eb (s.readOperand (s.actor bootGroup g) eb).1.snap = decide (e.1 = 1))))))) = true := by
  decide +kernel

/-- The window's last byte, every right; one byte more; a right more than it has; a value that is no rights byte; a copy without its tag. -/
theorem witness_CapabilityWords :
    (wit (.cderive 3 30 4) (sr 4 1023 ∘ sr 5 1 ∘ sr 6 (BitVec.ofNat 64 (rR + rW + rA + rC + rS + rL))) id (fun _ g => (g.regs.rc 30).tag && decide ((g.regs.rs 6).toNat < 256 ∧
        (g.regs.rs 4).toNat + (g.regs.rs 5).toNat ≤ (g.regs.rc 30).length ∧ (g.regs.rc 30).base + (g.regs.rc 30).length < 2 ^ 40 ∧ (g.regs.rs 6).setWidth 8 &&& ~~~(g.regs.rc 30).rights = 0)) &&
     wit (.cderive 3 30 4) (sr 4 1023 ∘ sr 5 2) id (fun _ g => decide (g.mode ≠ 1) && (g.regs.rc 30).tag && decide ((g.regs.rs 6).toNat < 256 ∧
        (g.regs.rc 30).length < (g.regs.rs 4).toNat + (g.regs.rs 5).toNat)) &&
     wit (.cderive 3 30 4) (sr 6 255) id (fun _ g => decide (g.mode ≠ 1) && (g.regs.rc 30).tag && decide ((g.regs.rs 6).toNat < 256 ∧ (g.regs.rs 6).setWidth 8 &&& ~~~(g.regs.rc 30).rights ≠ 0)) &&
     wit (.cderive 3 30 4) (sr 6 256) id (fun _ g => decide (g.mode ≠ 1) && (g.regs.rc 30).tag && decide (256 ≤ (g.regs.rs 6).toNat)) &&
     wit (.cderive 3 0 4) id id (fun _ g => decide (g.mode ≠ 1) && !(g.regs.rc 0).tag) &&
     [Instr.cmov 3 30, .cclear 30, .cbase 5 30, .clen 5 30, .crights 5 30, .ckind 5 30, .cvalid 5 30, .cvalid 5 0].all (fun i => wit i)) = true := by decide +kernel

/-! #### The bounds pass and the system words -/

def boundsRecord : State → State := onLaunch (fun l => { l with record := l.record ||| BitVec.ofNat 2304 (2 ^ 512 + 3 * 2 ^ 513) })
/-- Register `v(n)` holds an interval in every lane. -/
def ivr (n : Nat) (a : Iv) (g : Group) : Group :=
  { vr n a.lo g with shadow := (List.range 8).foldl (fun t l => Tab.put t (vkey n l) ⟨a.hi, a.tag, a.nan⟩) g.shadow }
def elementB (s : State) (g : Group) (a : F7) (p : TEntry → Bool) : Bool :=
  let x := (g.regs.rs a.toNat).toNat
  decide (x / 2 ^ 44 = 0) && (match s.tensor g.part (x % 2 ^ 12) with
    | none => false
    | some e => decide (e.comp = 0) && p e)
/-- The lanes name elements 0 to 7 of row 7 of tensor 5. -/
def elementRegs (g : Group) : Group := sr 1 5 ((List.range 8).foldl (fun g l => vl 2 l (BitVec.ofNat 32 l) g) (vr 3 7 g))
def elementTile (g : Group) : Group := inMode 2 onTile (sr 1 5 g)

theorem witness_BoundsWords :
    ([Instr.blo 5 1, .bhi 5 1, .bhull 5 1 2, .bwiden 5 1 2, .bsplit, .babandon].all (fun i => wit i) && [Instr.blo 5 1, .bhi 5 1, .bsplit, .babandon].all (fun i => wit i (inMode 1 onTile)) &&
     wit (.bmode 1 2) (sr 1 (2 ^ 48 - 4)) boundsRecord (fun s g => decide (g.mode = 0) && s.boundsRole g && decide ((g.regs.rs 1).toNat < 2 ^ 48 ∧ (g.regs.rs 1).toNat % 4 = 0 ∧
       (g.regs.rs 1).toNat % 32 ≠ 0) && g.lanes.all (fun x => decide (x.state ≠ .park))) &&
     wit (.bmode 1 2) (inMode 2 onTile) id (fun _ g => decide (g.mode ≠ 0)) && wit (.bmode 1 2) id id (fun s g => !s.boundsRole g) && wit (.bfill 1 2) id id (fun _ g => decide (g.mode = 0)) &&
     wit (.bfill 1 2) (inMode 1 (fun l => { tile0 with tile := l, fills := List.replicate 3 ⟨5, 0, 0, 0⟩ }) ∘ sr 1 5) (withTensors [(5, plainTensor)]) (fun s g => decide (g.mode = 1) && elementB s g 1 (fun e =>
       e.dtag && decide (e.data.kind = kTeam) && e.data.has 2 && (List.range 64).all (fun l => !bit 0xFF l || (decide (l < g.width) && (laneIv g 2 l).degen && (match (g.lane l).tile with
         | none => false
         | some k => decide (k.fills.length < 4) && e.holdsTile (s.vectorSr (issueCtx bootGroup g 4 0xFF (.bfill 1 2)) 4 l).toNat
             (s.vectorSr (issueCtx bootGroup g 4 0xFF (.bfill 1 2)) 5 l).toNat k 0 0))))) &&
     wit (.tld 4 1 2) elementRegs (withTensors [(5, plainTensor)]) (fun s g => decide (g.mode ≠ 1) && quietB s g.team && elementB s g 1 (fun e =>
       accessB (elemAccess s (s.actor bootGroup g) (lowestLane 0xFF) 1 .load e (laneElems g 0xFF 2 0 0)) s e.elBytes)) &&
     wit (.tst 4 1 2) elementRegs (withTensors [(5, plainTensor)]) (fun s g => decide (g.mode ≠ 1) && quietB s g.team && !s.heldMode g.launch && elementB s g 1 (fun e =>
       accessB (elemAccess s (s.actor bootGroup g) (lowestLane 0xFF) 2 .store e (laneElems g 0xFF 2 0 0)) s e.elBytes)) &&
     wit (.bfill 1 2) elementTile (withTensors [(5, plainTensor)]) (fun s g => decide (2 ≤ g.mode) && quietB s g.team && !s.heldMode g.launch && elementB s g 1 (fun e =>
       accessB (elemAccess s (s.actor bootGroup g) (lowestLane 0xFF) 2 .store e (s.tileElems (issueCtx bootGroup g 4 0xFF (.bfill 1 2)) 0 0)) s e.elBytes)) &&
     wit (.tst 4 1 2) (inMode 1 onTile ∘ elementRegs) (withTensors [(5, plainTensor)]) (fun s g => decide (g.mode = 1) && elementB s g 1 (fun _ => true)) &&
     wit (.tld 4 1 2) (inMode 1 onTile ∘ ivr 2 ⟨0, 7, .z, false⟩ ∘ elementRegs) (withTensors [(5, plainTensor)]) (fun s g => decide (g.mode = 1) && elementB s g 1 (fun e =>
       e.dtag && decide (e.data.kind = kTeam) && e.data.has 1 && !e.utag && everyLane g (fun l => !(laneIv g 2 l).degen)))) = true := by decide +kernel

theorem witness_IntegerIntervalsSound :
    ([Instr.vadd 5 1 2, .vsub 5 1 2, .vmul 5 1 2, .vmulhS 5 1 2, .vmulhZ 5 1 2, .vmad 5 1 2, .vminS 5 1 2, .vminZ 5 1 2, .vmaxS 5 1 2, .vmaxZ 5 1 2, .vaddsS 5 1 2,
      .vaddsZ 5 1 2, .vsubsS 5 1 2, .vsubsZ 5 1 2, .vdivS 5 1 2, .vdivZ 5 1 2, .vremS 5 1 2, .vremZ 5 1 2, .vand 5 1 2, .vor 5 1 2, .vxor 5 1 2, .vandn 5 1 2, .vsel 5 1 2,
      .vshl 5 1 2, .vshrZ 5 1 2, .vshrS 5 1 2, .vrotl 5 1 2, .vpopc 5 1, .vclz 5 1, .vbrev 5 1, .vbfxZ 5 1 2, .vcmpEq 5 1 2, .vcmpNe 5 1 2, .vcmpLtS 5 1 2, .vcmpLtZ 5 1 2,
      .vcmpLeS 5 1 2, .vcmpLeZ 5 1 2, .vaddi 5 1 0x3FF, .vmuli 5 1 0x200, .vcmpiEq 5 1 2, .vcmpiLtS 5 1 2, .vminiS 5 1 2, .vmaxiS 5 1 2, .vmov 5 1, .vbcast 5 1, .vmovi 5 0x40000,
      .vbfxS 5 1 2, .vbfi 5 1 2, .vandi 5 1 0x3FF, .vori 5 1 0x200, .vxori 5 1 1, .vshli 5 1 31, .vshriZ 5 1 31, .vshriS 5 1 0, .vcmpiLtZ 5 1 2, .vmovhi 1 0x7FFFF,
      .bhull 5 1 2, .bwiden 5 1 2].all (fun i => wit i (inMode 1 onTile ∘ ivr 1 ⟨0x80000000, 0x7FFFFFFF, .s, false⟩ ∘ ivr 2 ⟨1, 0xFFFFFFFF, .z, false⟩) id (fun _ g => decide (g.mode = 1) &&
        everyLane g (fun l => decide (laneIv g 1 l = ⟨0x80000000, 0x7FFFFFFF, .s, false⟩ ∧ laneIv g 2 l = ⟨1, 0xFFFFFFFF, .z, false⟩ ∧ 0 ≤ ((g.regs.rs 2).setWidth 32).toInt)))) &&
     [(0x3F800000 : W64), 0x7FC00000].all (fun x => wit (.bwiden 5 1 2) (sr 2 x ∘ inMode 1 onTile ∘ ivr 1 ⟨0xFF800000, 0x3F800000, .f, false⟩) id (fun _ g => decide (g.mode = 1) &&
       everyLane g (fun l => decide (laneIv g 1 l = ⟨0xFF800000, 0x3F800000, .f, false⟩ ∧ (finite ((g.regs.rs 2).setWidth 32) ∨ isNan ((g.regs.rs 2).setWidth 32))))))) = true ∧
    (Legit ⟨0xFF800000, 0x3F800000, .f, false⟩ ∧ ¬ isNan 0xFF800000) ∧
    (Legit ⟨0x80000000, 0x7FFFFFFF, .s, false⟩ ∧ Stands ⟨0x80000000, 0x7FFFFFFF, .s, false⟩ 0x80000000) ∧ (Legit ⟨1, 0xFFFFFFFF, .z, false⟩ ∧ Stands ⟨1, 0xFFFFFFFF, .z, false⟩ 0xFFFFFFFF) :=
  ⟨by decide +kernel, ⟨Or.inr (Or.inl (by decide)), by decide⟩, ⟨Or.inr (by decide), by simp only [Stands]; decide⟩, ⟨Or.inr (by decide), by simp only [Stands]; decide⟩⟩

theorem witness_FloatIntervalsSound :
    ([Instr.fadd 5 1 2, .fsub 5 1 2, .fmul 5 1 2, .ffma 5 1 2, .fdiv 5 1 2, .fsqrt 5 1, .frcp 5 1, .fscale 5 1 2, .fmin 5 1 2, .fmax 5 1 2, .fabs 5 1, .fneg 5 1, .ffloor 5 1, .fceil 5 1,
      .ftrunc 5 1, .frint 5 1, .fcmpEq 5 1 2, .fcmpLt 5 1 2, .fcmpLe 5 1 2, .fcmpUn 5 1 2, .cvtFS 5 1, .cvtFZ 5 1, .cvtSF 5 1, .cvtZF 5 1, .fclass 5 1, .faddB2 5 1 2, .fmulB2 5 1 2,
      .ffmaB2 5 1 2, .faddH2 5 1 2, .fmulH2 5 1 2, .ffmaH2 5 1 2, .fmaxB2 5 1 2, .fminB2 5 1 2, .cvtB2F 5 1 2, .cvtH2F 5 1 2, .cvtFB2 5 1 0, .cvtFB2 5 1 1, .cvtFH2 5 1 0, .cvtFH2 5 1 1,
      .vunpk4 5 1 3, .vunpk4 5 1 15, .vpack4 5 1 0, .vpack4 5 1 8, .cvtNF 5 1 2, .cvtFN 5 1 2].all (fun i =>
        wit i (sr 2 0xA301 ∘ inMode 1 onTile ∘ ivr 1 ⟨0xBF800000, 0x3F800000, .f, true⟩) id (fun _ g => decide (g.mode = 1) && (narrowOf ((g.regs.rs 2).setWidth 16)).valid &&
          everyLane g (fun l => decide (laneIv g 1 l = ⟨0xBF800000, 0x3F800000, .f, true⟩))))) = true ∧
    (Legit ⟨0xBF800000, 0x3F800000, .f, true⟩ ∧ Stands ⟨0xBF800000, 0x3F800000, .f, true⟩ 0x80000000 ∧ Stands ⟨0xBF800000, 0x3F800000, .f, true⟩ 0x7FC00000) ∧
    (Legit ⟨0x7FC00000, 0x7FC00000, .f, true⟩ ∧ Stands ⟨0x7FC00000, 0x7FC00000, .f, true⟩ 0x7F800001) :=
  ⟨by decide +kernel, ⟨Or.inr (Or.inl (by decide)), by simp only [Stands]; decide, by simp only [Stands]; decide⟩,
    ⟨Or.inr (Or.inr (by decide)), by simp only [Stands]; decide⟩⟩

def atLevel (l : Level) (g : Group) : Group := { g with level := l }

theorem witness_SystemWords :
    (wit (.mark 7) id id (fun s g => decide (g.mode ≠ 1 ∧ g.level = .u) && ctxB s g.part (fun c => decide (c.state = .running))) &&
     wit (.mark 0) (inMode 1 onTile) id (fun _ g => decide (g.mode = 1)) && wit (.mark 0) (atLevel .s) id (fun _ g => decide (g.level ≠ .u)) &&
     [0, 5, 8, 15, 16, 23, 24, 31].all (fun n => wit (.mfsr 5 n) (atLevel .s) id (fun s g => (s.context? g.part).isSome)) &&
     wit (.mfsr 5 32) (atLevel .h) id (fun s _ => partB s 0 (fun x => decide (x.frames.length < 2 ^ 32))) &&
     [6, 7, 48, 63].all (fun n => wit (.mfsr 5 n) (atLevel .h)) &&
     [0, 5, 8, 31].all (fun n => wit (.mtsr n 4) (atLevel .h ∘ sr 4 1) id (fun s g => ctxB s g.part (fun c => decide (c.state = .running)) && decide (g.regs.rs 4 &&& ~~~(sysMask n.toNat) = 0))) &&
     [6, 7, 32, 63].all (fun n => wit (.mtsr n 4) (atLevel .h)) && wit (.mtsr 0 4) (atLevel .h ∘ sr 4 2) id (fun _ g => decide (g.regs.rs 4 &&& ~~~(sysMask 0) ≠ 0)) && wit .halt (atLevel .h) &&
     wit (.frpush 4) (atLevel .h ∘ sr 4 0x50000) id (fun s g => partB s ((g.regs.rs 4).toNat % 16) (fun x => !x.resetting) && decide ((g.regs.rs 4).toNat / 16 % 256 = 0 ∧
       (g.regs.rs 4).toNat / 2 ^ 52 = 0) && Config.isDevice ((g.regs.rs 4).toNat / 4096 * 4096) && s.parts.all (fun e => decide ((g.regs.rs 4).toNat / 4096 * 4096 ∉ e.2.frames))) &&
     wit (.frpush 4) (atLevel .h ∘ sr 4 0x50000) (onPart (fun x => { x with frames := [0x50000] })) (fun s g =>
       s.parts.any (fun e => decide ((g.regs.rs 4).toNat / 4096 * 4096 % 2 ^ 52 ∈ e.2.frames)))) = true := by decide +kernel

def unmanagedB (s : State) (p : Nat) : Bool := !s.opBusy p && !s.hasOp (.group bootGroup)
def objectB (s : State) (x : W64) (p : ObjEntry → Bool) : Bool := match s.objEntry (s.tbOf (opPart x)) (opObj x) with
  | .at e => p e
  | _ => false
/-- The 64 KiB from the code's start on, written under key slot 0. -/
def stamped : Tab Sector := (List.range 2048).map (fun i => (bootCode / 32 + i, ({ Sector.clean with slot := some (0, 1) } : Sector)))
theorem Tab.get_const {α : Type} (d x : α) (n : Nat) : ∀ t : Tab α, (∀ e ∈ t, e.2 = x) → (∃ e ∈ t, e.1 = n) → Tab.get d t n = x
  | [], _, h => by obtain ⟨e, he, _⟩ := h; cases he
  | (k, y) :: t, hx, h => by
    by_cases hk : k = n
    · subst hk
      simpa [Tab.get, Tab.find] using hx (k, y) (by simp)
    · have h' : ∃ e ∈ t, e.1 = n := by
        obtain ⟨e, he, hn⟩ := h
        rcases List.mem_cons.mp he with rfl | he
        · exact absurd hn hk
        · exact ⟨e, he, hn⟩
      have ih := Tab.get_const d x n t (fun e he => hx e (List.mem_cons_of_mem _ he)) h'
      simpa [Tab.get, Tab.find, hk] using ih
theorem stamped_readable {s : State} (hs : s.sectors = stamped) (hk : (s.keySlot 0).gen = 1) (i : Nat) (hi : i < 2 ^ 16) : s.readable 0 (.dev (bootCode + i)) = true := by
  have h : Tab.get Sector.clean stamped ((bootCode + i) / 32) = { Sector.clean with slot := some (0, 1) } := by
    refine Tab.get_const _ _ _ _ (fun e he => ?_) ?_
    · obtain ⟨j, _, rfl⟩ := List.mem_map.mp he
      rfl
    · refine ⟨_, List.mem_map.mpr ⟨i / 32, List.mem_range.mpr (by omega), rfl⟩, ?_⟩
      simp only [bootCode]
      omega
  simp [State.readable, State.sector, hs, h, hk]
def swapping (present : Bool) (s : State) : State := if present then { s with sectors := stamped } else { s with mem := putNat s.mem bootList 8 0 }
theorem witness_swapReadable (i : Nat) (hi : i < 2 ^ 16) :
    (issuing (.otswap 1 2) (atLevel .h ∘ sr 1 1 ∘ sr 2 (2 ^ 40)) (swapping true)).readable 0 (.dev (bootCode + i)) = true :=
  stamped_readable (by simp [issuing, swapping]) (by decide +kernel) i hi

def contextIn (st : CtxState) (s : State) : State := onCtx (fun c => { c with state := st }) { s with launches := [] }
/-- No copy of a page that holds a named translation entry misses its frames. -/
def pagesOpen (s : State) (p : Nat) (e : ObjEntry) (x : W64) : Bool :=
  (s.snapShort ((s.pageRefs (s.tbOf p) e (opOff x) (opCount x)).flatMap (fun r => (List.range 8).map (fun i => Loc.dev (r.2.entry + i))))).isNone

theorem witness_ManagementWords :
    ([false, true].all (fun present => [Instr.otinv 1 2, .otswap 1 2].all (fun i => wit i (atLevel .h ∘ sr 1 1 ∘ sr 2 (2 ^ 40)) (swapping present)
       (fun s g => unmanagedB s (opPart (g.regs.rs 1)) && decide ((g.regs.rs 1).toNat / 2 ^ 36 = 0) && (s.part? (opPart (g.regs.rs 1))).isSome && s.copies.isEmpty && s.contribs.isEmpty && s.unpub.isEmpty &&
        objectB s (g.regs.rs 1) (fun e => pagesOpen s (opPart (g.regs.rs 1)) e (g.regs.rs 2) && !e.rangeBad (opOff (g.regs.rs 2)) (opCount (g.regs.rs 2)) && decide ((g.regs.rs 3).toNat % e.pageBytes = 0 ∧
          (g.regs.rs 3).toNat + opCount (g.regs.rs 2) * e.pageBytes ≤ 2 ^ 52) &&
          (match s.pageRefs (s.tbOf (opPart (g.regs.rs 1))) e (opOff (g.regs.rs 2)) (opCount (g.regs.rs 2)) with
            | [(0, r)] => if present then decide (r.frames = [(0, bootCode)]) && r.bits.getLsbD 0 && decide (e.place ≠ plHost ∧ e.keyslot = 0) else !r.bits.getLsbD 0
            | _ => false) && s.mem.wf && s.hostMem.wf && decide (Tab.wf false s.mtags = true ∧ (g.regs.rs 3).toNat + 2 ^ 16 ≤ (s.tbOf (opPart (g.regs.rs 1))).s2Base))))) &&
     [0x1000000000, 0x100000000].all (fun (x : W64) => wit (.otinv 1 2) (atLevel .h ∘ sr 1 x) id (fun s g => !s.hasOp (.group bootGroup) &&
       (decide ((g.regs.rs 1).toNat / 2 ^ 36 ≠ 0) || (s.part? (opPart (g.regs.rs 1))).isNone))) &&
     [0, 63].all (fun (k : W64) => wit (.keyrev 1) (atLevel .h ∘ sr 1 k) id (fun s g => decide ((g.regs.rs 1).toNat < 64) && unmanagedB s (s.keyPart (g.regs.rs 1).toNat) && s.copies.isEmpty && s.contribs.isEmpty)) &&
     wit (.keyrev 1) (atLevel .h ∘ sr 1 64) id (fun _ g => decide (64 ≤ (g.regs.rs 1).toNat)) &&
     [CtxState.running, .stopped].all (fun st => wit (.ctxstop 1) (atLevel .h) (contextIn st) (fun s g => decide ((g.regs.rs 1).toNat < 16) && unmanagedB s (g.regs.rs 1).toNat &&
       (s.part? (g.regs.rs 1).toNat).isSome && ctxB s (g.regs.rs 1).toNat (fun c => decide (c.state = st)))) &&
     wit (.ctxkill 1) (atLevel .h) (contextIn .stopped) (fun s g => decide ((g.regs.rs 1).toNat < 16) && unmanagedB s (g.regs.rs 1).toNat && (s.part? (g.regs.rs 1).toNat).isSome &&
       s.copies.isEmpty && s.contribs.isEmpty && s.launches.isEmpty && ctxB s (g.regs.rs 1).toNat (fun c => c.ready.isEmpty && c.streams.all (fun e => e.2.due.isEmpty))) &&
     [CtxState.stopped, .halted].all (fun st => wit (.ctxresume 1) (atLevel .h) (contextIn st) (fun s g => decide ((g.regs.rs 1).toNat < 16 ∧ g.level = .h) && unmanagedB s (g.regs.rs 1).toNat &&
       (s.part? (g.regs.rs 1).toNat).isSome && ctxB s (g.regs.rs 1).toNat (fun c => decide (c.state = st)) && s.secure (g.regs.rs 1).toNat && decide (s.saved = []) && s.launches.isEmpty &&
       g.fault.isNone && decide (s.groups = [(bootGroup, g)] ∧ (Tab.get [] s.seeds (g.regs.rs 1).toNat = [] ∨ bootGroup < s.nextUid)))) &&
     wit (.ctxresume 1) (atLevel .s ∘ sr 1 1) (fun s => { s with parts := s.parts ++ [(1, Part.base)] }) (fun _ g => decide (g.level = .s ∧ (g.regs.rs 1).toNat % 16 ≠ g.part)) &&
     wit (.ctxresume 1) (atLevel .s ∘ sr 1 0xFF1) id (fun s g => decide (g.level = .s ∧ (g.regs.rs 1).toNat % 16 ≠ g.part) && (s.part? 1).isNone)) = true := by decide +kernel

/-! #### Steps without an encoding -/

def here (f : Group → Group) (h : State → State) (c : State → Group → Bool) : Bool :=
  let s := h { booted with groups := [(bootGroup, f bootedGroup)], agenda := [] }
  match s.group? bootGroup with
  | none => false
  | some g => c s g
def liveB (s : State) (g : Group) : Bool := decide (g.level ≠ .u) || ctxB s g.part (fun c => decide (c.state = .running))
def startableB (s : State) (g : Group) : Bool := liveB s g && g.fault.isNone && !g.halted && g.dispatch.isNone
/-- Lanes 0 to n - 1 parked; the others are not. -/
def parkFirst (n : Nat) (p : Park) (g : Group) : Group := { g with lanes := (List.range 8).map (fun l => if l < n then { Lane.start 4 0 with state := .park, park := p, since := 5 } else Lane.start 4 0) }
/-- The watchdog is 1000, and as many aclk have passed. -/
def watched : State → State := onTeam (fun t => { t with watch := 1000 }) ∘ onLaunch (fun l => { l with record := l.record ||| BitVec.ofNat 2304 (1000 * 2 ^ 96) })
def watchedB (s : State) (g : Group) (first : Nat) : Bool := ctxB s g.part (fun c => decide (c.state = .running)) && g.fault.isNone &&
  launchB s g (fun l => decide (l.watchdog ≠ 0 ∧ first + l.watchdog ≤ s.watchOf g))
def waiterOf (u : Nat) (gang : W64) (k : W64) : Waiter := ⟨0, gang, u, false, [0, 7, 8, k], plainTensor, plainTensor, .empty, .empty, .empty, .empty, 9, 0xFF, 4, 0⟩

theorem witness_WaitsEnd :
    (here (fun g => { g with pend := [⟨.v 5, .result, 4⟩] }) id (fun _ g => decide (g.pend[0]? = some ⟨.v 5, .result, 4⟩)) &&
     here (fun g => { g with log := [⟨.vldW 5 1 30 0, 4, 0xFF, Regs.zero, 0, []⟩], retry := true }) id (fun s g => !g.log.isEmpty && g.retry && s.mayRun g && decide (s.pf.current ≤ 1) && g.fault.isNone &&
       g.host.isNone && !g.halted) &&
     here (parkFirst 4 (.tmwait 0)) id (fun s g => liveB s g && decide ((g.lane 3).park = .tmwait 0 ∧ (0 : W64).toNat ≤ s.timebase.toNat)) &&
     here (parkFirst 4 (.tmwait 1)) id (fun s g => liveB s g && decide ((g.lane 3).park = .tmwait 1 ∧ s.timebase.toNat < (1 : W64).toNat)) &&
     here (parkFirst 4 (.svc 5 3 [])) id (fun s g => liveB s g && decide (g.lanes.length = g.width ∧ g.width ≤ 64) && (List.range g.width).all (fun l =>
       if bit 0x0F l then decide ((g.lane l).state = .park ∧ (g.lane l).park = .svc 5 3 [] ∧ (g.lane l).since = 5) else decide ((g.lane l).state ≠ .park))) &&
     here (parkFirst 4 (.hcall 3 [])) id (fun _ g => decide (g.lanes.length = g.width ∧ g.width ≤ 64) && (List.range g.width).all (fun l =>
       if bit 0x0F l then decide ((g.lane l).state = .park ∧ (g.lane l).park = .hcall 3 [] ∧ (g.lane l).since = 5) else decide ((g.lane l).state ≠ .park))) &&
     here (allLanes (fun x => { x with state := .waitSet })) id (fun s g => g.log.isEmpty && decide (g.width ≤ 64 ∧ (g.lane 0).state = .waitSet) &&
       (List.range g.width).all (fun l => decide ((g.lane l).state = .waitSet)) && g.fault.isNone && liveB s g) &&
     here id (onTeam (fun t => { t with bars := [(15, ⟨false, [bootGroup], [0]⟩)] }) ∘ watched) (fun s g => teamB s g (fun tm =>
       decide ((Tab.get Barrier.zero tm.bars 15).arrived = [bootGroup] ∧ (Tab.get Barrier.zero tm.bars 15).first = 0) && watchedB s g 0)) &&
     here id (onLaunch (fun l => { l with lvlBars := [(levelKey 2 0, ⟨false, [bootGroup], [0]⟩)] }) ∘ watched) (fun s g => launchB s g (fun ln =>
       decide ((Tab.get Barrier.zero ln.lvlBars (levelKey 2 0)).arrived = [bootGroup] ∧ (Tab.get Barrier.zero ln.lvlBars (levelKey 2 0)).first = 0) && watchedB s g 0)) &&
     here (allLanes (fun x => { x with state := .park, park := .send 3 })) watched (fun s g => watchedB s g (g.lane 0).since && decide ((g.lane 0).state = .park ∧ (g.lane 0).park = .send 3)) &&
     here id (fun s => { s with latch := [waiterOf bootGroup 1 1] }) (fun s g => (s.spanOf bootGroup).isSome && g.fault.isNone) &&
     here id (fun s => { s with latch := [waiterOf bootGroup 0x10002 1] }) (fun s g => g.fault.isNone && (match s.spanOf bootGroup with
       | none => false
       | some (l, b) => (gangMembers 0x10002).any (fun m => (s.memberGroup l b m).isNone)))) = true := by decide +kernel

def tileOf (outcome done : Nat) (fills : List FillRec) : Tile := ⟨0, 0, 8, 8, 0, outcome, 0, 0, fills, done⟩
def passOf (queue : List Tile) (next : Nat) (batch : List Nat) : State → State :=
  onTeam (fun t => { t with pass := some ⟨8, 0, 0, queue, next, batch, [bootGroup], 0⟩ }) ∘ boundsRecord
def passHereB (s : State) (g : Group) (p : Pass → Bool) : Bool := (s.launch? g.launch).isSome && (match s.pass? g.team with
  | none => false
  | some x => decide (bootGroup ∈ x.groups) && p x)

theorem witness_BoundsSequencer :
    (here (fun g => { allLanes (fun x => { x with state := .park, park := .bmode }) g with bmode := some (8, 0) }) boundsRecord (fun s g => (s.pass? g.team).isNone && (s.team? g.team).isSome &&
       startableB s g && g.ready99 && decide (s.roleGroups g.team = [(bootGroup, g)]) && g.bmode.isSome && launchB s g (fun l => decide (l.totCap = 0))) &&
     here id (passOf [tileOf 1 0 [], tileOf 0 0 []] 1 []) (fun s g => startableB s g && passHereB s g (fun p => p.batch.isEmpty && decide (p.next < p.queue.length))) &&
     here (fun g => { inMode 1 onTile g with dispatch := some ⟨1, 0, 0, 4096, 0, g.regs, [], 0, g.lanes⟩ }) id (fun _ g => match g.dispatch with
       | none => false
       | some d => decide (d.mode = 1 ∧ 4096 ≤ d.issues)) &&
     [2, 4, 5].all (fun o => here id (passOf [tileOf o 8 [], tileOf o 7 []] 2 []) (fun s g => startableB s g && passHereB s g (fun p => match p.queue with
       | [y, x] => decide (x.outcome = o ∧ x.done < x.w / 8 * (x.h / (g.width / 8)) ∧ y.w / 8 * (y.h / (g.width / 8)) ≤ y.done)
       | _ => false))) &&
     [2, 3].all (fun k => here (fun g => allLanes (fun x => { x with state := .exit }) (inMode k onTile g)) (passOf [] 0 []) (fun s g => passHereB s g (fun _ => decide (g.live = 0) && g.log.isEmpty && liveB s g &&
       decide (g.mode = k)))) &&
     [0, 1].all (fun n => here id (withTensors [(5, plainTensor)] ∘ passOf [tileOf 0 n [⟨5, 0, 0, 7⟩, ⟨5, 0, 0, 8⟩]] 1 [0]) (fun s g => startableB s g && passHereB s g (fun p => decide (p.batch = [0]) &&
       (match p.queue[0]? with
         | none => false
         | some x => (match x.fills[x.done]? with
           | none => false
           | some f => decide (g.mode ≠ 1) && decide (x.done + 1 < x.fills.length ∨ x.done + 1 = x.fills.length) && (match (performFill s (s.actor bootGroup g) (x.region p f) f).1 with
             | .ok _ => true
             | _ => false))))))) = true := by decide +kernel

/-- 32 places of the team's memory from an offset on. -/
def teamPlaces (o n : Nat) : List Loc := (List.range n).map (fun i => .team bootTeam (o + i))
def tokenB (g : Group) (op : Nat) : Bool := g.pend.any (fun p => decide (p.why = .op op))
def pending (op : Nat) (g : Group) : Group := { g with pend := [⟨.s 9, .op op, 4⟩] }
def flow7 : CopyOp := { copyOn 1 (some 3) with srcs := teamPlaces 0 32, snap := List.replicate 32 7, dsts := (teamPlaces 992 32).map (fun l => (l, 0)) }
def sum7 : CopyOp := { copyOn 1 none with srcs := teamPlaces 0 256, snap := List.replicate 256 0, dsts := (teamPlaces 1016 8).map (fun l => (l, 0)), entry := some summedTensor }
def contrib1 : Contrib := ⟨7, 8, 0, bootLaunch, 1, bootGroup, bootTeam, 3, 9, 1, teamPlaces 0 32, List.replicate 32 1, [], (teamPlaces 992 32).map (fun l => (l, 0)), true⟩
def collecting (begun : Bool) (time : W64) (start : W64) (s : State) : State :=
  { s with rounds := [(8, ⟨0, 0, 1, header2, start, begun, false⟩)], contribs := [contrib1], timebase := time }
def values2 (i : Nat) : List W32 := if i = 1 then wordsIn 8 (List.replicate 32 1) else List.replicate 8 5
/-- The flow's writes stand ahead of it; its connection has its place for them. -/
def ahead7 (s : State) : State := { s with unpub := flow7.dsts.map (fun d => ⟨d.1, [7], 7, 0, 1, bootTeam, bootGroup, false, [], false, none, none, 0, none⟩) }
def connected7 (s : State) : State := { s with posted := [⟨0, none, bootGroup, bootTeam, 1, 7, true, false, []⟩] }
def hostFlow7 : CopyOp := { flow7 with dsts := (List.range 32).map (fun i => (.host (0x100 + i), 0)) }
def flowB (s : State) (g : Group) : Bool := match Tab.find s.copies 7 with
  | none => false
  | some c => c.claim.isSome && s.copies.all (fun e => decide (7 ≤ e.1)) && writableB s c.dsts && c.seen.isEmpty && decide (c.snap.length = c.dsts.length ∧ c.group = bootGroup) &&
    c.dsts.all (fun d => !c.srcs.contains d.1) && tokenB g 7
def roundB (s : State) (g : Group) (p : Round → Contrib → Bool) : Bool := match Tab.find s.rounds 8, s.contribs with
  | some r, [c] => !r.ended && decide (c.round = 8 ∧ c.group = bootGroup) && tokenB g c.op && p r c
  | _, _ => false

theorem witness_EngineSteps :
    (here (pending 7) (copying [(7, flow7)] ∘ ahead7) (fun s g => flowB s g && s.unpub.all (fun e => decide (e.op = 7 ∧ e.ended = false ∧ e.pubs = [])) && s.posted.isEmpty) &&
     here (pending 7) (copying [(7, hostFlow7)] ∘ connected7) (fun s g => flowB s g && (match s.posted with
       | [q] => decide (q.op = 7)
       | _ => false)) &&
     here (pending 7) (copying [(7, sum7)]) (fun s g => match Tab.find s.copies 7 with
       | none => false
       | some c => writableB s c.dsts && c.seen.isEmpty && decide (c.group = bootGroup ∧ s.unpub = []) && tokenB g 7 && (match c.entry with
         | none => false
         | some e => decide (c.dsts.length = e.planeBytes))) &&
     [([(7, 5)], false, none), ([], false, none), ([], true, some 5), ([], true, none)].all (fun ps => here id (fun s => { s with unpub := [{ madeWrite (.host 8) 1 with pubs := ps.1, conn := ps.2.1, shown := ps.2.2 }] })
       (fun s g => match s.unpubAt (.host 8) with
         | [e] => s.readable 0 (.host 8) && decide (e.dead = none ∧ e.met = none ∧ e.last = 0 ∧ e.bytes = [1]) &&
             decide (e.found (s.actor bootGroup g).obs = if ps.1 = [] ∧ ps.2.2 = none then none else some 5)
         | _ => false)) &&
     here id (collecting false 0 0) (fun s _ => match Tab.find s.rounds 8 with
       | none => false
       | some r => !r.ended && decide (r.start.toNat ≤ s.timebase.toNat)) &&
     here id (collecting false 0 1) (fun s _ => match Tab.find s.rounds 8 with
       | none => false
       | some r => decide (s.timebase.toNat < r.start.toNat)) &&
     here (pending 7) (collecting true 0 0) (fun s g => roundB s g (fun r c => r.begun && c.sent && decide (c.index < hNcontrib r.header ∧ 1 + 1 = hNcontrib r.header) &&
       (match s.team? c.team with
         | none => true
         | some x => !x.stopped) &&
       decide ([(0, values2 0)].map (·.1)).Nodup && [(0, values2 0)].all (fun e => decide (e.2 = values2 e.1 ∧ e.1 ≠ c.index ∧ e.1 < hNcontrib r.header)) &&
       decide (values2 c.index = wordsIn 8 c.snap ∧ c.snap.length = 4 * 8 ∧ c.dsts.length = 4 * 8) &&
       (List.range (hNcontrib r.header)).all (fun i => decide ((values2 i).length = 8)) && c.seen.isEmpty && writableB s c.dsts && s.unpub.isEmpty)) &&
     [1, 2].all (fun i => here (pending 7) (collecting true 0 0) (fun s g => roundB s g (fun r c => [(i, values2 0)].any (fun e => decide (e.1 = c.index ∨ hNcontrib r.header ≤ e.1))))) &&
     here (pending 7) (collecting true 1 0) (fun s g => roundB s g (fun r _ => r.begun && decide (r.start.toNat + hTimeout r.header ≤ s.timebase.toNat ∧ 1 < hNcontrib r.header)))) = true := by
  decide +kernel

def matTensor (kind : Nat) : TEntry := tensorOf ⟨capBits 0 (rR + rW + rC) kind 0 4096, true⟩ Cap.null 2 32 64 64
def latched (ws : List Waiter) : State → State := fun s => { s with latch := ws }
def queued (spec : List W64) (s : State) : State :=
  { s with mats := [(7, ⟨1, 0, bootLaunch, bootGroup, bootTeam, true, spec, matTensor kTeam, matTensor kWbuf, .empty, .empty, .empty, .empty, 0, 9, 0xFF, 4, []⟩)] }

theorem witness_MatrixOperations :
    (here id (latched [waiterOf bootGroup 1 1]) (fun s g => decide (gangMembers 1 = [0]) && liveB s g && (match s.spanOf bootGroup with
       | none => false
       | some (l, b) => decide (s.memberGroup l b 0 = some (bootGroup, g)))) &&
     here id (latched [waiterOf bootGroup 0x10002 1, waiterOf 4 0x10002 2] ∘ withGroup 4 (fun g => { g with gid := 1 })) (fun s g => liveB s g && (match s.completeGang 0 0x10002 with
       | none => false
       | some ws => ws.all (fun w => (s.group? w.group).isSome) && !gangAgrees 0x10002 ws)) &&
     here id (queued [0, 0, 0, 1]) (fun s g => liveB s g && (s.team? bootTeam).isSome && (match Tab.find s.mats 7 with
       | none => false
       | some m => (s.matUpset m).isNone && m.aData.seen.isEmpty && m.aScale.seen.isEmpty && m.bData.seen.isEmpty && m.bScale.seen.isEmpty && m.spoil.isEmpty && decide (spCol0 m.spec + spN m.spec ≤ 512))) &&
     here id (fun s => { queued [0, 0, 0, 1] s with upset := [(1, 64)] }) (fun s g => liveB s g && g.fault.isNone && (s.team? bootTeam).isSome && (match Tab.find s.mats 7 with
       | none => false
       | some m => decide (m.group = bootGroup ∧ s.upset = [(m.core, 64)]) && s.mats.all (fun e => decide (7 ≤ e.1))))) = true := by
  decide +kernel

/-- The partition is reached; it is cut off; its front ends are idle; a stream of its running context. -/
theorem witness_RegisterWrites :
    (here id id (fun s _ => s.pf.ready && partB s 0 (fun x => !x.cut) && !s.anyEnabled 0 && decide ((0x00010001 : W64).toNat % 2 ^ 16 = Config.version ∧
       (0x00010001 : W64).toNat / 2 ^ 16 % 2 ^ 16 = Config.version) && (s.stream .mgmt).isSome && (s.stream (.user 0 31)).isSome && ctxB s 0 (fun c => decide (c.state = .running))) &&
     here id (onCtx (fun c => { c with state := .stopping })) (fun s _ => s.pf.ready && partB s 0 (fun x => !x.cut) && ctxB s 0 (fun c => decide (c.state = .stopping)) && (s.stream (.user 0 0)).isSome) &&
     here id (onPart (fun x => { x with cut := true })) (fun s _ => partB s 0 (·.cut)) &&
     here id (onPart (fun x => { x with ctx := none })) (fun s _ => (s.context? 0).isNone && partB s 0 (fun x => !x.cut)) &&
     here id id (fun s _ => s.pf.ready && !s.pf.mgmt.enable && decide ((0x00010000 : W64).toNat / 2 ^ 16 % 2 ^ 16 = Config.version) && decide ((0x2C : Nat) % 4 = 0) &&
       (s.regRead .pf (0x2C / 8 * 8) .b8).isSome)) = true := by decide +kernel

/-! #### Streams, the management unit and the outside -/

/-- The object's last sector, written under its slot. -/
def lastSector : Tab Sector := [(bootCode / 32 + 2047, { Sector.clean with slot := some (0, 1) })]
/-- Object 1 is plain memory with a PIN, or code with one; a packet in the ring of stream 0 of the partition, or of the management stream. -/
def plainObject (s : State) : State :=
  { s with mem := putNat (putNat s.mem (bootTable + 32) 8 ((bootEntry - 8 + 2) % 2 ^ 64)) bootList 8 (1 + bootCode), sectors := lastSector }
def pinnedCode (s : State) : State := { s with mem := putNat s.mem (bootTable + 32) 8 ((bootEntry + 2) % 2 ^ 64) }
def words (a : Nat) : List W64 → Memory → Memory
  | [], m => m
  | w :: ws, m => words (a + 8) ws (putNat m a 8 w.toNat)
def headerWord (type len : Nat) : W64 := BitVec.ofNat 64 (type + 2 ^ 16 + len * 2 ^ 32 + 7 * 2 ^ 48)
def streamOf (n : Nat) : Stream := { Stream.zero with ringBase := 0x50000, ringLog2 := 6, enable := true, tail := BitVec.ofNat 64 n }
def ring (step : Nat) (ws : List W64) (s : State) : State :=
  onCtx (fun c => { c with streams := [(0, { streamOf ws.length with step := step, busy := decide (0 < step) })] }) { s with mem := words 0x50000 ws s.mem }
def packetB (s : State) (c : Part → Stream → W64 → List W64 → Bool) : Bool := partB s 0 (fun x => match s.stream (.user 0 0) with
  | none => false
  | some d => d.due.isEmpty && s.sfeOpen 0 d && (match s.sfeStart 0 x.pktver d with
    | .packet h ws => c x d h ws
    | _ => false))
def walksB (s : State) (o x w : Nat) (u : Use) : Bool := match s.sfeWalk 0 o x w u with
  | (.ok tr, s1) => decide (s1.stream (.user 0 0) = s.stream (.user 0 0)) && ordinaryB s1 w [(⟨0, 0⟩, tr)] && s1.unpub.isEmpty && s1.posted.isEmpty && (match tr.loc with
    | .dev _ => true
    | _ => false)
  | _ => false
def plainCap : Cap := ⟨capBits 1 (rR + rW) kMem 0 0x10000, true⟩

theorem witness_StreamPackets :
    (here id (ring 0 [headerWord 3 5]) (fun s _ => partB s 0 (fun x => match s.stream (.user 0 0) with
       | none => false
       | some d => d.due.isEmpty && s.sfeOpen 0 d && (match s.sfeStart 0 x.pktver d with
         | .bad _ r _ => decide (r = 14)
         | _ => false))) &&
     here id (ring 0 [headerWord 3 4, 1, 0xFFFFFFFFF8, 5]) (fun s _ => packetB s (fun _ _ h ws => decide (hType h = 3 ∧ (bodyWord ws 1).toNat < 2 ^ 32 ∧ (bodyWord ws 2).toNat < 2 ^ 40 ∧
       (bodyWord ws 2).toNat % 8 = 0))) &&
     [0, 1].all (fun v => here id (ring 3 [headerWord 3 4, 1, 0xFFF8, v] ∘ plainObject) (fun s _ => match s.stream (.user 0 0) with
       | none => false
       | some d => d.due.isEmpty && s.sfeServes 0 d && decide (d.step = 3) && (match s.ringWord 0 d 0 with
         | .at h => (match s.ringWords 0 d ((List.range (hLen h)).tail) with
           | .ok ws => decide ((bodyWord ws 3) = v) && walksB s ((bodyWord ws 1).toNat % 2 ^ 32) ((bodyWord ws 2).toNat % 2 ^ 40) 8 .load
           | _ => false)
         | _ => false))) &&
     here id (ring 0 [headerWord 4 4, 1, 0xFFF8, 5] ∘ plainObject) (fun s _ => packetB s (fun _ _ h ws => decide (hType h = 4 ∧ hComplete h = false ∧ (bodyWord ws 1).toNat < 2 ^ 32 ∧
       (bodyWord ws 2).toNat < 2 ^ 40 ∧ (bodyWord ws 2).toNat % 8 = 0) && walksB s (bodyWord ws 1).toNat (bodyWord ws 2).toNat 8 .store)) &&
     here id (ring 0 [headerWord 5 1]) (fun s _ => packetB s (fun _ d h _ => decide (hType h = 5 ∧ hComplete h = false) && s.posted.isEmpty && !s.stuck (fun q => d.past.contains q.team))) &&
     here id (onCtx (fun c => { c with streams := c.streams.map (fun (e : Nat × Stream) => (e.1, { e.2 with past := [bootTeam] })) }) ∘ ring 0 [headerWord 5 1] ∘ copying [(7, hostFlow7)] ∘ connected7)
       (fun s _ => packetB s (fun _ d h _ => decide (hType h = 5 ∧ hComplete h = false) && s.stuck (fun q => d.past.contains q.team) && !s.shortFor (dueFor (fun q => d.past.contains q.team) s.posted))) &&
     here id (ring 0 [headerWord 6 5, 1, 0xFFF0, plainCap.bits.setWidth 64, (plainCap.bits.extractLsb' 64 64)] ∘ plainObject) (fun s _ => packetB s (fun _ _ h ws => decide (hType h = 6 ∧
       hComplete h = false ∧ (bodyWord ws 1).toNat < 2 ^ 32 ∧ (bodyWord ws 2).toNat < 2 ^ 40 ∧ (bodyWord ws 2).toNat % 16 = 0) && decide (s.capValid 0 ⟨bodyWord ws 4 ++ bodyWord ws 3, true⟩ = .ok) &&
       (match s.objEntry (s.tbOf 0) (bodyWord ws 1).toNat with
         | .at e => s.keepsTags e
         | _ => false) && walksB s (bodyWord ws 1).toNat (bodyWord ws 2).toNat 16 .cst))) = true := by decide +kernel

/-- A launch of one team with one group, its code and its stack in object 1. -/
def launchRecord (nlvl : Nat) : BitVec 2304 := BitVec.ofNat 2304 (4 + 2 ^ 48 + nlvl * 2 ^ 84 + 2 ^ 142 + 0xC0010004 * 2 ^ 192 + (capBits 1 (rR + rX) kCode 0 0x10000).toNat * 2 ^ 1664 +
  (capBits 1 (rR + rW + rS + rL) kMem 0 0).toNat * 2 ^ 1920)
def recordWords (nlvl : Nat) : List W64 := (List.range 36).map (fun k => (launchRecord nlvl).extractLsb' (64 * k) 64)
def readyOf : Ready := ⟨0, 0, 7, launchRecord 3, false, 1, 0, 0, 5⟩

theorem witness_Launches :
    ([(3, true), (2, false)].all (fun e => here id (ring 0 (headerWord 1 37 :: recordWords e.1) ∘ pinnedCode) (fun s _ => packetB s (fun x _ h ws => decide (hType h = 1) && (s.context? 0).isSome &&
       decide ((firstCheck (s.launchChecks 0 x (Launch.ofRecord (recordOf ws)))).2 = (if e.2 then .ok else .fail))))) &&
     here id (ring 0 (headerWord 2 38 :: 9 :: recordWords 3) ∘ pinnedCode) (fun s _ => packetB s (fun x _ h ws => decide (hType h = 2) && (s.context? 0).isSome &&
       decide ((firstCheck (s.launchChecks 0 x (Launch.ofRecord (recordOf ws.tail)))).2 = .ok))) &&
     here id (onCtx (fun c => { c with ready := [readyOf] }) ∘ ring 2 []) (fun s _ => decide (s.pf.current ≤ 1) && ctxB s 0 (fun c => decide (c.state = .running) && c.ready.any (fun r =>
       decide (r.stream = 0 ∧ r.tick.toNat ≤ s.timebase.toNat))) && (match s.stream (.user 0 0) with
         | none => false
         | some d => decide (d.step = 2))) &&
     here id (onCtx (fun c => { c with ready := [readyOf] }) ∘ ring 1 []) (fun s _ => decide (s.pf.current ≤ 1) && partB s 0 (fun x => match s.ctxOf 0, s.context? 0 with
       | some a, some c => decide (c.state = .running) && (match s.nextLaunch a c with
         | none => false
         | some r => decide (r = readyOf) && !s.snapClash a (Launch.ofRecord r.record) && (s.seatOn 0 x (Launch.ofRecord r.record) [15]).isSome)
       | _, _ => false)) &&
     here id (onTeam (fun t => { t with retired := true }) ∘ ring 1 []) (fun s g => launchB s g (fun l => decide (s.ctxOf l.part = some l.ctx) && (s.stream (.user l.part l.stream)).isSome) &&
       ctxB s 0 (fun c => decide (c.state = .running)) && s.copies.isEmpty && s.contribs.isEmpty && s.mats.isEmpty && s.teams.all (fun e => e.2.retired))) = true := by decide +kernel

/-- The management stream holds these packets; the machine has these partitions and contexts besides. -/
def mgmtRing (ws : List W64) (s : State) : State := { s with mem := words 0x50000 ws s.mem, pf := { s.pf with pktver := 1, mgmt := streamOf ws.length } }
def mgmtB (s : State) (type : Nat) (c : MgmtAt → Bool) : Bool :=
  s.pf.mgmt.enable && decide (s.pf.current ≤ 1) && s.pf.ready && s.pf.mgmt.due.isEmpty && s.pf.mgmt.room && s.pf.pkts.isEmpty && (match s.mgmtRing with
    | [m] => !m.bad && decide (hType (m.words.headD 0) = type ∧ s.pf.pktver ≠ 0 ∧ hVersion (m.words.headD 0) = s.pf.pktver.toNat) &&
        (s.hasOp (.packet m.pos) || (s.pktNames m).all (fun p => !s.resetting p)) && c m
    | _ => false)
def idleB (s : State) (p : Nat) (m : MgmtAt) : Bool := (s.part? p).isSome && !s.opBusy p && !s.hasOp (.packet m.pos)
def silentB (m : MgmtAt) : Bool := !hComplete (m.words.headD 0)
def notCopying (s : State) : Bool := s.copies.isEmpty && s.contribs.isEmpty
def cfgB (m : MgmtAt) (op : Nat) : Bool := decide (cfgOp (m.q 1) = op ∧ (m.q 1).toNat / 2 ^ 22 % 2 ^ 10 = 0 ∧ (m.q 1).toNat / 2 ^ 50 = 0 ∧ (m.q 2).toNat / 2 ^ 17 = 0)

theorem witness_ManagementPackets :
    (here id (mgmtRing [headerWord 0x81 3]) (fun s _ => s.pf.mgmt.enable && s.pf.ready && decide (s.pf.current ≤ 1) && s.pf.mgmt.due.isEmpty && s.pf.mgmt.room && s.pf.pkts.isEmpty &&
       (match s.mgmtRing with
         | [m] => m.bad
         | _ => false)) &&
     [2, 3].all (fun n => here id (fun s => mgmtRing [headerWord 0x81 n, 0] { s with pf := { s.pf with ready := false } }) (fun s _ => s.pf.mgmt.enable && !s.pf.ready && s.pf.mgmt.due.isEmpty &&
       s.pf.mgmt.room && s.pf.pkts.isEmpty && (match s.mgmtRing with
         | [m] => m.bad || decide (hType (m.words.headD 0) = 0x81)
         | _ => false))) &&
     here id (mgmtRing [headerWord 0x81 2, 0]) (fun s _ => mgmtB s 0x81 (fun m => decide ((m.q 1).toNat < 16) && idleB s (m.q 1).toNat m && ctxB s (m.q 1).toNat (fun c => decide (c.state = .running)))) &&
     [CtxState.stopped, .halted].all (fun st => here id (mgmtRing [headerWord 0x82 2, 0] ∘ contextIn st) (fun s _ => mgmtB s 0x82 (fun m => decide ((m.q 1).toNat < 16) && idleB s (m.q 1).toNat m &&
       ctxB s (m.q 1).toNat (fun c => decide (c.state = st)) && s.secure (m.q 1).toNat && decide (s.saved = []) && s.launches.isEmpty))) &&
     here id (mgmtRing [headerWord 0x83 2, 0] ∘ contextIn .stopped) (fun s _ => mgmtB s 0x83 (fun m => decide ((m.q 1).toNat < 16) && idleB s (m.q 1).toNat m && notCopying s && s.launches.isEmpty &&
       ctxB s (m.q 1).toNat (fun c => c.ready.isEmpty && c.streams.all (fun e => e.2.due.isEmpty)))) &&
     here id (mgmtRing [headerWord 0x84 3, 1, 2 ^ 40]) (fun s _ => mgmtB s 0x84 (fun m => silentB m && decide ((m.q 1).toNat < 2 ^ 36) && idleB s (opPart (m.q 1)) m && notCopying s && s.unpub.isEmpty &&
       objectB s (m.q 1) (fun e => !e.rangeBad (opOff (m.q 2)) (opCount (m.q 2)) && pagesOpen s (opPart (m.q 1)) e (m.q 2)))) &&
     [false, true].all (fun there => here id (mgmtRing [headerWord 0x85 4, 1, 2 ^ 40, 0] ∘ swapping there) (fun s _ =>
       mgmtB s 0x85 (fun m => silentB m && decide ((m.q 1).toNat < 2 ^ 36) && idleB s (opPart (m.q 1)) m && notCopying s && objectB s (m.q 1) (fun e => !e.rangeBad (opOff (m.q 2)) (opCount (m.q 2)) &&
         decide ((m.q 3).toNat % e.pageBytes = 0 ∧ (m.q 3).toNat + opCount (m.q 2) * e.pageBytes ≤ 2 ^ 52) &&
         (match s.pageRefs (s.tbOf (opPart (m.q 1))) e (opOff (m.q 2)) (opCount (m.q 2)) with
           | [(0, r)] => if there then decide (r.frames = [(0, bootCode)]) && r.bits.getLsbD 0 && decide (e.place ≠ plHost ∧ e.keyslot = 0) else !r.bits.getLsbD 0
           | _ => false) && s.mem.wf && s.hostMem.wf && decide (Tab.wf false s.mtags = true ∧ (m.q 3).toNat + 2 ^ 16 ≤ (s.tbOf (opPart (m.q 1))).s2Base))))) &&
     [0, 63].all (fun (k : W64) => here id (mgmtRing [headerWord 0x86 2, k]) (fun s _ => mgmtB s 0x86 (fun m => decide ((m.q 1).toNat < 64) && !s.opBusy (s.keyPart (m.q 1).toNat) &&
       !s.hasOp (.packet m.pos) && notCopying s))) &&
     here id (mgmtRing [headerWord 0x87 4, 2, 0x60000, 0x61000]) (fun s _ => mgmtB s 0x87 (fun m => decide (1 ≤ (m.q 1).toNat ∧ (m.q 1).toNat ≤ 62) && (s.part? 0).isSome &&
       (m.words.drop 2).all (fun f => !s.frameBad f && decide (operPart f = 0)) && decide (((m.words.drop 2).map frameAddr).Nodup))) &&
     here id (mgmtRing [headerWord 0x88 3, 0x100, 100]) (fun s _ => mgmtB s 0x88 (fun m => cfgB m 0 && decide (cfgLog2n (m.q 1) ≤ 4 ∧ cfgPart (m.q 1) % cfgUnits (m.q 1) = 0 ∧
       s.strictSum + (m.q 2).toNat % 2 ^ 16 ≤ 65536) && (s.cfgMeets (m.q 1)).isEmpty && s.parts.all (fun e => !e.2.hpart))) &&
     here id (mgmtRing [headerWord 0x88 3, 0x101, 0] ∘ (fun s => { s with parts := s.parts ++ [(1, Part.base)], mgmtOps := [⟨1, mkReset, 0, 1, 0, .packet 0, []⟩] })) (fun s _ => mgmtB s 0x88 (fun m =>
       cfgB m 1 && partB s (cfgPart (m.q 1)) (fun x => x.ctx.isNone) && notCopying s && decide (s.mgmtOps = [⟨cfgPart (m.q 1), mkReset, 0, 1, 0, .packet m.pos, []⟩]))) &&
     here id (mgmtRing (headerWord 0x88 11 :: 0x3F0002 :: List.replicate 9 0)) (fun s _ => mgmtB s 0x88 (fun m => cfgB m 2 && (s.part? (cfgPart (m.q 1))).isSome &&
       (s.keySlot (cfgSlot (m.q 1))).part.isNone && decide ((s.keySlot (cfgSlot (m.q 1))).gen < 1023))) &&
     here id (mgmtRing [headerWord 0x88 3, 0x10003, 0] ∘ (fun s => { s with keys := Tab.put s.keys 1 ⟨some 0, 1, false, 0⟩ })) (fun s _ => mgmtB s 0x88 (fun m => cfgB m 3 &&
       !s.slotUsed (cfgSlot (m.q 1))))) = true := by decide +kernel

theorem witness_swapPacketReadable (i : Nat) (hi : i < 2 ^ 16) :
    ((mgmtRing [headerWord 0x85 4, 1, 2 ^ 40, 0] ∘ swapping true) booted).readable 0 (.dev (bootCode + i)) = true :=
  stamped_readable (by simp [mgmtRing, swapping]) (by decide +kernel) i hi

def queueing (soft hot : List SvcRec) : State → State := onPart (fun x => { x with softQ := soft, hotQ := hot })
def resident (started : Bool) (vault : Option Nat) : State → State := onPart (fun x => { x with resid := [⟨5, vault, started, false, []⟩] }) ∘ withTensors [(5, codeTensor)]

/-- Two tensors of one object that is placed in vault 1; the second, of lower priority, is in the way of the first. -/
def crowded (s : State) : State :=
  onPart (fun x => { x with resid := [⟨5, some 1, false, false, []⟩] }) (withTensors [(5, { codeTensor with desc := codeTensor.desc + BitVec.ofNat 1024 (2 ^ 424) }), (6, codeTensor)]
    { s with mem := putNat (putNat s.mem (bootTable + 32) 32 (bootEntry - 2 ^ 18 + 2 ^ 21)) bootList 8 0 })

theorem witness_ServiceQueue :
    (here id (queueing [⟨1, 0, 0⟩] []) (fun s _ => partB s 0 (fun x => match x.softQ with
       | r :: _ => !r.q0.getLsbD 8 && decide (r.q0.toNat / 2 ^ 16 % 2 ^ 16 = 0) && s.svcRoom 0 && !s.svcShort 0
       | _ => false)) &&
     here id (queueing [⟨1, 0, 0⟩, ⟨0x101, 0, 0⟩] [] ∘ (fun s => { s with mem := putNat s.mem 0 8 16 })) (fun s _ => partB s 0 (fun x => match x.softQ with
       | r :: r' :: _ => !s.svcOpen 0 r && s.svcOpen 0 r' && s.launches.all (fun e => e.2.snaps.isEmpty && decide (e.2.recovery ≠ rcSnapshot))
       | _ => false)) &&
     here id (queueing [] [⟨2, 3, 0⟩]) (fun s _ => partB s 0 (fun x => match x.hotQ with
       | r :: _ => s.svcRoom 0 && !s.svcShort 0 && decide (s.blockNames 0 r.q1.toNat = [(1, 0)])
       | _ => false)) &&
     here id (resident false none) (fun s _ => partB s 0 (fun x => match x.resid with
       | r :: _ => !r.started && !r.own && r.vault.isNone
       | _ => false)) &&
     here id (onPart (fun x => { x with resid := [⟨5, some 1, false, false, []⟩] })) (fun s _ => partB s 0 (fun x => match x.resid with
       | r :: _ => !r.started && !r.own && (s.tensor 0 r.tid).isNone
       | _ => false)) &&
     here id (onPart (fun x => { x with resid := [⟨5, some 1, false, false, []⟩] }) ∘ withTensors [(5, plainTensor)]) (fun s _ => partB s 0 (fun x => match x.resid, s.tensor 0 5 with
       | r :: _, some e => !r.started && !r.own && decide (r.tid = 5) && !s.movable 0 e
       | _, _ => false)) &&
     here id (resident false (some 1)) (fun s _ => partB s 0 (fun x => match x.resid, s.tensor 0 5 with
       | r :: _, some e => !r.started && !r.own && decide (r.vault = some 1) && s.movable 0 e && (s.inVault 0 1 x).isEmpty
       | _, _ => false)) &&
     here id (crowded) (fun s _ => partB s 0 (fun x => match x.resid, s.tensor 0 5 with
       | r :: _, some e => !r.started && decide (r.tid = 5 ∧ r.vault = some 1) && s.movable 0 e && decide (6 ∈ s.inVault 0 1 x ∧ 6 ∉ r.tried ∧ s.priority 0 6 < s.priority 0 5)
       | _, _ => false)) &&
     [(none, Config.gddrBase 0), (some 1, Config.vaultBase 1)].all (fun e => here id (resident false e.1) (fun s _ => partB s 0 (fun x => match x.resid, s.tensor 0 5 with
       | r :: _, some k => decide (r.tid = 5) && !r.started && s.movable 0 k && !s.opBusy 0 && extentsFit 0 x r.vault (s.unitPages 0 k) [e.2]
       | _, _ => false)))) = true := by decide +kernel

def halting (halt : Bool) (acks : List (Nat × EngineKind)) : State → State := onCtx (fun c => { c with state := .stopping, halting := halt, acks := acks })
def needs0 : List (Nat × EngineKind) := booted.stopNeeds 0
def snapPage : SnapPage := ⟨0x50000, 0x10000, false, 0, [(0x50000, 7)], [], [], [0x60000]⟩
/-- A record of a failed shadow check. -/
def deviceRec : FaultRec := ⟨0x30, 0xFF, 0, 0, 0, 0, 0, 1, 0, 0, false⟩
/-- A partition with more frames than any engine's save takes. -/
def framed (s : State) : State := onPart (fun x => { x with frames := List.replicate 70000 0x60000 }) (halting false [] s)

theorem save_of_frames {s : State} {p e : Nat} {recs : List (List Byte)} {x : Part} {c : Context} (hx : s.part? p = some x) (hc : s.context? p = some c)
    (h : (packRecords recs []).length + 2 ^ 16 ≤ x.frames.length) : ∃ s2 s3, s.save p e recs = (some s2, s3) := by
  unfold State.save
  rw [hx, hc]
  have ha : ∃ a, s.ctxOf p = some a := by
    cases h1 : s.ctxOf p with
    | none => simp [State.context?, h1] at hc
    | some a => exact ⟨a, rfl⟩
  obtain ⟨a, ha⟩ := ha
  rw [ha]
  have hn := Nat.mod_lt (s.fresh (s.dom p)).1.toNat (show 0 < 2 ^ 16 by decide)
  have : ¬ x.frames.length < (packRecords recs []).length + (s.fresh (s.dom p)).1.toNat % 2 ^ 16 := by omega
  simp only [this, if_false]
  exact ⟨_, _, rfl⟩

/-- For the first clause of StopsAndRecovery, whatever number of frames an engine's save takes. -/
theorem witness_engineStop : ∃ c s2 s3, (framed booted).context? 0 = some c ∧ c.state = .stopping ∧ (0x100, EngineKind.streamFrontEnd) ∈ (framed booted).stopNeeds 0 ∧
    (0x100, EngineKind.streamFrontEnd) ∉ c.acks ∧ (framed booted).mayAck 0 (0x100, .streamFrontEnd) = true ∧
    ((framed booted).ackEffect 0 c (0x100, .streamFrontEnd)).save 0 (engineNo (0x100, .streamFrontEnd))
      (((framed booted).ackEffect 0 c (0x100, .streamFrontEnd)).engineRecords 0 c (0x100, .streamFrontEnd)) = (some s2, s3) := by
  refine ⟨{ Context.base bootTb with state := .stopping }, ?_⟩
  obtain ⟨s2, s3, h⟩ := save_of_frames (s := framed booted) (p := 0) (e := engineNo (0x100, .streamFrontEnd))
    (recs := ((framed booted).ackEffect 0 { Context.base bootTb with state := .stopping } (0x100, .streamFrontEnd)).engineRecords 0 { Context.base bootTb with state := .stopping } (0x100, .streamFrontEnd))
    (x := { Part.base with ctx := some bootCtx, tdi := .run, spdm := true, pktver := 1, lrver := 1, frames := List.replicate 70000 0x60000 })
    (c := { Context.base bootTb with state := .stopping }) rfl rfl (by
      rw [List.length_replicate]
      decide +kernel)
  exact ⟨s2, s3, rfl, rfl, by decide +kernel, by decide +kernel, rfl, h⟩

theorem witness_StopsAndRecovery :
    ([false, true].all (fun halt => here id (halting halt needs0) (fun s _ => (s.ctxOf 0).isSome && ctxB s 0 (fun c => decide (c.state = .stopping) && (s.stopNeeds 0).all (fun e => decide (e ∈ c.acks)) &&
       decide (c.halting = halt)) && (s.ctxLaunches 0).all (fun e => !e.2.restarts))) &&
     here (fun g => { atLevel .s (allLanes (fun x => { x with state := .park, park := .rti }) g) with core := 0 }) (onPart (fun x => { x with events := [⟨1, List.replicate 32 7⟩] })) (fun s g =>
       decide (s.handlerOf 0 = some bootGroup) && partB s 0 (fun x => !x.events.isEmpty) && s.handlerFree bootGroup && (s.team? g.team).isSome && decide (g.width ≤ 64 ∧ g.lanes.length = g.width)) &&
     here id (onLaunch (fun l => { l with record := l.record ||| BitVec.ofNat 2304 (2 ^ 73), failing := 1, snaps := [snapPage] }) ∘ onPart (fun x => { x with spdm := false }) ∘
       onCtx (fun c => { c with state := .halted })) (fun s g => launchB s g (fun l => ctxB s l.part (fun c => decide (c.state = .halted)) && decide (s.ctxOf l.part = some l.ctx ∧ l.failing ≠ 0 ∧
         l.recovery = rcSnapshot) && !s.secure l.part && (match l.snaps with
           | [pg] => !pg.host && !pg.frames.isEmpty && decide (Tab.wf 0 pg.cells = true) && pg.cells.all (fun e => decide (pg.base ≤ e.1 ∧ e.1 < pg.base + pg.size))
           | _ => false))) &&
     here (fun g => { g with fault := some deviceRec }) (onLaunch (fun l => { l with record := l.record ||| BitVec.ofNat 2304 (2 ^ 73), failing := 1, snaps := [snapPage] }) ∘
       onCtx (fun c => { c with state := .halted, first := some deviceRec })) (fun s g => launchB s g (fun l => ctxB s l.part (fun c => decide (c.state = .halted) && (match c.first with
         | none => false
         | some f => s.deviceFirst l.part f)) && decide (s.ctxOf l.part = some l.ctx ∧ l.failing ≠ 0 ∧ l.recovery = rcSnapshot) && s.secure l.part &&
         s.launches.all (fun e => decide (e.1 = bootLaunch)) && decide ((s.launches.map (·.1)).Nodup)))) = true := by decide +kernel

/-- Port 3 of the partition trains to device 7, of its coherence domain; window 0 of the partition is open to it. -/
def linked (s : State) : State := onPart (fun x => { x with ports := [3] }) { s with ports := [(3, ⟨true, 7, 1, 0⟩)], domain := [7] }
def windowBits : Nat := 1 + 2 ^ 40 + 0x10000 * 2 ^ 112 + 2 ^ 192 + 2 ^ 193 + 9 * 2 ^ 208 + 7 * 2 ^ 240
def windowed (bad : Bool) (s : State) : State :=
  linked (onPart (fun x => { x with wintab := 0x60000 }) { s with mem := putNat s.mem 0x60000 32 windowBits, sectors := lastSector.map (fun e => (e.1, { e.2 with unc := bad })) })
def waitingHost (service : Bool) (g : Group) : Group :=
  { g with host := some ⟨.aadd 5 1 3 2, 4, 0x0F, g.regs, 0, false, some 0, service, false, 0, 0, [(3, .host 0x100)]⟩ }
def postedWrite : Posted := ⟨0, none, bootGroup, bootTeam, 1, 0, false, false, [(.host 0x100, 0, 3)]⟩
def secureB (s : State) (c : Context → Bool) : Bool := ctxB s 0 (fun k => decide (k.state = .running) && k.first.isNone && c k)

/-- A range of the partition's memory that a write from outside may change. -/
def reachedB (s : State) (a n : Nat) : Bool := s.takesRequests && !s.hostCut 0 && s.inPart 0 a n && (s.snapShort ((List.range n).map (fun i => .dev (a + i)))).isNone &&
  (List.range n).all (fun i => s.queues.all (fun q => decide (a + i < q.2 ∨ q.2 + 32 ≤ a + i)))
/-- No slot of the partition's decrypts a byte there; the range is none of GDDR7. -/
def foreignB (s : State) (a n : Nat) : Bool := (List.range n).all (fun k => (s.outsideSlot 0 (a + k)).isNone)
def inVaultB (a n : Nat) : Bool := (List.range n).all (fun k => !Config.isGddr (a + k))

theorem witness_OutsideAccesses :
    ([AccessSize.b1, .b8].all (fun w => here id id (fun s _ => reachedB s (2 ^ 33 - 8) (sizeBytes w) && s.unpub.isEmpty && foreignB s (2 ^ 33 - 8) (sizeBytes w) && inVaultB (2 ^ 40) (sizeBytes w) &&
       reachedB s (2 ^ 40) (sizeBytes w) && !s.inPart 0 Config.gddrPerUnit (sizeBytes w) && !s.inPart 0 Config.gddrPerUnit (sizeBytes w))) &&
     hostMay (.atomic .add) .b4 && hostMay (.atomic (.cas 5)) .b8 && peerMay (.atomic .swap) .b4 && peerMay (.atomic .add) .b8 &&
     here id (onPart (fun x => { x with cut := true })) (fun s _ => s.takesRequests && s.hostCut 0) &&
     [AccessSize.b1, .b8].all (fun w => here id (fun s => { s with sectors := lastSector }) (fun s _ => s.takesRequests && [0x50000, Config.vaultBase 1].all (fun a => Config.isDevice a && Config.isDevice (a + sizeBytes w - 1) &&
       (List.range (sizeBytes w)).all (fun k => (s.sector (a + k)).slot.isNone && s.queues.all (fun q => decide (a + k < q.2 ∨ q.2 + 32 ≤ a + k))) && s.unpub.isEmpty &&
       (s.snapShort ((List.range (sizeBytes w)).map (fun i => .dev (a + i)))).isNone) &&
       (List.range (sizeBytes w)).all (fun k => Config.isGddr (bootCode + 0xFFE0 + k) && (s.sector (bootCode + 0xFFE0 + k)).slot.isSome) && !Config.isDevice (2 ^ 52 - 1))) &&
     here id linked (fun s _ => decide ((7 : W16) ∈ s.domain) && s.linkUp 0 (7 : W16).toNat && [AccessSize.b4, .b8].all (fun w => reachedB s 0x50000 (sizeBytes w) && reachedB s (2 ^ 40) (sizeBytes w) &&
       inVaultB (2 ^ 40) (sizeBytes w)) && s.unpub.isEmpty && decide ((9 : W16) ∉ s.domain)) &&
     [(WindowOp.write, (9 : W32), 0xFFF8, false), (.read, 9, 0xFFF8, false), (.atomic .add, 9, 0xFFF8, false), (.cload, 9, 0xFFF0, false), (.cstore, 9, 0xFFF0, false), (.read, 9, 0xFFF8, true)].all
       (fun q => here id (windowed q.2.2.2) (fun s _ => s.takesRequests && s.linkUp 0 (7 : W16).toNat && partB s 0 (fun x => decide (x.winStat ≠ 1) && (match s.windowEntry 0 x 0 with
         | some (.at a) =>
           let e : BitVec 256 := BitVec.ofNat 256 (s.devNat a 32)
           let n := windowBytes .b8 q.1
           windowMay .b8 q.1 && windowPasses e q.2.1 7 q.2.2.1 n q.1 && (match s.walk 0 (s.tbOf 0) 0 (weObject e) (weBase e + q.2.2.1) n with
             | .at tr => !s.keyBad 0 tr.slot && !s.keyHeld 0 tr.slot && ordinaryB s n [(⟨0, 0⟩, tr)] && (s.snapShort ((List.range n).map (tr.loc.add ·))).isNone && s.unpub.isEmpty &&
                 decide (s.marked tr.loc n = q.2.2.2)
             | _ => false)
         | _ => false)))) &&
     [((8 : W32), 0), (9, 0xFFF9)].all (fun q => here id (windowed false) (fun s _ => s.takesRequests && s.linkUp 0 (7 : W16).toNat && partB s 0 (fun x => decide (x.winStat ≠ 1) && (match s.windowEntry 0 x 0 with
       | some (.at a) =>
         let e : BitVec 256 := BitVec.ofNat 256 (s.devNat a 32)
         !windowPasses e q.1 7 q.2 8 .write && !windowPasses e q.1 7 q.2 8 .read && !windowMay .b1 (.atomic .add)
       | _ => false)))) &&
     [false, true].all (fun v => here (waitingHost v) id (fun s g => !s.hostCut g.part && decide (s.unpub = [] ∧ s.posted = []) && ctxB s g.part (fun k => decide (k.state = .running)) && (match g.host with
       | none => false
       | some r => decide (r.word = .aadd 5 1 3 2 ∧ r.service = v ∧ r.replay = false ∧ r.refused = 0 ∧ r.left g.atomDone = [3] ∧ r.accs = [(3, .host 0x100)])))) &&
     here id (onPart (fun x => { x with cut := true })) (fun s g => s.hostCut g.part) &&
     here id (fun s => { s with posted := [postedWrite] }) (fun s _ => (match s.posted with
       | [q] => decide (q.part = 0 ∧ q.dev = none ∧ q.engine = false)
       | _ => false) && decide (s.pf.mcLog2.toNat < 4)) &&
     here id id (fun s _ => partB s 0 (fun x => decide (x.tdi = .run) && x.spdm) && secureB s (fun _ => true)) &&
     [Tdi.configUnlocked, .configLocked].all (fun d => here id (onPart (fun x => { x with tdi := d })) (fun s _ => partB s 0 (fun x => decide (x.tdi = d)))) &&
     here id id (fun s _ => s.takesRequests && s.mgmtOps.isEmpty && partB s 0 (fun x => !x.resetting && decide (s.parts = [(0, x)]))) &&
     here id (fun s => onPart (fun x => { x with ctx := none }) { s with mgmtOps := [⟨0, mkReset, 0, 1, 0, .host, []⟩] }) (fun s _ => s.takesRequests && s.copies.isEmpty && partB s 0 (fun x => x.ctx.isNone) &&
       decide (s.mgmtOps = [⟨0, mkReset, 0, 1, 0, .host, []⟩])) &&
     here id id (fun s _ => !s.hostCut 0 && partB s 0 (fun x => decide (x.winStat ≠ 1))) &&
     here id (onPart (fun x => { x with winStat := 1 }) ∘ windowed false) (fun s _ => partB s 0 (fun x => decide (x.winStat = 1) && (match s.windowEntry 0 x x.winIdx with
       | some (.at a) => !s.shortAt a 32
       | _ => false)))) = true := by decide +kernel

def windowClaim (state : Nat) : State → State := onTeam (fun t => { t with claims := [(3, { claimOf state 3 with wins := [(7, 5)] })] })

theorem witness_Links :
    ((1 : BitVec 16) ≠ 0 ∧ (17 : Nat) < 18 ∧ (2 : BitVec 32).getLsbD Config.version = true) ∧
    ([0, 6, 7].all (fun f => here id (fun s => { s with ports := [(3, ⟨true, 7, 1, f⟩)] }) (fun s _ => match Tab.find s.ports 3 with
       | none => false
       | some q => q.up && decide (q.fails = f))) &&
     [1, 2].all (fun c => here id (windowClaim c) (fun s g => notCopying s && teamB s g (fun tm => decide (tm.part = 0) && (match Tab.find tm.claims 3 with
       | none => false
       | some k => decide (k.state = c ∧ ((7 : W16).toNat, (5 : W16).toNat) ∈ k.wins))))) &&
     [0, 4].all (fun e => here id (fun s => { s with ports := [(3, ⟨true, 7, 1, 0⟩)], pf := { s.pf with tbRoot := 1 } }) (fun s _ => (match Tab.find s.ports 3 with
       | none => false
       | some q => q.up) && decide ((0 : W16).toNat < s.pf.tbRoot.toNat ∧ ((e : W64) - s.timebase).toNat < 2 ^ 63 ∧ ((e : W64) - s.timebase).toNat ≤ 4))) &&
     here id (fun s => { s with ports := [(3, ⟨true, 7, 1, 0⟩)], pf := { s.pf with tbPort := some 3 } }) (fun s _ => (match Tab.find s.ports 3 with
       | none => false
       | some q => q.up) && decide (s.pf.tbPort = some 3)) &&
     here id (fun s => { s with timebase := 1000000, pf := { s.pf with tblock := true } }) (fun s _ => s.pf.tblock && decide (s.pf.tbLast + 1000000 ≤ s.timebase.toNat))) = true ∧
    (0 : W16).toNat ≤ Config.deviceId.toNat := ⟨by decide, by decide +kernel, Nat.zero_le _⟩

theorem witness_Debugging :
    ([false, true].all (fun b => here (allLanes (fun x => { x with state := .brk, stepped := b })) (onCtx (fun c => { c with stopmode := 1 })) (fun s g => !s.hostCut 0 &&
       ctxB s 0 (fun c => c.stopmode.getLsbD 0 && decide (c.state = .running)) && decide (s.namedGroups 0 0 0 = [bootGroup] ∧ g.width ≤ 64) && (s.part? 0).isSome)) &&
     here id id (fun s _ => partB s 0 (fun x => !x.cut) && ctxB s 0 (fun c => !c.stopmode.getLsbD 0)) && (0x8000000000000000 : W64).getLsbD 63 &&
     here id (onPart (fun x => { x with sampctl := 0x8000000000000000 })) (fun s _ => decide (s.pf.current ≤ 1) && partB s 0 (fun x => x.sampctl.getLsbD 63 && decide (x.sampNext ≤ s.aclk))) &&
     [CtxState.stopped, .halted].all (fun st => here id (contextIn st) (fun s _ => ctxB s 0 (fun c => decide (c.state = st)))) &&
     here id (fun s => { s with pf := { s.pf with mcLog2 := 4, mcProd := 15 } }) (fun s _ => decide ((s.pf.mcProd - s.pf.mcCons).toNat < 2 ^ s.pf.mcLog2.toNat ∧ 4 ≤ s.pf.mcLog2.toNat) && !s.shortAt (s.pf.mcBase.toNat + 32 * (s.pf.mcProd.toNat % 2 ^ s.pf.mcLog2.toNat)) 32)) = true := by
  decide +kernel

def powered (current target status : Nat) (trip : Bool) (s : State) : State := { s with pf := { s.pf with current := current, target := target, pwrStatus := status, thermtrip := trip } }

theorem witness_Power :
    ([(0, false), (1, true)].all (fun e => here id (powered e.1 0 0 e.2) (fun s _ => s.pf.ready && decide (s.pf.pwrStatus = 0 ∧ s.pf.current ≤ 1) && decide (s.pf.thermtrip = e.2) && !s.quiet)) &&
     here id (powered 0 0 0 false ∘ contextIn .stopped) (fun s _ => s.pf.ready && decide (s.pf.pwrStatus = 0 ∧ s.pf.current ≤ 1) && s.quiet) &&
     [0, 1, 2].all (fun k => here id (powered 2 k 1 false) (fun s _ => decide (s.pf.pwrStatus = 1 ∧ s.pf.target = k))) &&
     [(2, 0), (3, 2)].all (fun k => [false, true].all (fun b => here id (powered k.1 0 k.2 b) (fun s _ => s.pf.ready && decide (s.pf.current = k.1 ∧ s.pf.pwrStatus ≠ 1 ∧ s.pf.thermtrip = b)))) &&
     [3, 4].all (fun k => here id (powered 0 k 1 false ∘ contextIn .stopped) (fun s _ => decide (s.pf.pwrStatus = 1 ∧ s.pf.target = k) && s.quiet && s.copies.isEmpty && s.parts.all (fun e => !e.2.hpart))) &&
     [104, 105].all (fun n => here id (fun s => { s with pf := { s.pf with temp := n } }) (fun s _ => decide (s.pf.current ≠ 4 ∧ s.pf.temp = n))) &&
     here id id (fun s _ => decide (s.pf.current ≠ 4 ∧ s.pf.mcLog2.toNat < 4) && s.takesRequests && (s.unitOf (0x50000 : BitVec 52).toNat).isSome && Config.isGddr (0x50000 : BitVec 52).toNat &&
       s.pins.all (fun e => decide (e.1 / 4 ≠ (0x50000 : BitVec 52).toNat / 32 / 4)) && decide (s.pins.length < 2 ∧ (Tab.get Sector.clean s.sectors ((0x50000 : BitVec 52).toNat / 32)).errs < 2)) &&
     here id (fun s => { s with sectors := [(0x50000 / 32, ⟨none, false, 1, 0⟩)] }) (fun s _ => decide ((Tab.get Sector.clean s.sectors ((0x50000 : BitVec 52).toNat / 32)).errs = 1))) = true ∧
    (105 ≤ (105 : W8).toNat ∧ (95 : W8).toNat ≤ 95 ∧ 95 < (96 : W8).toNat ∧ (104 : W8).toNat < 105 ∧ (7 : W16).toNat / 8 ≠ 1 ∧ (16 : W16).toNat / 8 ≠ 1) := ⟨by decide +kernel, by decide⟩

end Sys2Proof.Tests
end

section
/-! PROOF. R172: `nop` changes nothing beyond the retirement of its group. -/

namespace Sys2Proof.Machine

/-! ### A change that keeps every value -/

@[simp] theorem Tab.modify_id {α : Type} (t : Tab α) (j : Nat) : t.modify j id = t := by
  induction t with
  | nil => rfl
  | cons e t ih =>
    obtain ⟨k, v⟩ := e
    by_cases hk : k = j
    · simp [Tab.modify, hk]
    · simp [Tab.modify, hk, ih]

@[simp] theorem State.onGroup_id (s : State) (u : Nat) : s.onGroup u id = s := by
  simp [State.onGroup]

/-- A word whose meaning leaves the state as it found it completes: its group retires, with its registers and shadows as before. -/
theorem completes_of_unchanged {s : State} {u : Nat} {g : Group} {pc : Pc} {m : W64} {i : Instr} (h : Passes s u g pc m i)
    (hown : (shape i).own = false) (hx : exec i s = word i s (fun s _ => .done s)) :
    Completes i s u g pc m (fun g' => g'.regs = g.regs ∧ g'.shadow = g.shadow) := by
  have hdone : exec i s = finish (shape i) (issueCtx u g pc m i) [] (.done (s.onGroup u id)) := by
    rw [hx, word_passes h, State.onGroup_id]
  exact completes_of_done h hown hdone rfl fun _ hregs hshadow => ⟨hregs, hshadow⟩

/-! ### `nop` (R172) -/

theorem exec_nop (s : State) : exec .nop s = word .nop s (fun s _ => .done s) := rfl

theorem decodeWord_nop : decodeWord 0x7000000E = some .nop := by decide

theorem encode_nop : encode .nop = some 0x7000000E := by decide

/-- Settles O27: the meaning of `nop` is the state it is given, so all that an issued `nop` does is retire its group; no premise speaks of the
execution mode. -/
theorem nopHasNoEffect : Obligations.NopHasNoEffect :=
  ⟨decodeWord_nop, encode_nop, fun s _ _ _ _ h => completes_of_unchanged h rfl (exec_nop s)⟩

end Sys2Proof.Machine
end

section
/-! PROOF. R180: the fixed results of the floating-point arithmetic, and the words of R179 that compute by it. -/

namespace Sys2Proof.Machine

/-! ### The values whose code no rounding mode changes -/

@[simp] theorem toW_nan (rm : Nat) : toW rm .nan = 0x7FC00000 := rfl

@[simp] theorem toW_inf (rm : Nat) (neg : Bool) : toW rm (.inf neg) = patternF neg 0x7F800000 := by cases neg <;> rfl

@[simp] theorem toW_zero (rm : Nat) (neg : Bool) (e : Int) : toW rm (.fin neg 0 e) = patternF neg 0 := by
  have hcode : roundCode fp32.mb fp32.qmin rm neg 0 e = 0 := if_pos rfl
  have hinf : ¬ fp32.infCode ≤ 0 := by decide
  rw [toW, FFmt.enc, hcode, if_neg hinf]
  cases neg <;> rfl

/-! ### Quotients and roots of special operands (R80) -/

@[simp] theorem Fp.div_zero_zero (bits : Nat) (a b : Bool) (e g : Int) : Fp.div bits (.fin a 0 e) (.fin b 0 g) = .nan := rfl

theorem Fp.div_zero {m : Nat} (hm : m ≠ 0) (bits : Nat) (a b : Bool) (e g : Int) : Fp.div bits (.fin a m e) (.fin b 0 g) = .inf (a ^^ b) := by
  simp [Fp.div, hm]

@[simp] theorem Fp.sqrt_zero (bits : Nat) (a : Bool) (e : Int) : Fp.sqrt bits (.fin a 0 e) = .fin a 0 0 := rfl

theorem Fp.sqrt_neg {m : Nat} (hm : m ≠ 0) (bits : Nat) (e : Int) : Fp.sqrt bits (.fin true m e) = .nan := by
  simp [Fp.sqrt, hm]

/-! ### The operands of R180 that stand for any rounding mode -/

theorem ofW_zero : ofW 0 = .fin false 0 (-149) := by decide

theorem ofW_minus_zero : ofW 0x80000000 = .fin true 0 (-149) := by decide

theorem ofW_minus_one : ofW 0xBF800000 = .fin true (2 ^ 23) (-23) := by decide

theorem ofW_minus_four : ofW 0xC0800000 = .fin true (2 ^ 23) (-21) := by decide

/-! ### The fixed results (R180) -/

theorem f32div_zero_zero (rm : Nat) : f32div rm 0 0 = 0x7FC00000 := by
  rw [f32div, ofW_zero, Fp.div_zero_zero, toW_nan]

theorem f32div_minus_one_zero (rm : Nat) : f32div rm 0xBF800000 0 = 0xFF800000 := by
  rw [f32div, ofW_minus_one, ofW_zero, Fp.div_zero (by decide), toW_inf]
  decide

theorem f32sqrt_minus_zero (rm : Nat) : f32sqrt rm 0x80000000 = 0x80000000 := by
  rw [f32sqrt, ofW_minus_zero, Fp.sqrt_zero, toW_zero]
  decide

theorem f32sqrt_minus_four (rm : Nat) : f32sqrt rm 0xC0800000 = 0x7FC00000 := by
  rw [f32sqrt, ofW_minus_four, Fp.sqrt_neg (by decide), toW_nan]

theorem f32add_vectors : f32add rmRne 0x3F800000 0x33800000 = 0x3F800000 ∧ f32add rmRup 0x3F800000 0x33800000 = 0x3F800001 ∧
    f32add rmRdn 0x00000000 0x80000000 = 0x80000000 := by decide

theorem f32sub_one_one : f32sub rmRne 0x3F800000 0x3F800000 = 0x00000000 := by decide

/-- The sum that `ffma` rounds once, and the same sum of a product rounded before. -/
theorem f32fma_vectors : f32fma rmRne 0xBF800000 0x3F800001 0x3F7FFFFF = 0x337FFFFE ∧
    f32add rmRne (f32mul rmRne 0x3F800001 0x3F7FFFFF) 0xBF800000 = 0x00000000 := by decide

theorem f32mul_overflow_rtz : f32mul rmRtz 0x7F000000 0x40800000 = 0x7F7FFFFF := by decide

theorem f32rcp_three : f32rcp rmRne 0x40400000 = 0x3EAAAAAB ∧ f32rcp rmRtz 0x40400000 = 0x3EAAAAAA := by decide

/-! ### The words of R179 compute in the rounding control -/

theorem exec_fadd (d a b : F7) (s : State) : exec (.fadd d a b) s = vec2 (.fadd d a b) d a b .f f32add (ivF2 f32add) s := rfl

theorem exec_fsub (d a b : F7) (s : State) : exec (.fsub d a b) s = vec2 (.fsub d a b) d a b .f f32sub (ivF2 f32sub) s := rfl

theorem exec_fmul (d a b : F7) (s : State) : exec (.fmul d a b) s = vec2 (.fmul d a b) d a b .f f32mul (ivF2 f32mul) s := rfl

theorem exec_ffma (d a b : F7) (s : State) : exec (.ffma d a b) s = vec3 (.ffma d a b) d a b .f f32fma (ivF3 f32fma) s := rfl

theorem exec_fdiv (d a b : F7) (s : State) : exec (.fdiv d a b) s = vec2 (.fdiv d a b) d a b .f f32div ivFdiv s := rfl

theorem exec_fsqrt (d a : F7) (s : State) : exec (.fsqrt d a) s = vec1 (.fsqrt d a) d a .f f32sqrt (ivF1 f32sqrt) s := rfl

theorem exec_frcp (d a : F7) (s : State) : exec (.frcp d a) s = vec1 (.frcp d a) d a .f f32rcp ivFrcp s := rfl

/-- Settles O15: the results fixed in one mode are computed, those fixed in every mode are of special values that no mode rounds, and each word of
R179 is a vector word around its operation. -/
theorem floatVectors : Obligations.FloatVectors := by
  unfold Obligations.FloatVectors
  obtain ⟨add_rne, add_rup, add_rdn⟩ := f32add_vectors
  obtain ⟨fma_once, fma_twice⟩ := f32fma_vectors
  obtain ⟨rcp_rne, rcp_rtz⟩ := f32rcp_three
  exact ⟨add_rne, add_rup, add_rdn, f32sub_one_one, fma_once, fma_twice, f32mul_overflow_rtz, f32div_zero_zero, f32div_minus_one_zero, rcp_rne, rcp_rtz,
    f32sqrt_minus_zero, f32sqrt_minus_four, roundedOp2_of (fun _ _ _ => rfl) exec_fadd, roundedOp2_of (fun _ _ _ => rfl) exec_fsub,
    roundedOp2_of (fun _ _ _ => rfl) exec_fmul, roundedOp3_of (fun _ _ _ => rfl) exec_ffma, roundedOp2_of (fun _ _ _ => rfl) exec_fdiv,
    roundedOp1_of (fun _ _ => rfl) exec_fsqrt, roundedOp1_of (fun _ _ => rfl) exec_frcp⟩

end Sys2Proof.Machine
end
